-- ==== Sys2Proof/Word.lean ====
section
/-! DEFINITION. The word types of the machine (R4, R8): bytes, 32-bit instruction words, 64-bit scalar words and the
2048-bit rows of a tile (R256). -/

namespace Sys2Proof

/-- A byte of memory; bit 0 is the least significant bit (R4). -/
abbrev Byte := BitVec 8

/-- One 32-bit word of an instruction (R171), a run value (R227) or a payload word. -/
abbrev W32 := BitVec 32

/-- A 64-bit scalar register, address or system register (R8, R192). -/
abbrev Word := BitVec 64

/-- One tile row: 256 bytes, row bit b being bit b mod 8 of row byte b div 8 (R256). -/
abbrev Row := BitVec 2048

end Sys2Proof
end

