-- ==== Sys2Proof/Config.lean ====
section
/-! DEFINITION. What an implementation fixes and the free values: opaque constants, of which no proof can see a value. -/

namespace Sys2Proof.Config

/-- The silicon stepping, VERS.STEP: a fuse value (R324; log 7). -/
opaque stepping : BitVec 8

/-- Byte `i` of the ML-DSA-87 signature of a digest under the part's identity key (R380, R382; log 15). -/
opaque quoteSignature : BitVec 512 → Nat → Byte

/-- Byte `i` of the identity public key held at device offset 0x3000 (R368, R380; log 15). -/
opaque identityKey : Nat → Byte

/-- Byte `i` of the certificate chain held at device offset 0x8000 (R368, R380; log 15). -/
opaque certificateChain : Nat → Byte

/-- The firmware image (R380; log 15). -/
opaque firmwareImage : List Byte

/-- The public key that comes with the firmware image (R380; log 15). -/
opaque firmwareKey : List Byte

/-- The digest of the Luamon public key that is fused in the part (R380; log 15). -/
opaque fusedKeyDigest : BitVec 512

/-- Whether the firmware image's ML-DSA-87 signature over a digest verifies under a public key (R380; log 15). -/
opaque signatureVerifies : List Byte → BitVec 512 → Bool

/-- The firmware image's security version (R380; log 15). -/
opaque firmwareVersion : Nat

/-- The fused rollback counter (R380; log 15). -/
opaque rollbackCounter : Nat

/-- A free bit: which choice the device takes where the manual lets it take any (R422, R492; log 20). -/
opaque freeBit : Nat → Bool

/-- A free byte: content the manual calls unspecified (R130, R341; log 25). -/
opaque freeByte : Nat → Byte

/-- The way of its set that holds a line, by cache and line: replacement is not fixed (R121, R428; log 13). -/
opaque wayOf : Nat → Nat → BitVec 4

/-- The correctly rounded activation value where the interval evaluation of R269 does not settle within its bound
(log 14): function number, format number and operand code. -/
opaque actValue : Nat → Nat → Nat → Nat

end Sys2Proof.Config
end

