-- ==== Sys2Proof/Syntax.lean ====
section
/-! DEFINITION. The abstract syntax: the fields of prefixes and extended forms, the operands of the agents' steps, and
the one inductive of instructions, one constructor per row of the opcode table. -/

namespace Sys2Proof

/-- The vector prefix of R176. Without a prefix word `present` is false and every other field is zero (R177). -/
structure Pfx where
  /-- A prefix word stands before the base word. -/
  present : Bool
  /-- FOURTH: the fourth operand register. -/
  fourth : Nat
  /-- ROUND: rounding mode of R90. -/
  round : Nat
  /-- ZERO: inactive runs become zero. -/
  zero : Bool
  /-- MASK: mask register. -/
  mask : Nat
  /-- COAL: equal adjacent result runs are merged. -/
  coal : Bool
  /-- F4V: FOURTH names an operand. -/
  f4v : Bool
  deriving DecidableEq, Repr

/-- The meaning of an absent prefix (R177). -/
def Pfx.none : Pfx := ⟨false, 0, 0, false, 0, false, false⟩

/-- The common fields of word 2 of an extended form (R178). -/
structure Ext where
  /-- AHEAD: lookahead value (R75). -/
  ahead : Nat
  /-- SCOPE (R139). -/
  scope : Nat
  /-- ORD (R141). -/
  ord : Nat
  /-- WAIT (R146). -/
  wait : Nat
  /-- G: the instruction is guarded. -/
  g : Bool
  /-- GSLOT: guard slot. -/
  gslot : Nat
  /-- GINV: executes when the guard is false. -/
  ginv : Bool
  deriving DecidableEq, Repr

/-- The offset of an extended memory form: DISP with L = 0b10, the trailing literal with L = 0b11 (R179). -/
inductive Off where
  | disp (d : BitVec 32)
  | lit (l : BitVec 64)
  deriving DecidableEq, Repr

/-- The memory fields of R179. -/
structure Addr where
  /-- SPACE: 0 LOCAL, 1 PADDOCK, 2 GLOBAL, 3 reserved. -/
  space : Nat
  /-- CSEL: core-select mode of R111. -/
  csel : Nat
  /-- The offset. -/
  off : Off
  deriving DecidableEq, Repr

/-- The length operand of CPY and CPYW: a register with L = 0b10, a literal with L = 0b11 (R285). -/
inductive CLen where
  | reg (r : Nat)
  | lit (l : BitVec 64)
  deriving DecidableEq, Repr

/-- What fails in an error event that no correction hides (R454): the failing unit of storage. -/
inductive BadUnit where
  /-- The 32-byte sector of HBM that holds this address, or the whole line where its tag is not 0x0. -/
  | hbm (pa : Nat)
  /-- The 8-byte unit of metadata that holds the tag of the line of this address (R457). -/
  | tag (pa : Nat)
  /-- The sector of the L2 line of this die that holds this PID and virtual address. -/
  | l2 (die pid va : Nat)
  /-- The paddock-cache line of this paddock that holds this PID and virtual address. -/
  | way (paddock pid va : Nat)
  /-- The 8-byte word of a PAD bank, or the entry at HEAD of a FIFO bank. -/
  | pad (paddock bank off : Nat)
  /-- The 8-byte word `word` (0 to 2047) of the physical tile mapped to architectural tile `tile` of a core. -/
  | tile (core tile word : Nat)
  /-- The remap-filter entry of the physical line that holds this address on this die (R452). -/
  | filter (die pa : Nat)
  /-- Nothing is left failing: the event was corrected, replayed or refetched. -/
  | corrected
  deriving DecidableEq, Repr

/-- An error event of R428 or R480: its CLASS and INDEX, and what it leaves failing. -/
structure ErrEvent where
  cls : Nat
  index : Nat
  uncorrectable : Bool
  unit : BadUnit
  deriving DecidableEq, Repr

/-- The peer's share of a collective of SPAN 1 (R302, R377, R492): one participant's command and its source words, or, with
`last`, what came of the destinations of a whole set; `fault` is CODE and INFO of the fault that ended it. A command of SPAN 0 is
told without its words, so that a set of SPAN 1 can tell the mismatch (R442; log 17). -/
structure CollFlit where
  pid : Nat
  group : Nat
  /-- The participant's number among both grids (R302). -/
  part : Nat
  /-- The sequence number of the participant's command. -/
  seq : Nat
  op : Nat
  red : Nat
  ty : Nat
  span : Bool
  count : Nat
  root : Nat
  words : List (BitVec 32)
  fault : Option (Nat × Nat)
  last : Bool
  deriving DecidableEq, Repr

/-- A CTRL flit of the peer (R377). -/
inductive CtrlFlit where
  /-- A counter notice of R158, with its stamp. -/
  | notice (stamp : List Nat)
  /-- A raise of the rein line of a group (R56, R476). -/
  | rein (pid group : Nat)
  /-- Tick synchronisation: role 0's tick (R383, R384). -/
  | tick (t : Word)
  /-- Credits. -/
  | credit (cls n : Nat)
  deriving DecidableEq, Repr

/-- What the MSG flits of one message tell besides its words: the target virtual core of this box, and the code version of the
sending context (R357, R377). -/
structure MsgHead where
  dstv : Nat
  major : Nat
  minor : Nat
  deriving DecidableEq, Repr

/-- Readings of the sensors of die 0 and die 1, in degrees Celsius (R375). -/
structure DieTemps where
  die0 : Nat
  die1 : Nat
  deriving DecidableEq, Repr

/-- A debug command: the 256 bits of DBGCMD (R385). -/
abbrev DbgCmd := BitVec 256

/-- Bits hi to lo of DBGCMD. -/
def DbgCmd.bits (c : DbgCmd) (hi lo : Nat) : Nat := c.toNat / 2 ^ lo % 2 ^ (hi + 1 - lo)
/-- OP. -/
def DbgCmd.op (c : DbgCmd) : Nat := c.bits 255 248
/-- PCORE. -/
def DbgCmd.pcore (c : DbgCmd) : Nat := c.bits 247 241
/-- PID. -/
def DbgCmd.pid (c : DbgCmd) : Nat := c.bits 240 235
/-- SLOT. -/
def DbgCmd.slot (c : DbgCmd) : Nat := c.bits 234 231
/-- FAM. -/
def DbgCmd.fam (c : DbgCmd) : Nat := c.bits 230 228
/-- NUM. -/
def DbgCmd.num (c : DbgCmd) : Nat := c.bits 227 222
/-- PAIR. -/
def DbgCmd.pair (c : DbgCmd) : Bool := c.getLsbD 221
/-- PHYS. -/
def DbgCmd.phys (c : DbgCmd) : Bool := c.getLsbD 220
/-- ADDR. -/
def DbgCmd.addr (c : DbgCmd) : BitVec 64 := BitVec.ofNat 64 (c.bits 191 128)
/-- VALUE. -/
def DbgCmd.value (c : DbgCmd) : BitVec 64 := BitVec.ofNat 64 (c.bits 127 64)
/-- The reserved bits [219:192] and [63:0]. -/
def DbgCmd.rsv (c : DbgCmd) : Nat := c.bits 219 192 + c.bits 63 0

/-- One constructor per row of the opcode table, in its order: rows 0 to 268 are the instructions of R181 to R183,
rows 269 to 359 the steps of the part's other agents (95; each docstring names its rule). -/
inductive Instr where
  /-- ADD.i64 (R195). -/
  | add (d : Nat) (a : Nat) (b : Nat)
  /-- SUB.i64 (R195). -/
  | sub (d : Nat) (a : Nat) (b : Nat)
  /-- AND.i64 (R195). -/
  | and (d : Nat) (a : Nat) (b : Nat)
  /-- OR.i64 (R195). -/
  | or (d : Nat) (a : Nat) (b : Nat)
  /-- XOR.i64 (R195). -/
  | xor (d : Nat) (a : Nat) (b : Nat)
  /-- ANDN.i64 (R195). -/
  | andn (d : Nat) (a : Nat) (b : Nat)
  /-- SLL.i64 (R195). -/
  | sll (d : Nat) (a : Nat) (b : Nat)
  /-- SRL.i64 (R195). -/
  | srl (d : Nat) (a : Nat) (b : Nat)
  /-- SRA.i64 (R195). -/
  | sra (d : Nat) (a : Nat) (b : Nat)
  /-- ROR.i64 (R195). -/
  | ror (d : Nat) (a : Nat) (b : Nat)
  /-- MUL.i64 (R195). -/
  | mul (d : Nat) (a : Nat) (b : Nat)
  /-- MULH.i64 (R195). -/
  | mulhI64 (d : Nat) (a : Nat) (b : Nat)
  /-- MULH.n64 (R195). -/
  | mulhN64 (d : Nat) (a : Nat) (b : Nat)
  /-- MIN.i64 (R195). -/
  | minI64 (d : Nat) (a : Nat) (b : Nat)
  /-- MIN.n64 (R195). -/
  | minN64 (d : Nat) (a : Nat) (b : Nat)
  /-- MAX.i64 (R195). -/
  | maxI64 (d : Nat) (a : Nat) (b : Nat)
  /-- MAX.n64 (R195). -/
  | maxN64 (d : Nat) (a : Nat) (b : Nat)
  /-- CLMUL.n64 (R197). -/
  | clmulN64 (d : Nat) (a : Nat) (b : Nat)
  /-- CLMULH.n64 (R197). -/
  | clmulhN64 (d : Nat) (a : Nat) (b : Nat)
  /-- POPC.n64 (R195). -/
  | popcN64 (d : Nat) (a : Nat)
  /-- CLZ.n64 (R195). -/
  | clzN64 (d : Nat) (a : Nat)
  /-- CTZ.n64 (R195). -/
  | ctzN64 (d : Nat) (a : Nat)
  /-- BSWAP.n64 (R195). -/
  | bswapN64 (d : Nat) (a : Nat)
  /-- EXT.i64 (R196). -/
  | extI64 (d : Nat) (a : Nat) (b : Nat)
  /-- EXT.n64 (R196). -/
  | extN64 (d : Nat) (a : Nat) (b : Nat)
  /-- INS.n64 (R196). -/
  | insN64 (d : Nat) (a : Nat) (b : Nat)
  /-- SXT.i8 (R195). -/
  | sxtI8 (d : Nat) (a : Nat)
  /-- SXT.i16 (R195). -/
  | sxtI16 (d : Nat) (a : Nat)
  /-- SXT.i32 (R195). -/
  | sxtI32 (d : Nat) (a : Nat)
  /-- ZXT.n8 (R195). -/
  | zxtN8 (d : Nat) (a : Nat)
  /-- ZXT.n16 (R195). -/
  | zxtN16 (d : Nat) (a : Nat)
  /-- ZXT.n32 (R195). -/
  | zxtN32 (d : Nat) (a : Nat)
  /-- ADDI.i64 (R198). -/
  | addi (imm : BitVec 12) (a : Nat) (d : Nat)
  /-- ADDI.i64 (R198). -/
  | addiLit32 (lit : BitVec 32) (a : Nat) (d : Nat)
  /-- ADDI.i64 (R198). -/
  | addiLit64 (lit : BitVec 64) (a : Nat) (d : Nat)
  /-- ANDI.i64 (R198). -/
  | andi (imm : BitVec 12) (a : Nat) (d : Nat)
  /-- ANDI.i64 (R198). -/
  | andiLit32 (lit : BitVec 32) (a : Nat) (d : Nat)
  /-- ANDI.i64 (R198). -/
  | andiLit64 (lit : BitVec 64) (a : Nat) (d : Nat)
  /-- ORI.i64 (R198). -/
  | ori (imm : BitVec 12) (a : Nat) (d : Nat)
  /-- ORI.i64 (R198). -/
  | oriLit32 (lit : BitVec 32) (a : Nat) (d : Nat)
  /-- ORI.i64 (R198). -/
  | oriLit64 (lit : BitVec 64) (a : Nat) (d : Nat)
  /-- XORI.i64 (R198). -/
  | xori (imm : BitVec 12) (a : Nat) (d : Nat)
  /-- XORI.i64 (R198). -/
  | xoriLit32 (lit : BitVec 32) (a : Nat) (d : Nat)
  /-- XORI.i64 (R198). -/
  | xoriLit64 (lit : BitVec 64) (a : Nat) (d : Nat)
  /-- SLLI.i64 (R198). -/
  | slli (n : Nat) (a : Nat) (d : Nat)
  /-- SRLI.i64 (R198). -/
  | srli (n : Nat) (a : Nat) (d : Nat)
  /-- SRAI.i64 (R198). -/
  | srai (n : Nat) (a : Nat) (d : Nat)
  /-- RORI.i64 (R198). -/
  | rori (n : Nat) (a : Nat) (d : Nat)
  /-- LUI (R199). -/
  | lui (imm : BitVec 20) (d : Nat)
  /-- AUIPC (R199). -/
  | auipc (imm : BitVec 20) (d : Nat)
  /-- DIV.i64 (R200). -/
  | divI64 (ahead : Nat) (d : Nat) (a : Nat) (b : Nat)
  /-- DIV.n64 (R200). -/
  | divN64 (ahead : Nat) (d : Nat) (a : Nat) (b : Nat)
  /-- REM.i64 (R200). -/
  | remI64 (ahead : Nat) (d : Nat) (a : Nat) (b : Nat)
  /-- REM.n64 (R200). -/
  | remN64 (ahead : Nat) (d : Nat) (a : Nat) (b : Nat)
  /-- FADD.f32 (R202). -/
  | faddF32 (d : Nat) (a : Nat) (b : Nat)
  /-- FSUB.f32 (R202). -/
  | fsubF32 (d : Nat) (a : Nat) (b : Nat)
  /-- FMUL.f32 (R202). -/
  | fmulF32 (d : Nat) (a : Nat) (b : Nat)
  /-- FMA.f32 (R202). -/
  | fmaF32 (d : Nat) (a : Nat) (b : Nat)
  /-- FMIN.f32 (R202). -/
  | fminF32 (d : Nat) (a : Nat) (b : Nat)
  /-- FMAX.f32 (R202). -/
  | fmaxF32 (d : Nat) (a : Nat) (b : Nat)
  /-- FABS.f32 (R202). -/
  | fabsF32 (d : Nat) (a : Nat)
  /-- FNEG.f32 (R202). -/
  | fnegF32 (d : Nat) (a : Nat)
  /-- FCVT.f32.i64 (R202). -/
  | fcvtF32I64 (d : Nat) (a : Nat)
  /-- FCVT.f32.n64 (R202). -/
  | fcvtF32N64 (d : Nat) (a : Nat)
  /-- FCVT.i64.f32 (R202). -/
  | fcvtI64F32 (d : Nat) (a : Nat)
  /-- FCVT.n64.f32 (R202). -/
  | fcvtN64F32 (d : Nat) (a : Nat)
  /-- FCVTZ.i64.f32 (R202). -/
  | fcvtzI64F32 (d : Nat) (a : Nat)
  /-- FCVTZ.n64.f32 (R202). -/
  | fcvtzN64F32 (d : Nat) (a : Nat)
  /-- FCVT.b16.f32 (R202). -/
  | fcvtB16F32 (d : Nat) (a : Nat)
  /-- FCVT.f32.b16 (R202). -/
  | fcvtF32B16 (d : Nat) (a : Nat)
  /-- FCVT.h16.f32 (R202). -/
  | fcvtH16F32 (d : Nat) (a : Nat)
  /-- FCVT.f32.h16 (R202). -/
  | fcvtF32H16 (d : Nat) (a : Nat)
  /-- FDIV.f32 (R203). -/
  | fdivF32 (ahead : Nat) (d : Nat) (a : Nat) (b : Nat)
  /-- FSQRT.f32 (R203). -/
  | fsqrtF32 (ahead : Nat) (d : Nat) (a : Nat)
  /-- CMP.eq (R204). -/
  | cmpEq (g : Nat) (a : Nat) (b : Nat)
  /-- CMP.ne (R204). -/
  | cmpNe (g : Nat) (a : Nat) (b : Nat)
  /-- CMP.lt.i64 (R204). -/
  | cmpLtI64 (g : Nat) (a : Nat) (b : Nat)
  /-- CMP.lt.n64 (R204). -/
  | cmpLtN64 (g : Nat) (a : Nat) (b : Nat)
  /-- CMP.ge.i64 (R204). -/
  | cmpGeI64 (g : Nat) (a : Nat) (b : Nat)
  /-- CMP.ge.n64 (R204). -/
  | cmpGeN64 (g : Nat) (a : Nat) (b : Nat)
  /-- CMP.tst (R204). -/
  | cmpTst (g : Nat) (a : Nat) (b : Nat)
  /-- CMP.ntst (R204). -/
  | cmpNtst (g : Nat) (a : Nat) (b : Nat)
  /-- GAND (R207). -/
  | gand (d : Nat) (a : Nat) (b : Nat)
  /-- GOR (R207). -/
  | gor (d : Nat) (a : Nat) (b : Nat)
  /-- GXOR (R207). -/
  | gxor (d : Nat) (a : Nat) (b : Nat)
  /-- GANDN (R207). -/
  | gandn (d : Nat) (a : Nat) (b : Nat)
  /-- GNOT (R207). -/
  | gnot (d : Nat) (a : Nat)
  /-- GSET (R207). -/
  | gset (d : Nat) (v : Nat)
  /-- FCMPG.eq.f32 (R206). -/
  | fcmpgEqF32 (g : Nat) (a : Nat) (b : Nat)
  /-- FCMPG.ne.f32 (R206). -/
  | fcmpgNeF32 (g : Nat) (a : Nat) (b : Nat)
  /-- FCMPG.lt.f32 (R206). -/
  | fcmpgLtF32 (g : Nat) (a : Nat) (b : Nat)
  /-- FCMPG.le.f32 (R206). -/
  | fcmpgLeF32 (g : Nat) (a : Nat) (b : Nat)
  /-- FCMPG.un.f32 (R206). -/
  | fcmpgUnF32 (g : Nat) (a : Nat) (b : Nat)
  /-- CMPI (R205). -/
  | cmpi (imm : BitVec 8) (cond : Nat) (a : Nat) (g : Nat)
  /-- PREP (R210). -/
  | prep (disp : BitVec 20) (t : Nat)
  /-- PREP (R210). -/
  | prepLit64 (lit : BitVec 64) (t : Nat)
  /-- JMP (R212). -/
  | jmp (t : Nat)
  /-- JMPT (R212). -/
  | jmpt (g : Nat) (t : Nat)
  /-- JMPF (R212). -/
  | jmpf (g : Nat) (t : Nat)
  /-- CALL (R212). -/
  | call (t : Nat)
  /-- RET (R212). -/
  | ret
  /-- PREPR (R211). -/
  | prepr (a : Nat) (t : Nat)
  /-- FENCE (R223). -/
  | fence (scope : Nat) (kind : Nat)
  /-- ISYNC (R226). -/
  | isync
  /-- WAIT (R224). -/
  | wait (code : Nat)
  /-- FLUSH (R225). -/
  | flush (keep : Bool) (a : Nat) (b : Nat)
  /-- LD.i64 (R216). -/
  | ldl64 (imm : BitVec 8) (ahead : Nat) (a : Nat) (d : Nat)
  /-- LD.i32 (R216). -/
  | ldli32 (imm : BitVec 8) (ahead : Nat) (a : Nat) (d : Nat)
  /-- LD.n32 (R216). -/
  | ldln32 (imm : BitVec 8) (ahead : Nat) (a : Nat) (d : Nat)
  /-- ST.i64 (R216). -/
  | stl64 (imm : BitVec 8) (a : Nat) (d : Nat)
  /-- ST.i32 (R216). -/
  | stl32 (imm : BitVec 8) (a : Nat) (d : Nat)
  /-- LD.i64 (R216). -/
  | ldg64 (imm : BitVec 8) (ahead : Nat) (a : Nat) (d : Nat)
  /-- LD.i32 (R216). -/
  | ldgi32 (imm : BitVec 8) (ahead : Nat) (a : Nat) (d : Nat)
  /-- LD.n32 (R216). -/
  | ldgn32 (imm : BitVec 8) (ahead : Nat) (a : Nat) (d : Nat)
  /-- ST.i64 (R216). -/
  | stg64 (imm : BitVec 8) (a : Nat) (d : Nat)
  /-- ST.i32 (R216). -/
  | stg32 (imm : BitVec 8) (a : Nat) (d : Nat)
  /-- LD.i8 (R217). -/
  | memxLdI8 (d : Nat) (a : Nat) (b : Nat) (iscale : Nat) (m : Addr) (x : Ext)
  /-- LD.n8 (R217). -/
  | memxLdN8 (d : Nat) (a : Nat) (b : Nat) (iscale : Nat) (m : Addr) (x : Ext)
  /-- LD.i16 (R217). -/
  | memxLdI16 (d : Nat) (a : Nat) (b : Nat) (iscale : Nat) (m : Addr) (x : Ext)
  /-- LD.n16 (R217). -/
  | memxLdN16 (d : Nat) (a : Nat) (b : Nat) (iscale : Nat) (m : Addr) (x : Ext)
  /-- LD.i32 (R217). -/
  | memxLdI32 (d : Nat) (a : Nat) (b : Nat) (iscale : Nat) (m : Addr) (x : Ext)
  /-- LD.n32 (R217). -/
  | memxLdN32 (d : Nat) (a : Nat) (b : Nat) (iscale : Nat) (m : Addr) (x : Ext)
  /-- LD.i64 (R217). -/
  | memxLdI64 (d : Nat) (a : Nat) (b : Nat) (iscale : Nat) (m : Addr) (x : Ext)
  /-- ST.i8 (R217). -/
  | memxStI8 (a : Nat) (b : Nat) (m : Addr) (x : Ext)
  /-- ST.i16 (R217). -/
  | memxStI16 (a : Nat) (b : Nat) (m : Addr) (x : Ext)
  /-- ST.i32 (R217). -/
  | memxStI32 (a : Nat) (b : Nat) (m : Addr) (x : Ext)
  /-- ST.i64 (R217). -/
  | memxStI64 (a : Nat) (b : Nat) (m : Addr) (x : Ext)
  /-- ASWP (R220). -/
  | aswp (d : Nat) (a : Nat) (b : Nat) (sz : Bool) (m : Addr) (x : Ext)
  /-- ACAS (R220). -/
  | acas (d : Nat) (a : Nat) (b : Nat) (sz : Bool) (c : Nat) (m : Addr) (x : Ext)
  /-- AADD (R220). -/
  | aadd (d : Nat) (a : Nat) (b : Nat) (sz : Bool) (m : Addr) (x : Ext)
  /-- AAND (R220). -/
  | aand (d : Nat) (a : Nat) (b : Nat) (sz : Bool) (m : Addr) (x : Ext)
  /-- AOR (R220). -/
  | aor (d : Nat) (a : Nat) (b : Nat) (sz : Bool) (m : Addr) (x : Ext)
  /-- AXOR (R220). -/
  | axor (d : Nat) (a : Nat) (b : Nat) (sz : Bool) (m : Addr) (x : Ext)
  /-- AMIN.i (R220). -/
  | aminI (d : Nat) (a : Nat) (b : Nat) (sz : Bool) (m : Addr) (x : Ext)
  /-- AMIN.n (R220). -/
  | aminN (d : Nat) (a : Nat) (b : Nat) (sz : Bool) (m : Addr) (x : Ext)
  /-- AMAX.i (R220). -/
  | amaxI (d : Nat) (a : Nat) (b : Nat) (sz : Bool) (m : Addr) (x : Ext)
  /-- AMAX.n (R220). -/
  | amaxN (d : Nat) (a : Nat) (b : Nat) (sz : Bool) (m : Addr) (x : Ext)
  /-- AFADD.f32 (R220). -/
  | afaddF32 (d : Nat) (a : Nat) (b : Nat) (m : Addr) (x : Ext)
  /-- VADD (R237). -/
  | vadd (w : Nat) (d : Nat) (a : Nat) (b : Nat) (p : Pfx)
  /-- VSUB (R237). -/
  | vsub (w : Nat) (d : Nat) (a : Nat) (b : Nat) (p : Pfx)
  /-- VMUL (R237). -/
  | vmul (w : Nat) (d : Nat) (a : Nat) (b : Nat) (p : Pfx)
  /-- VMIN.i (R237). -/
  | vminI (w : Nat) (d : Nat) (a : Nat) (b : Nat) (p : Pfx)
  /-- VMIN.n (R237). -/
  | vminN (w : Nat) (d : Nat) (a : Nat) (b : Nat) (p : Pfx)
  /-- VMAX.i (R237). -/
  | vmaxI (w : Nat) (d : Nat) (a : Nat) (b : Nat) (p : Pfx)
  /-- VMAX.n (R237). -/
  | vmaxN (w : Nat) (d : Nat) (a : Nat) (b : Nat) (p : Pfx)
  /-- VAND (R237). -/
  | vand (w : Nat) (d : Nat) (a : Nat) (b : Nat) (p : Pfx)
  /-- VOR (R237). -/
  | vor (w : Nat) (d : Nat) (a : Nat) (b : Nat) (p : Pfx)
  /-- VXOR (R237). -/
  | vxor (w : Nat) (d : Nat) (a : Nat) (b : Nat) (p : Pfx)
  /-- VSLL (R237). -/
  | vsll (w : Nat) (d : Nat) (a : Nat) (b : Nat) (p : Pfx)
  /-- VSRL (R237). -/
  | vsrl (w : Nat) (d : Nat) (a : Nat) (b : Nat) (p : Pfx)
  /-- VSRA (R237). -/
  | vsra (w : Nat) (d : Nat) (a : Nat) (b : Nat) (p : Pfx)
  /-- VADDS.i (R237). -/
  | vaddsI (w : Nat) (d : Nat) (a : Nat) (b : Nat) (p : Pfx)
  /-- VADDS.n (R237). -/
  | vaddsN (w : Nat) (d : Nat) (a : Nat) (b : Nat) (p : Pfx)
  /-- VSUBS.n (R237). -/
  | vsubsN (w : Nat) (d : Nat) (a : Nat) (b : Nat) (p : Pfx)
  /-- VCMP.eq (R238). -/
  | vcmpEq (w : Nat) (d : Nat) (a : Nat) (b : Nat) (p : Pfx)
  /-- VCMP.ne (R238). -/
  | vcmpNe (w : Nat) (d : Nat) (a : Nat) (b : Nat) (p : Pfx)
  /-- VCMP.lt.i (R238). -/
  | vcmpLtI (w : Nat) (d : Nat) (a : Nat) (b : Nat) (p : Pfx)
  /-- VCMP.lt.n (R238). -/
  | vcmpLtN (w : Nat) (d : Nat) (a : Nat) (b : Nat) (p : Pfx)
  /-- VCMP.ge.i (R238). -/
  | vcmpGeI (w : Nat) (d : Nat) (a : Nat) (b : Nat) (p : Pfx)
  /-- VCMP.ge.n (R238). -/
  | vcmpGeN (w : Nat) (d : Nat) (a : Nat) (b : Nat) (p : Pfx)
  /-- VCMP.feq.f32 (R238). -/
  | vcmpFeq (d : Nat) (a : Nat) (b : Nat) (p : Pfx)
  /-- VCMP.fne.f32 (R238). -/
  | vcmpFne (d : Nat) (a : Nat) (b : Nat) (p : Pfx)
  /-- VCMP.flt.f32 (R238). -/
  | vcmpFlt (d : Nat) (a : Nat) (b : Nat) (p : Pfx)
  /-- VCMP.fle.f32 (R238). -/
  | vcmpFle (d : Nat) (a : Nat) (b : Nat) (p : Pfx)
  /-- VCMP.fun.f32 (R238). -/
  | vcmpFun (d : Nat) (a : Nat) (b : Nat) (p : Pfx)
  /-- VFADD.f32 (R239). -/
  | vfaddF32 (d : Nat) (a : Nat) (b : Nat) (p : Pfx)
  /-- VFSUB.f32 (R239). -/
  | vfsubF32 (d : Nat) (a : Nat) (b : Nat) (p : Pfx)
  /-- VFMUL.f32 (R239). -/
  | vfmulF32 (d : Nat) (a : Nat) (b : Nat) (p : Pfx)
  /-- VFMA.f32 (R239). -/
  | vfmaF32 (d : Nat) (a : Nat) (b : Nat) (p : Pfx)
  /-- VFMIN.f32 (R239). -/
  | vfminF32 (d : Nat) (a : Nat) (b : Nat) (p : Pfx)
  /-- VFMAX.f32 (R239). -/
  | vfmaxF32 (d : Nat) (a : Nat) (b : Nat) (p : Pfx)
  /-- VFABS.f32 (R239). -/
  | vfabsF32 (d : Nat) (a : Nat) (p : Pfx)
  /-- VFNEG.f32 (R239). -/
  | vfnegF32 (d : Nat) (a : Nat) (p : Pfx)
  /-- VCVT.f32.i32 (R239). -/
  | vcvtF32I32 (d : Nat) (a : Nat) (p : Pfx)
  /-- VCVT.i32.f32 (R239). -/
  | vcvtI32F32 (d : Nat) (a : Nat) (p : Pfx)
  /-- VCVT.f32.n32 (R239). -/
  | vcvtF32N32 (d : Nat) (a : Nat) (p : Pfx)
  /-- VCVT.n32.f32 (R239). -/
  | vcvtN32F32 (d : Nat) (a : Nat) (p : Pfx)
  /-- VCVT.b16.f32 (R239). -/
  | vcvtB16F32 (d : Nat) (a : Nat) (p : Pfx)
  /-- VCVT.f32.b16 (R239). -/
  | vcvtF32B16 (d : Nat) (a : Nat) (p : Pfx)
  /-- VMOV (R241). -/
  | vmov (d : Nat) (a : Nat) (p : Pfx)
  /-- VSPLAT (R242). -/
  | vsplat (d : Nat) (a : Nat) (b : Nat) (p : Pfx)
  /-- VRUN (R243). -/
  | vrun (d : Nat) (a : Nat) (b : Nat) (p : Pfx)
  /-- VSEL (R241). -/
  | vsel (d : Nat) (a : Nat) (b : Nat) (p : Pfx)
  /-- VCOAL (R241). -/
  | vcoal (d : Nat) (a : Nat) (p : Pfx)
  /-- VIOTA (R242). -/
  | viota (d : Nat) (a : Nat) (b : Nat) (p : Pfx)
  /-- VCOMP (R244). -/
  | vcomp (d : Nat) (a : Nat) (p : Pfx)
  /-- VEXP (R244). -/
  | vexp (d : Nat) (a : Nat) (p : Pfx)
  /-- VRSUM.i32 (R246). -/
  | vrsumI32 (d : Nat) (a : Nat) (b : Nat) (p : Pfx)
  /-- VRSUM.f32 (R246). -/
  | vrsumF32 (d : Nat) (a : Nat) (b : Nat) (p : Pfx)
  /-- VRMIN.i32 (R246). -/
  | vrminI32 (d : Nat) (a : Nat) (b : Nat) (p : Pfx)
  /-- VRMIN.n32 (R246). -/
  | vrminN32 (d : Nat) (a : Nat) (b : Nat) (p : Pfx)
  /-- VRMIN.f32 (R246). -/
  | vrminF32 (d : Nat) (a : Nat) (b : Nat) (p : Pfx)
  /-- VRMAX.i32 (R246). -/
  | vrmaxI32 (d : Nat) (a : Nat) (b : Nat) (p : Pfx)
  /-- VRMAX.n32 (R246). -/
  | vrmaxN32 (d : Nat) (a : Nat) (b : Nat) (p : Pfx)
  /-- VRMAX.f32 (R246). -/
  | vrmaxF32 (d : Nat) (a : Nat) (b : Nat) (p : Pfx)
  /-- VRAND (R246). -/
  | vrand (d : Nat) (a : Nat) (b : Nat) (p : Pfx)
  /-- VROR (R246). -/
  | vror (d : Nat) (a : Nat) (b : Nat) (p : Pfx)
  /-- VRXOR (R246). -/
  | vrxor (d : Nat) (a : Nat) (b : Nat) (p : Pfx)
  /-- VSSUM.i32 (R247). -/
  | vssumI32 (d : Nat) (a : Nat) (b : Nat) (p : Pfx)
  /-- VSSUM.f32 (R247). -/
  | vssumF32 (d : Nat) (a : Nat) (b : Nat) (p : Pfx)
  /-- VSMIN.i32 (R247). -/
  | vsminI32 (d : Nat) (a : Nat) (b : Nat) (p : Pfx)
  /-- VSMAX.i32 (R247). -/
  | vsmaxI32 (d : Nat) (a : Nat) (b : Nat) (p : Pfx)
  /-- VLEN (R245). -/
  | vlen (d : Nat) (a : Nat) (p : Pfx)
  /-- VNRUN (R245). -/
  | vnrun (d : Nat) (a : Nat) (p : Pfx)
  /-- VSETLEN (R245). -/
  | vsetlen (d : Nat) (a : Nat) (b : Nat) (p : Pfx)
  /-- VTOS (R245). -/
  | vtos (d : Nat) (a : Nat) (b : Nat) (p : Pfx)
  /-- KAND (R248). -/
  | kand (d : Nat) (a : Nat) (b : Nat) (p : Pfx)
  /-- KOR (R248). -/
  | kor (d : Nat) (a : Nat) (b : Nat) (p : Pfx)
  /-- KXOR (R248). -/
  | kxor (d : Nat) (a : Nat) (b : Nat) (p : Pfx)
  /-- KANDN (R248). -/
  | kandn (d : Nat) (a : Nat) (b : Nat) (p : Pfx)
  /-- KNOT (R248). -/
  | knot (d : Nat) (a : Nat) (p : Pfx)
  /-- KMOV (R248). -/
  | kmov (d : Nat) (a : Nat) (p : Pfx)
  /-- KPXOR (R249). -/
  | kpxor (d : Nat) (a : Nat) (b : Nat) (p : Pfx)
  /-- KTOS (R250). -/
  | ktos (d : Nat) (a : Nat) (b : Nat) (p : Pfx)
  /-- STOK (R250). -/
  | stok (d : Nat) (a : Nat) (b : Nat) (p : Pfx)
  /-- KPOPC (R248). -/
  | kpopc (d : Nat) (a : Nat) (p : Pfx)
  /-- KLEN (R248). -/
  | klen (d : Nat) (a : Nat) (p : Pfx)
  /-- VLD (R252). -/
  | vld (d : Nat) (a : Nat) (b : Nat) (w : Nat) (mask : Nat) (zero : Bool) (m : Addr) (x : Ext)
  /-- VST (R252). -/
  | vst (d : Nat) (a : Nat) (w : Nat) (mask : Nat) (m : Addr) (x : Ext)
  /-- VLDR (R253). -/
  | vldr (d : Nat) (a : Nat) (b : Nat) (m : Addr) (x : Ext)
  /-- VSTR (R253). -/
  | vstr (d : Nat) (a : Nat) (m : Addr) (x : Ext)
  /-- VGATH (R254). -/
  | vgath (d : Nat) (a : Nat) (b : Nat) (w : Nat) (mask : Nat) (zero : Bool) (iscale : Nat) (m : Addr) (x : Ext)
  /-- VSCAT (R254). -/
  | vscat (d : Nat) (a : Nat) (b : Nat) (w : Nat) (mask : Nat) (iscale : Nat) (m : Addr) (x : Ext)
  /-- TLD (R264). -/
  | tld (d : Nat) (a : Nat) (b : Nat) (tag : Nat) (pcnt : Nat) (sgn : Bool) (m : Addr) (x : Ext)
  /-- TST (R264). -/
  | tst (d : Nat) (a : Nat) (b : Nat) (m : Addr) (x : Ext)
  /-- TZERO (R266). -/
  | tzero (d : Nat) (tag : Nat) (pcnt : Nat) (sgn : Bool) (x : Ext)
  /-- TMOV (R266). -/
  | tmov (d : Nat) (a : Nat) (x : Ext)
  /-- TREL (R266). -/
  | trel (d : Nat) (x : Ext)
  /-- MMA (R276). -/
  | mma (d : Nat) (a : Nat) (b : Nat) (fa : Nat) (fb : Nat) (z : Bool) (km1 : Nat) (kao : Nat) (kbo : Nat) (x : Ext)
  /-- MMF (R277). -/
  | mmf (d : Nat) (a : Nat) (b : Nat) (fa : Nat) (z : Bool) (km1 : Nat) (kao : Nat) (kbo : Nat) (x : Ext)
  /-- SCAC (R279). -/
  | scac (d : Nat) (a : Nat) (b : Nat) (sfmt : Bool) (q : Nat) (tsb : Nat) (ca : Nat) (cb : Nat) (x : Ext)
  /-- SCAL (R280). -/
  | scal (d : Nat) (a : Nat) (b : Nat) (x : Ext)
  /-- TADD (R268). -/
  | tadd (d : Nat) (a : Nat) (b : Nat) (fmt : Nat) (rnd : Nat) (sat : Bool) (x : Ext)
  /-- TSUB (R268). -/
  | tsub (d : Nat) (a : Nat) (b : Nat) (fmt : Nat) (rnd : Nat) (sat : Bool) (x : Ext)
  /-- TEMUL (R268). -/
  | temul (d : Nat) (a : Nat) (b : Nat) (fmt : Nat) (rnd : Nat) (sat : Bool) (x : Ext)
  /-- TMAX (R268). -/
  | tmax (d : Nat) (a : Nat) (b : Nat) (fmt : Nat) (rnd : Nat) (sat : Bool) (x : Ext)
  /-- TMIN (R268). -/
  | tmin (d : Nat) (a : Nat) (b : Nat) (fmt : Nat) (rnd : Nat) (sat : Bool) (x : Ext)
  /-- TACT (R269). -/
  | tact (d : Nat) (a : Nat) (fmt : Nat) (rnd : Nat) (fn : Nat) (x : Ext)
  /-- TCVT (R270). -/
  | tcvt (d : Nat) (a : Nat) (fmt : Nat) (rnd : Nat) (dfmt : Nat) (sat : Bool) (sel : Nat) (x : Ext)
  /-- TTRN (R271). -/
  | ttrn (d : Nat) (a : Nat) (fmt : Nat) (sel : Nat) (x : Ext)
  /-- TPLANE (R272). -/
  | tplane (d : Nat) (a : Nat) (pf : Nat) (sel : Nat) (x : Ext)
  /-- TRED (R273). -/
  | tred (d : Nat) (a : Nat) (fmt : Nat) (dir : Bool) (op : Nat) (x : Ext)
  /-- TBCAST (R274). -/
  | tbcast (d : Nat) (a : Nat) (fmt : Nat) (kind : Nat) (dir : Bool) (x : Ext)
  /-- CPY (R286). -/
  | cpy (len : CLen) (a : Nat) (b : Nat) (ssp : Nat) (scs : Nat) (dsp : Nat) (dcs : Nat) (tc : Nat) (nv : Bool) (nreg : Nat) (ncore : Nat) (x : Ext)
  /-- CPYW (R286). -/
  | cpyw (len : CLen) (a : Nat) (b : Nat) (ssp : Nat) (scs : Nat) (dsp : Nat) (dcs : Nat) (tc : Nat) (nv : Bool) (nreg : Nat) (ncore : Nat) (wreg : Nat) (wsp : Nat) (wcs : Nat) (x : Ext)
  /-- XFM (R295). -/
  | xfm (a : Nat) (b : Nat) (dlay : Nat) (slay : Nat) (tc : Nat) (xop : Nat) (i1 : Nat) (i2 : Nat) (i1v : Bool) (i2v : Bool) (rnd : Nat) (x : Ext)
  /-- LAYV (R292). -/
  | layv (a : Nat) (slot : Nat) (tc : Nat) (x : Ext)
  /-- COLL (R304). -/
  | coll (d : Nat) (a : Nat) (b : Nat) (op : Nat) (red : Nat) (ty : Nat) (span : Bool) (tc : Nat) (nv : Bool) (nreg : Nat) (ncore : Nat) (root : Nat) (ssp : Nat) (dsp : Nat) (x : Ext)
  /-- TCWAIT (R163). -/
  | tcwait (a : Nat) (tc : Nat)
  /-- TCRD (R306). -/
  | tcrd (d : Nat) (issued : Nat) (tc : Nat)
  /-- MRECV (R308). -/
  | mrecv (d : Nat) (n : Nat)
  /-- HSET (R309). -/
  | hset (clr : Bool) (a : Nat) (n : Nat)
  /-- JOIN (R47). -/
  | join (a : Nat)
  /-- YIELD (R310). -/
  | yield
  /-- EXIT (R311). -/
  | exit
  /-- REIN (R56). -/
  | rein
  /-- REINQ (R312). -/
  | reinq (d : Nat)
  /-- MSEND (R314). -/
  | msend (a : Nat) (b : Nat) (kind : Nat) (slot : Nat) (mreg : Nat) (rargb : Nat) (rpay : Nat) (codew : Nat) (x : Ext)
  /-- FORK (R315). -/
  | fork (a : Nat) (b : Nat) (full : Bool) (rargb : Nat) (rjoin : Nat) (x : Ext)
  /-- START (R315). -/
  | start (a : Nat) (b : Nat) (rargb : Nat) (x : Ext)
  /-- SYSRD (R318). -/
  | sysrd (d : Nat) (a : Nat) (sel : Nat)
  /-- SYSWR (R318). -/
  | syswr (d : Nat) (a : Nat) (sel : Nat)
  /-- TRAP (R319). -/
  | trap (n : Nat)
  /-- ERET (R420). -/
  | eret
  /-- BANKCFG (R320). -/
  | bankcfg (a : Nat) (mode : Nat) (esize : Nat)
  /-- DIRRD (R321). -/
  | dirrd (d : Nat)
  /-- DIRWR (R321). -/
  | dirwr (a : Nat)
  /-- TICK (R322). -/
  | tick (d : Nat)
  /-- MARK (R398). -/
  | mark (a : Nat) (stopk : Nat)
  /-- Step LAUNCH: a host write into the launch window page of channel `ch` (R36, R484). -/
  | launch (ch : Nat) (off : Nat) (bytes : List Byte)
  /-- Step MESSAGE_PORT_WRITE: a host write into the message port of channel `ch` (R371, R484). -/
  | messagePortWrite (ch : Nat) (off : Nat) (bytes : List Byte)
  /-- Step APERTURE_WRITE: a host write at offset `off` of the aperture of channel `ch` (R370). -/
  | apertureWrite (ch : Nat) (off : Nat) (bytes : List Byte)
  /-- Step CXL_MEM_WRITE: a host CXL.mem write of `bytes` at HBM address `pa` (R168, R490). -/
  | cxlMemWrite (pa : Nat) (bytes : List Byte)
  /-- Step HOST_READ: a host read of `n` bytes at device address `pa` (R161, R490). -/
  | hostRead (pa : Nat) (n : Nat)
  /-- Step HOST_SNOOP: a host snoop of the half line of host memory that holds device address `pa` (R366). -/
  | hostSnoop (pa : Nat)
  /-- Step PREEMPT: a PREEMPT request word written to the core control window (R335, R336). -/
  | preempt (w : Word)
  /-- Step RESUME: a RESUME request word written to the core control window (R335, R346). -/
  | resume (w : Word)
  /-- Step PREEMPT_BUDGET_EXPIRY: the budget of a pre-emption ends and unretired work is squashed (R336). -/
  | preemptBudgetExpiry (core : Nat)
  /-- Step PREEMPT_IMAGE_WRITE: the image of a drained core is written (R336, R339). -/
  | preemptImageWrite (core : Nat)
  /-- Step PREEMPT_ABANDON: a pre-emption whose drain or image write fails is abandoned (R473). -/
  | preemptAbandon (core : Nat)
  /-- Step RESUME_LOAD: the waiting resume of a core checks and loads its image (R346, R347). -/
  | resumeLoad (core : Nat)
  /-- Step VCORE_SWITCH: a core switches virtual cores when the condition of R43 holds. -/
  | vcoreSwitch (core : Nat)
  /-- Step ARBITER_GRANT: the launch arbiter of a core grants one start (R327). -/
  | arbiterGrant (core : Nat)
  /-- Step HELPER_PARK: the longest-waiting helper of a core is parked (R48). -/
  | helperPark (core : Nat)
  /-- Step PARKED_HELPER_RETURN: a parked helper whose wait is satisfied returns to a slot (R48). -/
  | parkedHelperReturn (core : Nat)
  /-- Step STEAL_PROBE: a thief sends its next probe (R330). -/
  | stealProbe (core : Nat)
  /-- Step STEAL_PROBE_ARRIVAL: the probe of thief `core` reaches its victim (R330). -/
  | stealProbeArrival (core : Nat)
  /-- Step STEAL_ANSWER: the answer to thief `core` arrives (R330). -/
  | stealAnswer (core : Nat)
  /-- Step STEAL_SWEEP_BACKOFF: the wait after an empty sweep ends (R330). -/
  | stealSweepBackoff (core : Nat)
  /-- Step MESSAGE_ARRIVAL: the oldest message on its way to a core arrives (R50). -/
  | messageArrival (core : Nat)
  /-- Step REGISTER_WRITE_APPLY: a waiting register-write message is applied (R52). -/
  | registerWriteApply (core : Nat)
  /-- Step SPILL_REFILL: the spill engine refills a queue of a core (R333). -/
  | spillRefill (core : Nat)
  /-- Step JOIN_WAKE: a waiting JOIN reads its cell again (R47). -/
  | joinWake (core : Nat) (slot : Nat)
  /-- Step TCWAIT_WAKE: a waiting TCWAIT looks at DONE again (R163). -/
  | tcwaitWake (core : Nat) (slot : Nat)
  /-- Step COMMAND_DISPATCH: the oldest sent command of a core is taken by its engine (R284). -/
  | commandDispatch (core : Nat)
  /-- Step COPY_CHANNEL_TRANSFER: a copy channel moves one 8-byte word (R286). -/
  | copyChannelTransfer (core : Nat) (chan : Nat)
  /-- Step TRANSFORM_RUN: the transform engine performs its command (R293). -/
  | transformRun (core : Nat)
  /-- Step COLLECTIVE_MATCH: a set of matched COLL commands is performed (R302, R442). -/
  | collectiveMatch (core : Nat)
  /-- Step COMMAND_COMPLETE: completed commands of a counter raise DONE (R163, R289). -/
  | commandComplete (core : Nat) (tc : Nat)
  /-- Step BANK_SWITCH_POINT: a bank reaches the switch point of its oldest switch (R116, R451). -/
  | bankSwitchPoint (paddock : Nat) (bank : Nat)
  /-- Step BANK_TILE_COPY: mapped tiles are copied out of a TILE bank (R118). -/
  | bankTileCopy (paddock : Nat) (bank : Nat)
  /-- Step BANK_CLEAR_DONE: the clearing of a bank ends (R117). -/
  | bankClearDone (paddock : Nat) (bank : Nat)
  /-- Step POSTED_STORE_PERFORM: the oldest posted store of a core is performed (R144, R491). -/
  | postedStorePerform (core : Nat)
  /-- Step ATOMIC_PERFORM: the atomic at the head of a context is performed at its bank or home slice (R160). -/
  | atomicPerform (core : Nat) (slot : Nat)
  /-- Step FIFO_WAIT_SERVE: the first access waiting on a FIFO bank is served (R120). -/
  | fifoWaitServe (paddock : Nat) (bank : Nat)
  /-- Step STORE_PROBE_ANSWER: a station answers the probe of a store (R446). -/
  | storeProbeAnswer (die : Nat) (pid : Nat) (va : Nat)
  /-- Step PAGE_WALK: a station walks the tables for a page (R126, R127). -/
  | pageWalk (die : Nat) (pid : Nat) (va : Nat)
  /-- Step XINV_WRITE: matching entries leave every station (R129). -/
  | xinvWrite (w : Word)
  /-- Step L2_LOAD_MISS_FILL: L2 fills a line (R122, R123). -/
  | l2LoadMissFill (die : Nat) (pid : Nat) (va : Nat)
  /-- Step L2_WRITEBACK: L2 writes a dirty line back (R448). -/
  | l2Writeback (die : Nat) (pid : Nat) (va : Nat)
  /-- Step CONTROLLER_LINE_WRITE: a controller writes a whole line (R131). -/
  | controllerLineWrite (pa : Nat) (c : Bool) (bytes : List Byte)
  /-- Step CONTROLLER_PARTIAL_MERGE: a controller merges a partial write (R133, R456). -/
  | controllerPartialMerge (pa : Nat) (c : Bool) (bytes : List Byte)
  /-- Step CONTROLLER_LINE_READ: a controller reads and expands a line (R132). -/
  | controllerLineRead (pa : Nat)
  /-- Step METADATA_MISS: a metadata cache reads a metadata line (R134). -/
  | metadataMiss (ctrl : Nat) (line : Nat)
  /-- Step METADATA_WRITEBACK: a metadata cache writes a metadata line back (R134, R408). -/
  | metadataWriteback (ctrl : Nat) (line : Nat)
  /-- Step ALIAS_READ: the converter reads an MX block as BF16 (R107). -/
  | aliasRead (desc : Nat) (blk : Nat)
  /-- Step ALIAS_WRITE_REPACK: the converter re-packs an MX block (R108). -/
  | aliasWriteRepack (desc : Nat) (blk : Nat) (pos : Nat) (bytes : List Byte)
  /-- Step STAMPED_WRITE_APPLY: a place applies the next stamped write or notice (R158, R159). -/
  | stampedWriteApply (place : Nat)
  /-- Step DIRECTORY_OVERFLOW_REQUEST: the overflow handler of a core starts on its next request (R156). -/
  | directoryOverflowRequest (core : Nat)
  /-- Step DIRECTORY_CONFIG_WRITE: a write of DIRPC or DIRAREA of a core (R157, R463). -/
  | directoryConfigWrite (core : Nat) (area : Bool) (w : Word)
  /-- Step STAMPBASE_WRITE: a write of STAMPBASE of a core (R393). -/
  | stampbaseWrite (core : Nat) (w : Word)
  /-- Step FLTRING_WRITE: a host write of FLTRING (R424). -/
  | fltringWrite (w : Word)
  /-- Step POWERCAP_WRITE: a host write of POWERCAP (R374, R487). -/
  | powercapWrite (w : Word)
  /-- Step TANDEMCFG_WRITE: a host write of TANDEMCFG (R378). -/
  | tandemcfgWrite (w : Word)
  /-- Step HOST_REGISTER_WRITE: a host write of a device register (R368). -/
  | hostRegisterWrite (off : Nat) (w : Word)
  /-- Step MSTART: the loader opens a measurement (R381). -/
  | mstart (w : Word)
  /-- Step MDATA: the loader feeds 64 bytes to the open measurement (R381). -/
  | mdata (bytes : List Byte)
  /-- Step MEND: the loader closes the measurement (R381). -/
  | mend (w : Word)
  /-- Step QNONCE: the host starts a quote (R382). -/
  | qnonce (bytes : List Byte)
  /-- Step QUOTE_COMPLETE: the quote in progress completes (R382). -/
  | quoteComplete
  /-- Step POWER_UP: power-up or reset (R114, R380). -/
  | powerUp
  /-- Step FUNCTION_READY: a function sets its READY bit (R372). -/
  | functionReady (bit : Nat)
  /-- Step FUNCTION_FAILED: a function sets its FAILED bit (R486). -/
  | functionFailed (bit : Nat)
  /-- Step POWER_WINDOW: a window of 1,000 ticks ends with this average power (R375). -/
  | powerWindow (watts : Nat)
  /-- Step THERMAL_SAMPLE: the sensors of dies 0 and 1 read these degrees Celsius (R375, R487). -/
  | thermalSample (temps : DieTemps)
  /-- Step ERROR_EVENT: a unit detects an error (R428, R454). -/
  | errorEvent (e : ErrEvent)
  /-- Step LINK_RETRAIN_DONE: a link has retrained (R480). -/
  | linkRetrainDone (cls : Nat)
  /-- Step LINK_DOWN: a link is declared down: class 7 the host port, class 8 Tandem (R481). -/
  | linkDown (cls : Nat)
  /-- Step TANDEM_BRING_UP: the Tandem link comes up (R379, R384). -/
  | tandemBringUp (peerSize : Nat) (peerTick : Word)
  /-- Step TANDEM_WRITE_FLIT: a WRITE flit of the peer is received (R377). -/
  | tandemWriteFlit (off : Nat) (bytes : List Byte) (stamp : List Nat)
  /-- Step TANDEM_MSG_FLIT: the MSG flits of one message of the peer are received (R357, R377). -/
  | tandemMsgFlit (head : MsgHead) (bytes : List Byte)
  /-- Step TANDEM_COLL_FLIT: a COLL flit of the peer is received (R377). -/
  | tandemCollFlit (f : CollFlit)
  /-- Step TANDEM_CTRL_FLIT: a CTRL flit of the peer is received (R377). -/
  | tandemCtrlFlit (f : CtrlFlit)
  /-- Step STOP: debug command STOP (R387). -/
  | stop (c : DbgCmd)
  /-- Step STOP_TICK_REACHED: the tick of a requested stop ends (R387). -/
  | stopTickReached
  /-- Step DEBUG_RESUME: debug command RESUME (R388). -/
  | debugResume (c : DbgCmd)
  /-- Step STAT: debug command STAT (R386). -/
  | stat (c : DbgCmd)
  /-- Step SCAN: debug command SCAN (R389). -/
  | scan (c : DbgCmd)
  /-- Step RDREG: debug command RDREG (R390). -/
  | rdreg (c : DbgCmd)
  /-- Step WRREG: debug command WRREG (R390, R489). -/
  | wrreg (c : DbgCmd)
  /-- Step RDMEM: debug command RDMEM (R391). -/
  | rdmem (c : DbgCmd)
  /-- Step WRMEM: debug command WRMEM (R391). -/
  | wrmem (c : DbgCmd)
  /-- Step DEBUGGER_WRITE_APPLY: the running-clock debugger write reaches its tick (R169). -/
  | debuggerWriteApply
  /-- Step TICKSET: debug command TICKSET (R386). -/
  | tickset (c : DbgCmd)
  /-- Step SETBP: debug command SETBP (R392). -/
  | setbp (c : DbgCmd)
  /-- Step CLRBP: debug command CLRBP (R392). -/
  | clrbp (c : DbgCmd)
  /-- Step BREAKPOINT_MATCH: a context stands at a breakpoint (R392). -/
  | breakpointMatch (core : Nat) (slot : Nat)
  /-- Step STAMP_RECORD_WRITE: the oldest finished stamp of a core is written (R397). -/
  | stampRecordWrite (core : Nat)
  /-- Step COUNTER_SAMPLE: a core samples its event counters (R399). -/
  | counterSample (core : Nat)
  /-- Step BIRSP: the host answers the back-invalidation of a half line (R367). -/
  | birsp (pa : Nat)
  deriving DecidableEq, Repr

end Sys2Proof
end

