-- ==== Sys2Proof/WellFormed.lean ====
section
/-! DEFINITION. Which instructions are well formed: the limits that R174 to R180 and the descriptions put on every field.
A broken limit is named by the row of R184 that covers it (5 a reserved field or value, 6 a field that R175, R177, R178
or R180 requires to be zero, 7 a reserved register value) and by the lowest bit of the field, counted from bit 0 of the
instruction's first word; the decoder picks the first by R431. -/

namespace Sys2Proof

/-- A broken limit: the row of R184 and the lowest bit of the field. -/
abbrev FieldFault := Nat × Nat

/-- One check: the fault when `bad` holds. -/
def chk (bad : Bool) (row lo : Nat) : List FieldFault := if bad then [(row, lo)] else []

/-- A number field of fewer than `n` values. -/
def ckN (n v lo : Nat) : List FieldFault := chk (decide (n ≤ v)) 5 lo

/-- A scalar source that R79 serves by a latch: s0 to s47 (helper: s15), la or lb (R174). -/
def ckSs (h : Bool) (r lo : Nat) : List FieldFault :=
  chk (!(decide (r < if h then 16 else 48) || r == 0x30 || r == 0x31)) 7 lo

/-- A scalar destination, or a scalar source without a latch (R174). -/
def ckSd (h : Bool) (r lo : Nat) : List FieldFault := chk (decide ((if h then 16 else 48) ≤ r)) 7 lo

/-- A run-vector register (R174). -/
def ckV (h : Bool) (r lo : Nat) : List FieldFault := chk (decide ((if h then 4 else 16) ≤ r)) 7 lo

/-- A mask register (R174). -/
def ckK (h : Bool) (r lo : Nat) : List FieldFault := chk (decide ((if h then 4 else 8) ≤ r)) 7 lo

/-- A tile register (R174). A helper has none; R435 refuses the instruction before this check. -/
def ckT (r lo : Nat) : List FieldFault := chk (decide (16 ≤ r)) 7 lo

/-- A guard slot (R174). -/
def ckG (h : Bool) (r lo : Nat) : List FieldFault := chk (decide ((if h then 8 else 16) ≤ r)) 7 lo

/-- A rounding mode field (R90, R184). -/
def ckRnd (r lo : Nat) : List FieldFault := chk (decide (6 ≤ r)) 5 lo

/-- The number of bits a base word is moved up by a prefix word. -/
def Pfx.shift (p : Pfx) : Nat := if p.present then 32 else 0

/-- Fields of a prefix that hold what the absent prefix means (R177) when no prefix is present. -/
def Pfx.absentOk (p : Pfx) : Bool := p.present || p == Pfx.none

/-- The checks that every prefix shares: FOURTH zero without F4V (R176), MASK in view (R174). -/
def Pfx.faults (h : Bool) (p : Pfx) : List FieldFault :=
  chk (!p.absentOk) 5 0 ++ ckK h p.mask 19 ++ ckN 64 p.fourth 26 ++ chk (!p.f4v && p.fourth != 0) 5 26 ++ ckRnd p.round 23

/-- A prefix on majors 0x1E, 0x1F, 0x21 and 0x22: ROUND and F4V zero (R177). -/
def Pfx.plain (h : Bool) (p : Pfx) : List FieldFault := p.faults h ++ chk (p.round != 0) 6 23 ++ chk p.f4v 6 17

/-- A prefix on major 0x20: any rounding mode of R90; F4V zero. -/
def Pfx.rounding (h : Bool) (p : Pfx) : List FieldFault := p.faults h ++ chk p.f4v 6 17

/-- The prefix of VFMA.f32: FOURTH names a run vector when F4V is 1 (R239). -/
def Pfx.fma (h : Bool) (p : Pfx) : List FieldFault :=
  p.faults h ++ (if p.f4v then ckV h p.fourth 26 else [])

/-- A prefix where the Mask column is k0: MASK and ZERO zero (R235, R438). -/
def Pfx.k0 (h : Bool) (p : Pfx) : List FieldFault := p.plain h ++ chk (p.mask != 0) 5 19 ++ chk p.zero 5 22

/-- A prefix on a masked instruction with a scalar result: COAL zero (R235, R438). -/
def Pfx.red (h : Bool) (p : Pfx) : List FieldFault := p.plain h ++ chk p.coal 5 18

/-- A prefix on an unmasked instruction with a scalar result (R235). -/
def Pfx.scalar (h : Bool) (p : Pfx) : List FieldFault := p.k0 h ++ chk p.coal 5 18

/-- The guard fields of word 2: GSLOT and GINV zero when G is 0, GSLOT in view (R178, R174). -/
def Ext.guardFaults (h : Bool) (x : Ext) : List FieldFault :=
  chk (!x.g && x.gslot != 0) 5 48 ++ chk (!x.g && x.ginv) 5 47 ++ ckN 16 x.gslot 48 ++ chk (x.g && h && decide (8 ≤ x.gslot)) 7 48

/-- Word 2 of a form that uses none of SCOPE, ORD, WAIT and AHEAD (R178, R180). -/
def Ext.bare (h : Bool) (x : Ext) : List FieldFault :=
  x.guardFaults h ++ chk (x.ahead != 0) 6 60 ++ ckN 5 x.scope 57 ++ chk (x.scope != 0) 6 57 ++ chk (x.ord != 0) 6 55 ++
    chk (x.wait != 0) 6 53

/-- Word 2 of an access: the codes that fit their fields, SCOPE a scope of R139 and zero when ORD is plain (R178). -/
def Ext.access (h : Bool) (x : Ext) : List FieldFault :=
  x.guardFaults h ++ ckN 16 x.ahead 60 ++ ckN 5 x.scope 57 ++ chk (x.ord == 0 && x.scope != 0) 6 57 ++ ckN 4 x.ord 55 ++
    ckN 4 x.wait 53

/-- A load: ORD plain or acquire (R141). -/
def Ext.load (h : Bool) (x : Ext) : List FieldFault := x.access h ++ chk (x.ord != 0 && x.ord != 1) 5 55

/-- A store: ORD plain or release (R141), no lookahead (R180). -/
def Ext.store (h : Bool) (x : Ext) : List FieldFault :=
  x.access h ++ chk (x.ord != 0 && x.ord != 2) 5 55 ++ chk (x.ahead != 0) 6 60

/-- An atomic: every ORD (R141). -/
def Ext.atom (h : Bool) (x : Ext) : List FieldFault := x.access h

/-- TLD: as a load, without lookahead (R180). -/
def Ext.tload (h : Bool) (x : Ext) : List FieldFault := x.load h ++ chk (x.ahead != 0) 6 60

/-- TST: as a store. -/
def Ext.tstore (h : Bool) (x : Ext) : List FieldFault := x.store h

/-- The tile instructions without memory. -/
def Ext.tile (h : Bool) (x : Ext) : List FieldFault := x.bare h

/-- TREL: G zero as well (R260). -/
def Ext.noguard (h : Bool) (x : Ext) : List FieldFault := x.bare h ++ chk x.g 5 52

/-- The commands and messages of majors 0x29 to 0x2B and 0x2E (R283, R313). -/
def Ext.cmd (h : Bool) (x : Ext) : List FieldFault := x.bare h

/-- A SPACE and core-select pair: SPACE 0b11 reserved, CSEL 0b00 or 0b01, and 0b00 unless SPACE is PADDOCK (R179, R184). -/
def ckSpace (space csel slo clo : Nat) : List FieldFault :=
  chk (decide (3 ≤ space)) 5 slo ++ chk (decide (2 ≤ csel) || (csel != 0 && space != 1)) 5 clo

/-- Whether an offset is a trailing literal; an atomic has none (R181). -/
def Off.isLit : Off → Bool
  | .disp _ => false
  | .lit _ => true

/-- The memory fields of R179. -/
def Addr.faults (m : Addr) : List FieldFault := ckSpace m.space m.csel 45 43

/-- The length operand of R285: a scalar register without a latch. -/
def CLen.faults (h : Bool) : CLen → List FieldFault
  | .reg r => ckSd h r 20
  | .lit _ => []

/-- Width in bits of a tile element format, by FMT (R261). -/
def fmtWidth (f : Nat) : Nat :=
  if f ≤ 1 then 8 else if f ≤ 3 then 16 else if f ≤ 5 then 32 else if f ≤ 7 then 16 else if f = 8 then 32
  else if f ≤ 10 then 8 else if f ≤ 12 then 6 else 4

/-- Elements in a row of elements of width `w`: 2048 div w, six-bit formats holding 256 (R256, R261). -/
def rowCap (w : Nat) : Nat := if w = 6 then 256 else 2048 / w

/-- Whether FMT names an integer format (R261). -/
def fmtIsInt (f : Nat) : Bool := decide (f ≤ 5) || decide (14 ≤ f)

/-- Width of a plane-mode format code (R261). -/
def planeWidth (f : Nat) : Nat :=
  if f = 0 then 1 else if f = 1 then 2 else if f ≤ 4 then 4 else if f = 5 then 6 else if f ≤ 7 then 8 else 6

/-- P of R257 for a plane-mode format code. -/
def planeP (f : Nat) : Nat :=
  if f = 0 then 1 else if f = 1 then 2 else if f ≤ 4 then 4 else if f = 5 then 6 else if f ≤ 7 then 8 else 9

/-- Whether a plane-mode format has a sign plane (R257). -/
def planeSgn (f : Nat) : Bool := f == 4 || f == 5 || f == 8

/-- The slot width S of R257 for `n` slots: 2048 over the least power of two not below `n`. -/
def slotWidth (n : Nat) : Nat :=
  if n ≤ 1 then 2048 else if n ≤ 2 then 1024 else if n ≤ 4 then 512 else if n ≤ 8 then 256 else 128

/-- KCAP of a plane-mode format (R257). -/
def planeKcap (f : Nat) : Nat := slotWidth (planeP f + if planeSgn f then 1 else 0)

/-- Row capacity of a float-mode format code: 256 for FP8, 128 for BF16 and FP16, 64 for FP32 (R277). -/
def floatCap (f : Nat) : Nat := if f ≤ 1 then 256 else if f ≤ 3 then 128 else 64

/-- The tag field of TLD and TZERO (R258, R263, R439). -/
def ckTag (tag pcnt : Nat) (sgn : Bool) : List FieldFault :=
  (if tag = 1 then chk (pcnt == 0 || decide (10 ≤ pcnt)) 5 37 else chk (pcnt != 0) 5 37 ++ chk sgn 5 36) ++
    ckN 4 tag 41 ++ ckN 16 pcnt 37

/-- MMA's formats and offsets (R276, R439). -/
def ckMma (fa fb km1 kao kbo : Nat) : List FieldFault :=
  chk (decide (9 ≤ fa)) 5 43 ++ chk (decide (9 ≤ fb)) 5 39 ++
    chk (decide (fa ≤ 8) && decide (planeKcap fa < kao * 8 + (km1 + 1))) 5 77 ++
    chk (decide (fb ≤ 8) && decide (rowCap (planeWidth fb) < kbo * 8 + (km1 + 1))) 5 69

/-- MMF's format and offsets (R277, R439). -/
def ckMmf (fa km1 kao kbo : Nat) : List FieldFault :=
  chk (decide (5 ≤ fa)) 5 43 ++ chk (decide (fa ≤ 4) && decide (floatCap fa < kao * 8 + (km1 + 1))) 5 77 ++
    chk (decide (fa ≤ 4) && decide (floatCap fa < kbo * 8 + (km1 + 1))) 5 69

/-- The arithmetic minors of TVEC (R268, R439). -/
def ckTarith (fmt rnd : Nat) (sat : Bool) : List FieldFault :=
  chk (decide (9 ≤ fmt)) 5 43 ++ chk (sat && !fmtIsInt fmt) 5 32 ++ chk (rnd != 0 && fmtIsInt fmt) 5 40

/-- TACT (R269, R439). An integer FMT with another function than relu is a format outside R269, and an integer relu
uses no rounding (R267). -/
def ckTact (fmt rnd fn : Nat) : List FieldFault :=
  chk (decide (8 ≤ fn)) 5 32 ++
    chk (!(fmt == 6 || fmt == 7 || fmt == 8) && !((fmt == 0 || fmt == 2 || fmt == 4) && fn == 0)) 5 43 ++
    chk (rnd != 0 && fmtIsInt fmt) 5 40

/-- TCVT (R270, R439). -/
def ckTcvt (fmt rnd dfmt sel : Nat) : List FieldFault :=
  let cs := rowCap (fmtWidth fmt)
  let cd := rowCap (fmtWidth dfmt)
  chk (decide (max cs cd / min cs cd ≤ sel)) 5 32 ++ chk (rnd != 0 && fmtIsInt dfmt) 5 40

/-- TTRN (R271, R439). -/
def ckTtrn (fmt sel : Nat) : List FieldFault := chk (decide (rowCap (fmtWidth fmt) / 64 ≤ sel)) 5 32

/-- TPLANE (R272, R439). -/
def ckTplane (pf sel : Nat) : List FieldFault :=
  chk (decide (9 ≤ pf)) 5 36 ++ chk (decide (pf ≤ 8) && decide (rowCap (planeWidth pf) / planeKcap pf ≤ sel)) 5 32

/-- TRED (R273, R439). -/
def ckTred (fmt op : Nat) : List FieldFault :=
  chk (op == 3) 5 32 ++ chk (!(fmt == 4 || fmt == 5 || fmt == 8)) 5 43

/-- TBCAST (R274, R439): kind 01 is reserved, part and acc require a width of 32. -/
def ckTbcast (fmt kind : Nat) : List FieldFault :=
  chk (kind == 1 || (decide (2 ≤ kind) && fmtWidth fmt != 32)) 5 33

/-- The operand spaces and the notification fields of CPY (R285). -/
def ckCpy (ssp scs dsp dcs : Nat) (nv : Bool) (nreg ncore : Nat) : List FieldFault :=
  ckSpace ssp scs 45 43 ++ ckSpace dsp dcs 41 39 ++ chk (!nv && nreg != 0) 5 91 ++ chk (!nv && ncore != 0) 5 83

/-- One intermediate format of XFM.narrow (R296, R440). -/
def ckVia (f : Nat) (v : Bool) (lo : Nat) : List FieldFault :=
  chk ((v && !(decide (6 ≤ f) && decide (f ≤ 13))) || (!v && f != 0)) 5 lo

/-- XFM (R294, R296, R440). -/
def ckXfm (xop i1 i2 : Nat) (i1v i2v : Bool) (rnd : Nat) : List FieldFault :=
  chk (decide (7 ≤ xop)) 5 32 ++
    (if xop = 5 then ckVia i1 i1v 92 ++ ckVia i2 i2v 88 ++ chk (i2v && !i1v) 5 86
     else chk (i1 != 0) 5 92 ++ chk (i2 != 0) 5 88 ++ chk i1v 5 87 ++ chk i2v 5 86 ++ chk (rnd != 0) 5 83)

/-- COLL (R301, R440). -/
def ckColl (op red ty : Nat) (nv : Bool) (nreg ncore root ssp dsp : Nat) : List FieldFault :=
  chk (red == 3 || (red != 0 && decide (2 ≤ op))) 5 43 ++ chk (ty == 3) 5 41 ++ chk (root != 0 && op != 3) 5 74 ++
    chk (ssp == 1 || decide (3 ≤ ssp)) 5 72 ++ chk (dsp == 1 || decide (3 ≤ dsp)) 5 70 ++
    chk (!nv && nreg != 0) 5 91 ++ chk (!nv && ncore != 0) 5 83

/-- HSET.clr names no PC register (R307, R440). -/
def ckHset (clr : Bool) (a : Nat) : List FieldFault := chk (clr && a != 0) 5 14

/-- MSEND (R313, R314, R440). A CODEW without a payload register names RPAY (log 26). -/
def ckMsend (kind slot mreg rpay codew : Nat) : List FieldFault :=
  chk (decide (3 ≤ kind)) 5 45 ++
    chk (if kind = 2 then codew == 0 || decide (49 ≤ codew) else codew != 0) 5 78 ++
    chk (slot != 0 && kind != 1) 5 39 ++ chk (mreg != 0 && kind != 0) 5 35 ++ chk (codew != 0 && rpay == 0) 5 84

/-- The selectors of R323. -/
def selKnown (sel : Nat) : Bool :=
  decide (sel ≤ 8) || (decide (0x10 ≤ sel) && decide (sel ≤ 0x12)) || (decide (0x18 ≤ sel) && decide (sel ≤ 0x1D)) ||
    (decide (0x20 ≤ sel) && decide (sel ≤ 0x22))

/-- Whether a selector is an array read with an index (R323). -/
def selArray (sel : Nat) : Bool := sel == 8 || sel == 0x1B

/-- SYSRD (R318, R440): reserved selector, index register of a register that is no array. They come before the privilege check, in the
order of R431 (log 45). -/
def ckSysrd (a sel : Nat) : List FieldFault :=
  chk (!selKnown sel) 5 8 ++ chk (selKnown sel && !selArray sel && a != 0) 5 14

/-- SYSWR (R318, R440), before the privilege check too (R323, R431; log 45). -/
def ckSyswr (d sel : Nat) : List FieldFault :=
  chk (!selKnown sel) 5 8 ++ chk (selKnown sel && !selArray sel && d != 0) 5 20

/-- BANKCFG (R320, R440). -/
def ckBankcfg (mode esize : Nat) : List FieldFault :=
  chk (decide (5 ≤ mode)) 5 8 ++ chk (esize != 0 && mode != 3) 5 11

/-- Every limit that an instruction's fields break, in a control context (`h` false) or a helper (`h` true). -/
def Instr.faults (h : Bool) : Instr → List FieldFault
  | .add d a b => ckSd h d 20 ++ ckSs h a 14 ++ ckSs h b 8
  | .sub d a b => ckSd h d 20 ++ ckSs h a 14 ++ ckSs h b 8
  | .and d a b => ckSd h d 20 ++ ckSs h a 14 ++ ckSs h b 8
  | .or d a b => ckSd h d 20 ++ ckSs h a 14 ++ ckSs h b 8
  | .xor d a b => ckSd h d 20 ++ ckSs h a 14 ++ ckSs h b 8
  | .andn d a b => ckSd h d 20 ++ ckSs h a 14 ++ ckSs h b 8
  | .sll d a b => ckSd h d 20 ++ ckSs h a 14 ++ ckSs h b 8
  | .srl d a b => ckSd h d 20 ++ ckSs h a 14 ++ ckSs h b 8
  | .sra d a b => ckSd h d 20 ++ ckSs h a 14 ++ ckSs h b 8
  | .ror d a b => ckSd h d 20 ++ ckSs h a 14 ++ ckSs h b 8
  | .mul d a b => ckSd h d 20 ++ ckSs h a 14 ++ ckSs h b 8
  | .mulhI64 d a b => ckSd h d 20 ++ ckSs h a 14 ++ ckSs h b 8
  | .mulhN64 d a b => ckSd h d 20 ++ ckSs h a 14 ++ ckSs h b 8
  | .minI64 d a b => ckSd h d 20 ++ ckSs h a 14 ++ ckSs h b 8
  | .minN64 d a b => ckSd h d 20 ++ ckSs h a 14 ++ ckSs h b 8
  | .maxI64 d a b => ckSd h d 20 ++ ckSs h a 14 ++ ckSs h b 8
  | .maxN64 d a b => ckSd h d 20 ++ ckSs h a 14 ++ ckSs h b 8
  | .clmulN64 d a b => ckSd h d 20 ++ ckSs h a 14 ++ ckSs h b 8
  | .clmulhN64 d a b => ckSd h d 20 ++ ckSs h a 14 ++ ckSs h b 8
  | .popcN64 d a => ckSd h d 20 ++ ckSs h a 14
  | .clzN64 d a => ckSd h d 20 ++ ckSs h a 14
  | .ctzN64 d a => ckSd h d 20 ++ ckSs h a 14
  | .bswapN64 d a => ckSd h d 20 ++ ckSs h a 14
  | .extI64 d a b => ckSd h d 20 ++ ckSs h a 14 ++ ckSs h b 8
  | .extN64 d a b => ckSd h d 20 ++ ckSs h a 14 ++ ckSs h b 8
  | .insN64 d a b => ckSd h d 20 ++ ckSs h a 14 ++ ckSs h b 8
  | .sxtI8 d a => ckSd h d 20 ++ ckSs h a 14
  | .sxtI16 d a => ckSd h d 20 ++ ckSs h a 14
  | .sxtI32 d a => ckSd h d 20 ++ ckSs h a 14
  | .zxtN8 d a => ckSd h d 20 ++ ckSs h a 14
  | .zxtN16 d a => ckSd h d 20 ++ ckSs h a 14
  | .zxtN32 d a => ckSd h d 20 ++ ckSs h a 14
  | .addi _ a d => ckSs h a 14 ++ ckSd h d 8
  | .addiLit32 _ a d => ckSs h a 14 ++ ckSd h d 8
  | .addiLit64 _ a d => ckSs h a 14 ++ ckSd h d 8
  | .andi _ a d => ckSs h a 14 ++ ckSd h d 8
  | .andiLit32 _ a d => ckSs h a 14 ++ ckSd h d 8
  | .andiLit64 _ a d => ckSs h a 14 ++ ckSd h d 8
  | .ori _ a d => ckSs h a 14 ++ ckSd h d 8
  | .oriLit32 _ a d => ckSs h a 14 ++ ckSd h d 8
  | .oriLit64 _ a d => ckSs h a 14 ++ ckSd h d 8
  | .xori _ a d => ckSs h a 14 ++ ckSd h d 8
  | .xoriLit32 _ a d => ckSs h a 14 ++ ckSd h d 8
  | .xoriLit64 _ a d => ckSs h a 14 ++ ckSd h d 8
  | .slli n a d => ckN 64 n 20 ++ ckSs h a 14 ++ ckSd h d 8
  | .srli n a d => ckN 64 n 20 ++ ckSs h a 14 ++ ckSd h d 8
  | .srai n a d => ckN 64 n 20 ++ ckSs h a 14 ++ ckSd h d 8
  | .rori n a d => ckN 64 n 20 ++ ckSs h a 14 ++ ckSd h d 8
  | .lui _ d => ckN 16 d 8
  | .auipc _ d => ckN 16 d 8
  | .divI64 ahead d a b => ckN 16 ahead 28 ++ ckSd h d 20 ++ ckSs h a 14 ++ ckSs h b 8
  | .divN64 ahead d a b => ckN 16 ahead 28 ++ ckSd h d 20 ++ ckSs h a 14 ++ ckSs h b 8
  | .remI64 ahead d a b => ckN 16 ahead 28 ++ ckSd h d 20 ++ ckSs h a 14 ++ ckSs h b 8
  | .remN64 ahead d a b => ckN 16 ahead 28 ++ ckSd h d 20 ++ ckSs h a 14 ++ ckSs h b 8
  | .faddF32 d a b => ckSd h d 20 ++ ckSs h a 14 ++ ckSs h b 8
  | .fsubF32 d a b => ckSd h d 20 ++ ckSs h a 14 ++ ckSs h b 8
  | .fmulF32 d a b => ckSd h d 20 ++ ckSs h a 14 ++ ckSs h b 8
  | .fmaF32 d a b => ckSd h d 20 ++ ckSs h a 14 ++ ckSs h b 8
  | .fminF32 d a b => ckSd h d 20 ++ ckSs h a 14 ++ ckSs h b 8
  | .fmaxF32 d a b => ckSd h d 20 ++ ckSs h a 14 ++ ckSs h b 8
  | .fabsF32 d a => ckSd h d 20 ++ ckSs h a 14
  | .fnegF32 d a => ckSd h d 20 ++ ckSs h a 14
  | .fcvtF32I64 d a => ckSd h d 20 ++ ckSs h a 14
  | .fcvtF32N64 d a => ckSd h d 20 ++ ckSs h a 14
  | .fcvtI64F32 d a => ckSd h d 20 ++ ckSs h a 14
  | .fcvtN64F32 d a => ckSd h d 20 ++ ckSs h a 14
  | .fcvtzI64F32 d a => ckSd h d 20 ++ ckSs h a 14
  | .fcvtzN64F32 d a => ckSd h d 20 ++ ckSs h a 14
  | .fcvtB16F32 d a => ckSd h d 20 ++ ckSs h a 14
  | .fcvtF32B16 d a => ckSd h d 20 ++ ckSs h a 14
  | .fcvtH16F32 d a => ckSd h d 20 ++ ckSs h a 14
  | .fcvtF32H16 d a => ckSd h d 20 ++ ckSs h a 14
  | .fdivF32 ahead d a b => ckN 16 ahead 28 ++ ckSd h d 20 ++ ckSs h a 14 ++ ckSs h b 8
  | .fsqrtF32 ahead d a => ckN 16 ahead 28 ++ ckSd h d 20 ++ ckSs h a 14
  | .cmpEq g a b => ckG h g 20 ++ ckSs h a 14 ++ ckSs h b 8
  | .cmpNe g a b => ckG h g 20 ++ ckSs h a 14 ++ ckSs h b 8
  | .cmpLtI64 g a b => ckG h g 20 ++ ckSs h a 14 ++ ckSs h b 8
  | .cmpLtN64 g a b => ckG h g 20 ++ ckSs h a 14 ++ ckSs h b 8
  | .cmpGeI64 g a b => ckG h g 20 ++ ckSs h a 14 ++ ckSs h b 8
  | .cmpGeN64 g a b => ckG h g 20 ++ ckSs h a 14 ++ ckSs h b 8
  | .cmpTst g a b => ckG h g 20 ++ ckSs h a 14 ++ ckSs h b 8
  | .cmpNtst g a b => ckG h g 20 ++ ckSs h a 14 ++ ckSs h b 8
  | .gand d a b => ckG h d 20 ++ ckG h a 14 ++ ckG h b 8
  | .gor d a b => ckG h d 20 ++ ckG h a 14 ++ ckG h b 8
  | .gxor d a b => ckG h d 20 ++ ckG h a 14 ++ ckG h b 8
  | .gandn d a b => ckG h d 20 ++ ckG h a 14 ++ ckG h b 8
  | .gnot d a => ckG h d 20 ++ ckG h a 14
  | .gset d v => ckG h d 20 ++ ckN 2 v 8
  | .fcmpgEqF32 g a b => ckG h g 20 ++ ckSs h a 14 ++ ckSs h b 8
  | .fcmpgNeF32 g a b => ckG h g 20 ++ ckSs h a 14 ++ ckSs h b 8
  | .fcmpgLtF32 g a b => ckG h g 20 ++ ckSs h a 14 ++ ckSs h b 8
  | .fcmpgLeF32 g a b => ckG h g 20 ++ ckSs h a 14 ++ ckSs h b 8
  | .fcmpgUnF32 g a b => ckG h g 20 ++ ckSs h a 14 ++ ckSs h b 8
  | .cmpi _ cond a g => ckN 8 cond 20 ++ ckSs h a 14 ++ ckG h g 8
  | .prep _ t => ckN 8 t 9
  | .prepLit64 _ t => ckN 8 t 9
  | .jmp t => ckN 8 t 11
  | .jmpt g t => ckG h g 22 ++ ckN 8 t 11
  | .jmpf g t => ckG h g 22 ++ ckN 8 t 11
  | .call t => ckN 8 t 11
  | .ret => []
  | .prepr a t => ckSs h a 14 ++ ckN 8 t 11
  | .fence scope kind => ckN 5 scope 21 ++ chk (kind == 0 || decide (4 ≤ kind)) 5 24
  | .isync => []
  | .wait code => chk (code == 0 || decide (4 ≤ code)) 5 24
  | .flush _ a b => ckSs h a 14 ++ ckSs h b 8
  | .ldl64 _ ahead a d => ckN 16 ahead 20 ++ ckSs h a 14 ++ ckSd h d 8
  | .ldli32 _ ahead a d => ckN 16 ahead 20 ++ ckSs h a 14 ++ ckSd h d 8
  | .ldln32 _ ahead a d => ckN 16 ahead 20 ++ ckSs h a 14 ++ ckSd h d 8
  | .stl64 _ a d => ckSs h a 14 ++ ckSs h d 8
  | .stl32 _ a d => ckSs h a 14 ++ ckSs h d 8
  | .ldg64 _ ahead a d => ckN 16 ahead 20 ++ ckSs h a 14 ++ ckSd h d 8
  | .ldgi32 _ ahead a d => ckN 16 ahead 20 ++ ckSs h a 14 ++ ckSd h d 8
  | .ldgn32 _ ahead a d => ckN 16 ahead 20 ++ ckSs h a 14 ++ ckSd h d 8
  | .stg64 _ a d => ckSs h a 14 ++ ckSs h d 8
  | .stg32 _ a d => ckSs h a 14 ++ ckSs h d 8
  | .memxLdI8 d a b iscale m x => ckSd h d 20 ++ ckSs h a 14 ++ ckSs h b 8 ++ ckN 4 iscale 41 ++ m.faults ++ x.load h
  | .memxLdN8 d a b iscale m x => ckSd h d 20 ++ ckSs h a 14 ++ ckSs h b 8 ++ ckN 4 iscale 41 ++ m.faults ++ x.load h
  | .memxLdI16 d a b iscale m x => ckSd h d 20 ++ ckSs h a 14 ++ ckSs h b 8 ++ ckN 4 iscale 41 ++ m.faults ++ x.load h
  | .memxLdN16 d a b iscale m x => ckSd h d 20 ++ ckSs h a 14 ++ ckSs h b 8 ++ ckN 4 iscale 41 ++ m.faults ++ x.load h
  | .memxLdI32 d a b iscale m x => ckSd h d 20 ++ ckSs h a 14 ++ ckSs h b 8 ++ ckN 4 iscale 41 ++ m.faults ++ x.load h
  | .memxLdN32 d a b iscale m x => ckSd h d 20 ++ ckSs h a 14 ++ ckSs h b 8 ++ ckN 4 iscale 41 ++ m.faults ++ x.load h
  | .memxLdI64 d a b iscale m x => ckSd h d 20 ++ ckSs h a 14 ++ ckSs h b 8 ++ ckN 4 iscale 41 ++ m.faults ++ x.load h
  | .memxStI8 a b m x => ckSs h a 14 ++ ckSs h b 8 ++ m.faults ++ x.store h
  | .memxStI16 a b m x => ckSs h a 14 ++ ckSs h b 8 ++ m.faults ++ x.store h
  | .memxStI32 a b m x => ckSs h a 14 ++ ckSs h b 8 ++ m.faults ++ x.store h
  | .memxStI64 a b m x => ckSs h a 14 ++ ckSs h b 8 ++ m.faults ++ x.store h
  | .aswp d a b _ m x => ckSd h d 20 ++ ckSs h a 14 ++ ckSs h b 8 ++ m.faults ++ chk m.off.isLit 5 0 ++ x.atom h
  | .acas d a b _ c m x => ckSd h d 20 ++ ckSs h a 14 ++ ckSs h b 8 ++ ckSd h c 34 ++ m.faults ++ chk m.off.isLit 5 0 ++ x.atom h
  | .aadd d a b _ m x => ckSd h d 20 ++ ckSs h a 14 ++ ckSs h b 8 ++ m.faults ++ chk m.off.isLit 5 0 ++ x.atom h
  | .aand d a b _ m x => ckSd h d 20 ++ ckSs h a 14 ++ ckSs h b 8 ++ m.faults ++ chk m.off.isLit 5 0 ++ x.atom h
  | .aor d a b _ m x => ckSd h d 20 ++ ckSs h a 14 ++ ckSs h b 8 ++ m.faults ++ chk m.off.isLit 5 0 ++ x.atom h
  | .axor d a b _ m x => ckSd h d 20 ++ ckSs h a 14 ++ ckSs h b 8 ++ m.faults ++ chk m.off.isLit 5 0 ++ x.atom h
  | .aminI d a b _ m x => ckSd h d 20 ++ ckSs h a 14 ++ ckSs h b 8 ++ m.faults ++ chk m.off.isLit 5 0 ++ x.atom h
  | .aminN d a b _ m x => ckSd h d 20 ++ ckSs h a 14 ++ ckSs h b 8 ++ m.faults ++ chk m.off.isLit 5 0 ++ x.atom h
  | .amaxI d a b _ m x => ckSd h d 20 ++ ckSs h a 14 ++ ckSs h b 8 ++ m.faults ++ chk m.off.isLit 5 0 ++ x.atom h
  | .amaxN d a b _ m x => ckSd h d 20 ++ ckSs h a 14 ++ ckSs h b 8 ++ m.faults ++ chk m.off.isLit 5 0 ++ x.atom h
  | .afaddF32 d a b m x => ckSd h d 20 ++ ckSs h a 14 ++ ckSs h b 8 ++ m.faults ++ chk m.off.isLit 5 0 ++ x.atom h
  | .vadd w d a b p => ckN 3 w (26 + p.shift) ++ ckV h d (20 + p.shift) ++ ckV h a (14 + p.shift) ++ ckV h b (8 + p.shift) ++ p.plain h
  | .vsub w d a b p => ckN 3 w (26 + p.shift) ++ ckV h d (20 + p.shift) ++ ckV h a (14 + p.shift) ++ ckV h b (8 + p.shift) ++ p.plain h
  | .vmul w d a b p => ckN 3 w (26 + p.shift) ++ ckV h d (20 + p.shift) ++ ckV h a (14 + p.shift) ++ ckV h b (8 + p.shift) ++ p.plain h
  | .vminI w d a b p => ckN 3 w (26 + p.shift) ++ ckV h d (20 + p.shift) ++ ckV h a (14 + p.shift) ++ ckV h b (8 + p.shift) ++ p.plain h
  | .vminN w d a b p => ckN 3 w (26 + p.shift) ++ ckV h d (20 + p.shift) ++ ckV h a (14 + p.shift) ++ ckV h b (8 + p.shift) ++ p.plain h
  | .vmaxI w d a b p => ckN 3 w (26 + p.shift) ++ ckV h d (20 + p.shift) ++ ckV h a (14 + p.shift) ++ ckV h b (8 + p.shift) ++ p.plain h
  | .vmaxN w d a b p => ckN 3 w (26 + p.shift) ++ ckV h d (20 + p.shift) ++ ckV h a (14 + p.shift) ++ ckV h b (8 + p.shift) ++ p.plain h
  | .vand w d a b p => ckN 3 w (26 + p.shift) ++ ckV h d (20 + p.shift) ++ ckV h a (14 + p.shift) ++ ckV h b (8 + p.shift) ++ p.plain h
  | .vor w d a b p => ckN 3 w (26 + p.shift) ++ ckV h d (20 + p.shift) ++ ckV h a (14 + p.shift) ++ ckV h b (8 + p.shift) ++ p.plain h
  | .vxor w d a b p => ckN 3 w (26 + p.shift) ++ ckV h d (20 + p.shift) ++ ckV h a (14 + p.shift) ++ ckV h b (8 + p.shift) ++ p.plain h
  | .vsll w d a b p => ckN 3 w (26 + p.shift) ++ ckV h d (20 + p.shift) ++ ckV h a (14 + p.shift) ++ ckV h b (8 + p.shift) ++ p.plain h
  | .vsrl w d a b p => ckN 3 w (26 + p.shift) ++ ckV h d (20 + p.shift) ++ ckV h a (14 + p.shift) ++ ckV h b (8 + p.shift) ++ p.plain h
  | .vsra w d a b p => ckN 3 w (26 + p.shift) ++ ckV h d (20 + p.shift) ++ ckV h a (14 + p.shift) ++ ckV h b (8 + p.shift) ++ p.plain h
  | .vaddsI w d a b p => ckN 3 w (26 + p.shift) ++ ckV h d (20 + p.shift) ++ ckV h a (14 + p.shift) ++ ckV h b (8 + p.shift) ++ p.plain h
  | .vaddsN w d a b p => ckN 3 w (26 + p.shift) ++ ckV h d (20 + p.shift) ++ ckV h a (14 + p.shift) ++ ckV h b (8 + p.shift) ++ p.plain h
  | .vsubsN w d a b p => ckN 3 w (26 + p.shift) ++ ckV h d (20 + p.shift) ++ ckV h a (14 + p.shift) ++ ckV h b (8 + p.shift) ++ p.plain h
  | .vcmpEq w d a b p => ckN 3 w (26 + p.shift) ++ ckK h d (20 + p.shift) ++ ckV h a (14 + p.shift) ++ ckV h b (8 + p.shift) ++ p.plain h
  | .vcmpNe w d a b p => ckN 3 w (26 + p.shift) ++ ckK h d (20 + p.shift) ++ ckV h a (14 + p.shift) ++ ckV h b (8 + p.shift) ++ p.plain h
  | .vcmpLtI w d a b p => ckN 3 w (26 + p.shift) ++ ckK h d (20 + p.shift) ++ ckV h a (14 + p.shift) ++ ckV h b (8 + p.shift) ++ p.plain h
  | .vcmpLtN w d a b p => ckN 3 w (26 + p.shift) ++ ckK h d (20 + p.shift) ++ ckV h a (14 + p.shift) ++ ckV h b (8 + p.shift) ++ p.plain h
  | .vcmpGeI w d a b p => ckN 3 w (26 + p.shift) ++ ckK h d (20 + p.shift) ++ ckV h a (14 + p.shift) ++ ckV h b (8 + p.shift) ++ p.plain h
  | .vcmpGeN w d a b p => ckN 3 w (26 + p.shift) ++ ckK h d (20 + p.shift) ++ ckV h a (14 + p.shift) ++ ckV h b (8 + p.shift) ++ p.plain h
  | .vcmpFeq d a b p => ckK h d (20 + p.shift) ++ ckV h a (14 + p.shift) ++ ckV h b (8 + p.shift) ++ p.plain h
  | .vcmpFne d a b p => ckK h d (20 + p.shift) ++ ckV h a (14 + p.shift) ++ ckV h b (8 + p.shift) ++ p.plain h
  | .vcmpFlt d a b p => ckK h d (20 + p.shift) ++ ckV h a (14 + p.shift) ++ ckV h b (8 + p.shift) ++ p.plain h
  | .vcmpFle d a b p => ckK h d (20 + p.shift) ++ ckV h a (14 + p.shift) ++ ckV h b (8 + p.shift) ++ p.plain h
  | .vcmpFun d a b p => ckK h d (20 + p.shift) ++ ckV h a (14 + p.shift) ++ ckV h b (8 + p.shift) ++ p.plain h
  | .vfaddF32 d a b p => ckV h d (20 + p.shift) ++ ckV h a (14 + p.shift) ++ ckV h b (8 + p.shift) ++ p.rounding h
  | .vfsubF32 d a b p => ckV h d (20 + p.shift) ++ ckV h a (14 + p.shift) ++ ckV h b (8 + p.shift) ++ p.rounding h
  | .vfmulF32 d a b p => ckV h d (20 + p.shift) ++ ckV h a (14 + p.shift) ++ ckV h b (8 + p.shift) ++ p.rounding h
  | .vfmaF32 d a b p => ckV h d (20 + p.shift) ++ ckV h a (14 + p.shift) ++ ckV h b (8 + p.shift) ++ p.fma h
  | .vfminF32 d a b p => ckV h d (20 + p.shift) ++ ckV h a (14 + p.shift) ++ ckV h b (8 + p.shift) ++ p.rounding h
  | .vfmaxF32 d a b p => ckV h d (20 + p.shift) ++ ckV h a (14 + p.shift) ++ ckV h b (8 + p.shift) ++ p.rounding h
  | .vfabsF32 d a p => ckV h d (20 + p.shift) ++ ckV h a (14 + p.shift) ++ p.rounding h
  | .vfnegF32 d a p => ckV h d (20 + p.shift) ++ ckV h a (14 + p.shift) ++ p.rounding h
  | .vcvtF32I32 d a p => ckV h d (20 + p.shift) ++ ckV h a (14 + p.shift) ++ p.rounding h
  | .vcvtI32F32 d a p => ckV h d (20 + p.shift) ++ ckV h a (14 + p.shift) ++ p.rounding h
  | .vcvtF32N32 d a p => ckV h d (20 + p.shift) ++ ckV h a (14 + p.shift) ++ p.rounding h
  | .vcvtN32F32 d a p => ckV h d (20 + p.shift) ++ ckV h a (14 + p.shift) ++ p.rounding h
  | .vcvtB16F32 d a p => ckV h d (20 + p.shift) ++ ckV h a (14 + p.shift) ++ p.rounding h
  | .vcvtF32B16 d a p => ckV h d (20 + p.shift) ++ ckV h a (14 + p.shift) ++ p.rounding h
  | .vmov d a p => ckV h d (20 + p.shift) ++ ckV h a (14 + p.shift) ++ p.plain h
  | .vsplat d a b p => ckV h d (20 + p.shift) ++ ckSs h a (14 + p.shift) ++ ckSs h b (8 + p.shift) ++ p.plain h
  | .vrun d a b p => ckV h d (20 + p.shift) ++ ckSs h a (14 + p.shift) ++ ckSs h b (8 + p.shift) ++ p.k0 h
  | .vsel d a b p => ckV h d (20 + p.shift) ++ ckV h a (14 + p.shift) ++ ckV h b (8 + p.shift) ++ p.plain h
  | .vcoal d a p => ckV h d (20 + p.shift) ++ ckV h a (14 + p.shift) ++ p.k0 h
  | .viota d a b p => ckV h d (20 + p.shift) ++ ckSs h a (14 + p.shift) ++ ckSs h b (8 + p.shift) ++ p.plain h
  | .vcomp d a p => ckV h d (20 + p.shift) ++ ckV h a (14 + p.shift) ++ p.plain h
  | .vexp d a p => ckV h d (20 + p.shift) ++ ckV h a (14 + p.shift) ++ p.plain h
  | .vrsumI32 d a b p => ckSd h d (20 + p.shift) ++ ckV h a (14 + p.shift) ++ ckSs h b (8 + p.shift) ++ p.red h
  | .vrsumF32 d a b p => ckSd h d (20 + p.shift) ++ ckV h a (14 + p.shift) ++ ckSs h b (8 + p.shift) ++ p.red h
  | .vrminI32 d a b p => ckSd h d (20 + p.shift) ++ ckV h a (14 + p.shift) ++ ckSs h b (8 + p.shift) ++ p.red h
  | .vrminN32 d a b p => ckSd h d (20 + p.shift) ++ ckV h a (14 + p.shift) ++ ckSs h b (8 + p.shift) ++ p.red h
  | .vrminF32 d a b p => ckSd h d (20 + p.shift) ++ ckV h a (14 + p.shift) ++ ckSs h b (8 + p.shift) ++ p.red h
  | .vrmaxI32 d a b p => ckSd h d (20 + p.shift) ++ ckV h a (14 + p.shift) ++ ckSs h b (8 + p.shift) ++ p.red h
  | .vrmaxN32 d a b p => ckSd h d (20 + p.shift) ++ ckV h a (14 + p.shift) ++ ckSs h b (8 + p.shift) ++ p.red h
  | .vrmaxF32 d a b p => ckSd h d (20 + p.shift) ++ ckV h a (14 + p.shift) ++ ckSs h b (8 + p.shift) ++ p.red h
  | .vrand d a b p => ckSd h d (20 + p.shift) ++ ckV h a (14 + p.shift) ++ ckSs h b (8 + p.shift) ++ p.red h
  | .vror d a b p => ckSd h d (20 + p.shift) ++ ckV h a (14 + p.shift) ++ ckSs h b (8 + p.shift) ++ p.red h
  | .vrxor d a b p => ckSd h d (20 + p.shift) ++ ckV h a (14 + p.shift) ++ ckSs h b (8 + p.shift) ++ p.red h
  | .vssumI32 d a b p => ckV h d (20 + p.shift) ++ ckV h a (14 + p.shift) ++ ckSs h b (8 + p.shift) ++ p.plain h
  | .vssumF32 d a b p => ckV h d (20 + p.shift) ++ ckV h a (14 + p.shift) ++ ckSs h b (8 + p.shift) ++ p.plain h
  | .vsminI32 d a b p => ckV h d (20 + p.shift) ++ ckV h a (14 + p.shift) ++ ckSs h b (8 + p.shift) ++ p.plain h
  | .vsmaxI32 d a b p => ckV h d (20 + p.shift) ++ ckV h a (14 + p.shift) ++ ckSs h b (8 + p.shift) ++ p.plain h
  | .vlen d a p => ckSd h d (20 + p.shift) ++ ckV h a (14 + p.shift) ++ p.scalar h
  | .vnrun d a p => ckSd h d (20 + p.shift) ++ ckV h a (14 + p.shift) ++ p.scalar h
  | .vsetlen d a b p => ckV h d (20 + p.shift) ++ ckV h a (14 + p.shift) ++ ckSs h b (8 + p.shift) ++ p.k0 h
  | .vtos d a b p => ckSd h d (20 + p.shift) ++ ckV h a (14 + p.shift) ++ ckSs h b (8 + p.shift) ++ p.scalar h
  | .kand d a b p => ckK h d (20 + p.shift) ++ ckK h a (14 + p.shift) ++ ckK h b (8 + p.shift) ++ p.plain h
  | .kor d a b p => ckK h d (20 + p.shift) ++ ckK h a (14 + p.shift) ++ ckK h b (8 + p.shift) ++ p.plain h
  | .kxor d a b p => ckK h d (20 + p.shift) ++ ckK h a (14 + p.shift) ++ ckK h b (8 + p.shift) ++ p.plain h
  | .kandn d a b p => ckK h d (20 + p.shift) ++ ckK h a (14 + p.shift) ++ ckK h b (8 + p.shift) ++ p.plain h
  | .knot d a p => ckK h d (20 + p.shift) ++ ckK h a (14 + p.shift) ++ p.plain h
  | .kmov d a p => ckK h d (20 + p.shift) ++ ckK h a (14 + p.shift) ++ p.plain h
  | .kpxor d a b p => ckK h d (20 + p.shift) ++ ckK h a (14 + p.shift) ++ ckSs h b (8 + p.shift) ++ p.k0 h
  | .ktos d a b p => ckSd h d (20 + p.shift) ++ ckK h a (14 + p.shift) ++ ckSs h b (8 + p.shift) ++ p.scalar h
  | .stok d a b p => ckK h d (20 + p.shift) ++ ckSs h a (14 + p.shift) ++ ckSs h b (8 + p.shift) ++ p.k0 h
  | .kpopc d a p => ckSd h d (20 + p.shift) ++ ckK h a (14 + p.shift) ++ p.scalar h
  | .klen d a p => ckSd h d (20 + p.shift) ++ ckK h a (14 + p.shift) ++ p.scalar h
  | .vld d a b w mask _ m x => ckV h d 20 ++ ckSs h a 14 ++ ckSs h b 8 ++ ckN 3 w 41 ++ ckK h mask 38 ++ m.faults ++ x.load h
  | .vst d a w mask m x => ckV h d 20 ++ ckSs h a 14 ++ ckN 3 w 41 ++ ckK h mask 38 ++ m.faults ++ x.store h
  | .vldr d a b m x => ckV h d 20 ++ ckSs h a 14 ++ ckSs h b 8 ++ m.faults ++ x.load h
  | .vstr d a m x => ckV h d 20 ++ ckSs h a 14 ++ m.faults ++ x.store h
  | .vgath d a b w mask _ iscale m x => ckV h d 20 ++ ckSs h a 14 ++ ckV h b 8 ++ ckN 3 w 41 ++ ckK h mask 38 ++ ckN 4 iscale 35 ++ m.faults ++ x.load h
  | .vscat d a b w mask iscale m x => ckV h d 20 ++ ckSs h a 14 ++ ckV h b 8 ++ ckN 3 w 41 ++ ckK h mask 38 ++ ckN 4 iscale 35 ++ m.faults ++ x.store h
  | .tld d a b tag pcnt sgn m x => ckT d 20 ++ ckSs h a 14 ++ ckSs h b 8 ++ ckN 4 tag 41 ++ ckN 16 pcnt 37 ++ m.faults ++ x.tload h ++ ckTag tag pcnt sgn
  | .tst d a b m x => ckT d 20 ++ ckSs h a 14 ++ ckSs h b 8 ++ m.faults ++ x.tstore h
  | .tzero d tag pcnt sgn x => ckT d 20 ++ ckN 4 tag 41 ++ ckN 16 pcnt 37 ++ x.tile h ++ ckTag tag pcnt sgn
  | .tmov d a x => ckT d 20 ++ ckT a 14 ++ x.tile h
  | .trel d x => ckT d 20 ++ x.noguard h
  | .mma d a b fa fb _ km1 kao kbo x => ckT d 20 ++ ckT a 14 ++ ckT b 8 ++ ckN 16 fa 43 ++ ckN 16 fb 39 ++ ckN 2048 km1 85 ++ ckN 256 kao 77 ++ ckN 256 kbo 69 ++ x.tile h ++ ckMma fa fb km1 kao kbo
  | .mmf d a b fa _ km1 kao kbo x => ckT d 20 ++ ckT a 14 ++ ckT b 8 ++ ckN 16 fa 43 ++ ckN 2048 km1 85 ++ ckN 256 kao 77 ++ ckN 256 kbo 69 ++ x.tile h ++ ckMmf fa km1 kao kbo
  | .scac d a b _ q tsb ca cb x => ckT d 20 ++ ckT a 14 ++ ckT b 8 ++ ckN 16 q 42 ++ ckN 16 tsb 92 ++ ckN 256 ca 84 ++ ckN 256 cb 76 ++ x.tile h
  | .scal d a b x => ckT d 20 ++ ckSs h a 14 ++ ckSs h b 8 ++ x.tile h
  | .tadd d a b fmt rnd sat x => ckT d 20 ++ ckT a 14 ++ ckT b 8 ++ ckN 16 fmt 43 ++ ckRnd rnd 40 ++ x.tile h ++ ckTarith fmt rnd sat
  | .tsub d a b fmt rnd sat x => ckT d 20 ++ ckT a 14 ++ ckT b 8 ++ ckN 16 fmt 43 ++ ckRnd rnd 40 ++ x.tile h ++ ckTarith fmt rnd sat
  | .temul d a b fmt rnd sat x => ckT d 20 ++ ckT a 14 ++ ckT b 8 ++ ckN 16 fmt 43 ++ ckRnd rnd 40 ++ x.tile h ++ ckTarith fmt rnd sat
  | .tmax d a b fmt rnd sat x => ckT d 20 ++ ckT a 14 ++ ckT b 8 ++ ckN 16 fmt 43 ++ ckRnd rnd 40 ++ x.tile h ++ ckTarith fmt rnd sat
  | .tmin d a b fmt rnd sat x => ckT d 20 ++ ckT a 14 ++ ckT b 8 ++ ckN 16 fmt 43 ++ ckRnd rnd 40 ++ x.tile h ++ ckTarith fmt rnd sat
  | .tact d a fmt rnd fn x => ckT d 20 ++ ckT a 14 ++ ckN 16 fmt 43 ++ ckRnd rnd 40 ++ ckN 16 fn 32 ++ x.tile h ++ ckTact fmt rnd fn
  | .tcvt d a fmt rnd dfmt _ sel x => ckT d 20 ++ ckT a 14 ++ ckN 16 fmt 43 ++ ckRnd rnd 40 ++ ckN 16 dfmt 36 ++ ckN 8 sel 32 ++ x.tile h ++ ckTcvt fmt rnd dfmt sel
  | .ttrn d a fmt sel x => ckT d 20 ++ ckT a 14 ++ ckN 16 fmt 43 ++ ckN 8 sel 32 ++ x.tile h ++ ckTtrn fmt sel
  | .tplane d a pf sel x => ckT d 20 ++ ckT a 14 ++ ckN 16 pf 36 ++ ckN 8 sel 32 ++ x.tile h ++ ckTplane pf sel
  | .tred d a fmt _ op x => ckV h d 20 ++ ckT a 14 ++ ckN 16 fmt 43 ++ ckN 4 op 32 ++ x.tile h ++ ckTred fmt op
  | .tbcast d a fmt kind _ x => ckT d 20 ++ ckV h a 14 ++ ckN 16 fmt 43 ++ ckN 4 kind 33 ++ x.tile h ++ ckTbcast fmt kind
  | .cpy len a b ssp scs dsp dcs tc nv nreg ncore x => len.faults h ++ ckSs h a 14 ++ ckSs h b 8 ++ ckN 4 ssp 45 ++ ckN 4 scs 43 ++ ckN 4 dsp 41 ++ ckN 4 dcs 39 ++ ckN 8 tc 36 ++ ckN 16 nreg 91 ++ ckN 256 ncore 83 ++ x.cmd h ++ ckCpy ssp scs dsp dcs nv nreg ncore
  | .cpyw len a b ssp scs dsp dcs tc nv nreg ncore wreg wsp wcs x => len.faults h ++ ckSs h a 14 ++ ckSs h b 8 ++ ckN 4 ssp 45 ++ ckN 4 scs 43 ++ ckN 4 dsp 41 ++ ckN 4 dcs 39 ++ ckN 8 tc 36 ++ ckN 16 nreg 91 ++ ckN 256 ncore 83 ++ ckSd h wreg 77 ++ ckN 4 wsp 75 ++ ckN 4 wcs 73 ++ x.cmd h ++ ckCpy ssp scs dsp dcs nv nreg ncore ++ ckSpace wsp wcs 75 73
  | .xfm a b dlay slay tc xop i1 i2 i1v i2v rnd x => ckSs h a 14 ++ ckSs h b 8 ++ ckN 16 dlay 43 ++ ckN 16 slay 39 ++ ckN 8 tc 36 ++ ckN 16 xop 32 ++ ckN 16 i1 92 ++ ckN 16 i2 88 ++ ckRnd rnd 83 ++ x.cmd h ++ ckXfm xop i1 i2 i1v i2v rnd
  | .layv a slot tc x => ckSs h a 14 ++ ckN 16 slot 43 ++ ckN 8 tc 36 ++ x.cmd h
  | .coll d a b op red ty _ tc nv nreg ncore root ssp dsp x => ckSd h d 20 ++ ckSs h a 14 ++ ckSs h b 8 ++ ckN 4 op 45 ++ ckN 4 red 43 ++ ckN 4 ty 41 ++ ckN 8 tc 36 ++ ckN 16 nreg 91 ++ ckN 256 ncore 83 ++ ckN 512 root 74 ++ ckN 4 ssp 72 ++ ckN 4 dsp 70 ++ x.cmd h ++ ckColl op red ty nv nreg ncore root ssp dsp
  | .tcwait a tc => ckSs h a 14 ++ chk (decide (8 ≤ tc)) 7 8
  | .tcrd d issued tc => ckSd h d 20 ++ ckN 2 issued 14 ++ chk (decide (8 ≤ tc)) 7 8
  | .mrecv d n => ckSd h d 20 ++ chk (decide (16 ≤ n)) 7 8
  | .hset clr a n => ckSs h a 14 ++ ckN 64 n 8 ++ ckHset clr a
  | .join a => ckSs h a 14
  | .yield => []
  | .exit => []
  | .rein => []
  | .reinq d => ckG h d 20
  | .msend a b kind slot mreg rargb rpay codew x => ckSs h a 14 ++ ckSs h b 8 ++ ckN 4 kind 45 ++ ckN 64 slot 39 ++ ckN 16 mreg 35 ++ ckSd h rargb 90 ++ ckSd h rpay 84 ++ ckN 64 codew 78 ++ x.cmd h ++ ckMsend kind slot mreg rpay codew
  | .fork a b _ rargb rjoin x => ckSs h a 14 ++ ckSs h b 8 ++ ckSd h rargb 90 ++ ckSd h rjoin 84 ++ x.cmd h
  | .start a b rargb x => ckSs h a 14 ++ ckSs h b 8 ++ ckSd h rargb 90 ++ x.cmd h
  | .sysrd d a sel => ckSd h d 20 ++ ckSs h a 14 ++ ckN 64 sel 8 ++ ckSysrd a sel
  | .syswr d a sel => ckSd h d 20 ++ ckSs h a 14 ++ ckN 64 sel 8 ++ ckSyswr d sel
  | .trap n => ckN 64 n 8
  | .eret => []
  | .bankcfg a mode esize => ckSs h a 14 ++ ckN 8 mode 8 ++ ckN 4 esize 11 ++ ckBankcfg mode esize
  | .dirrd d => ckSd h d 20
  | .dirwr a => ckSs h a 14
  | .tick d => ckSd h d 20
  | .mark a stopk => ckSs h a 14 ++ ckN 2 stopk 8
  | .launch ch _ _ => ckN 64 ch 0
  | .messagePortWrite ch _ _ => ckN 64 ch 0
  | .apertureWrite ch _ _ => ckN 64 ch 0
  | .cxlMemWrite _ _ => []
  | .hostRead _ _ => []
  | .hostSnoop _ => []
  | .preempt _ => []
  | .resume _ => []
  | .preemptBudgetExpiry core => ckN 96 core 0
  | .preemptImageWrite core => ckN 96 core 0
  | .preemptAbandon core => ckN 96 core 0
  | .resumeLoad core => ckN 96 core 0
  | .vcoreSwitch core => ckN 96 core 0
  | .arbiterGrant core => ckN 96 core 0
  | .helperPark core => ckN 96 core 0
  | .parkedHelperReturn core => ckN 96 core 0
  | .stealProbe core => ckN 96 core 0
  | .stealProbeArrival core => ckN 96 core 0
  | .stealAnswer core => ckN 96 core 0
  | .stealSweepBackoff core => ckN 96 core 0
  | .messageArrival core => ckN 96 core 0
  | .registerWriteApply core => ckN 96 core 0
  | .spillRefill core => ckN 96 core 0
  | .joinWake core slot => ckN 96 core 0 ++ ckN 16 slot 0
  | .tcwaitWake core slot => ckN 96 core 0 ++ ckN 16 slot 0
  | .commandDispatch core => ckN 96 core 0
  | .copyChannelTransfer core chan => ckN 96 core 0 ++ ckN 2 chan 0
  | .transformRun core => ckN 96 core 0
  | .collectiveMatch core => ckN 96 core 0
  | .commandComplete core tc => ckN 96 core 0 ++ ckN 8 tc 0
  | .bankSwitchPoint paddock bank => ckN 12 paddock 0 ++ ckN 128 bank 0
  | .bankTileCopy paddock bank => ckN 12 paddock 0 ++ ckN 128 bank 0
  | .bankClearDone paddock bank => ckN 12 paddock 0 ++ ckN 128 bank 0
  | .postedStorePerform core => ckN 96 core 0
  | .atomicPerform core slot => ckN 96 core 0 ++ ckN 16 slot 0
  | .fifoWaitServe paddock bank => ckN 12 paddock 0 ++ ckN 128 bank 0
  | .storeProbeAnswer die pid _ => ckN 2 die 0 ++ ckN 64 pid 0
  | .pageWalk die pid _ => ckN 2 die 0 ++ ckN 64 pid 0
  | .xinvWrite _ => []
  | .l2LoadMissFill die pid _ => ckN 2 die 0 ++ ckN 64 pid 0
  | .l2Writeback die pid _ => ckN 2 die 0 ++ ckN 64 pid 0
  | .controllerLineWrite _ _ _ => []
  | .controllerPartialMerge _ _ _ => []
  | .controllerLineRead _ => []
  | .metadataMiss ctrl _ => ckN 16 ctrl 0
  | .metadataWriteback ctrl _ => ckN 16 ctrl 0
  | .aliasRead desc _ => ckN 64 desc 0
  | .aliasWriteRepack desc _ _ _ => ckN 64 desc 0
  | .stampedWriteApply place => ckN 4 place 0
  | .directoryOverflowRequest core => ckN 96 core 0
  | .directoryConfigWrite core _ _ => ckN 96 core 0
  | .stampbaseWrite core _ => ckN 96 core 0
  | .fltringWrite _ => []
  | .powercapWrite _ => []
  | .tandemcfgWrite _ => []
  | .hostRegisterWrite _ _ => []
  | .mstart _ => []
  | .mdata _ => []
  | .mend _ => []
  | .qnonce _ => []
  | .quoteComplete => []
  | .powerUp => []
  | .functionReady bit => ckN 64 bit 0
  | .functionFailed bit => ckN 64 bit 0
  | .powerWindow _ => []
  | .thermalSample _ => []
  | .errorEvent _ => []
  | .linkRetrainDone _ => []
  | .linkDown _ => []
  | .tandemBringUp _ _ => []
  | .tandemWriteFlit _ _ _ => []
  | .tandemMsgFlit _ _ => []
  | .tandemCollFlit _ => []
  | .tandemCtrlFlit _ => []
  | .stop _ => []
  | .stopTickReached => []
  | .debugResume _ => []
  | .stat _ => []
  | .scan _ => []
  | .rdreg _ => []
  | .wrreg _ => []
  | .rdmem _ => []
  | .wrmem _ => []
  | .debuggerWriteApply => []
  | .tickset _ => []
  | .setbp _ => []
  | .clrbp _ => []
  | .breakpointMatch core slot => ckN 96 core 0 ++ ckN 16 slot 0
  | .stampRecordWrite core => ckN 96 core 0
  | .counterSample core => ckN 96 core 0
  | .birsp _ => []

/-- The rows of the opcode table that are steps of the other agents: they have no encoding (95). -/
def Instr.isStep : Instr → Bool
  | .launch _ _ _ => true
  | .messagePortWrite _ _ _ => true
  | .apertureWrite _ _ _ => true
  | .cxlMemWrite _ _ => true
  | .hostRead _ _ => true
  | .hostSnoop _ => true
  | .preempt _ => true
  | .resume _ => true
  | .preemptBudgetExpiry _ => true
  | .preemptImageWrite _ => true
  | .preemptAbandon _ => true
  | .resumeLoad _ => true
  | .vcoreSwitch _ => true
  | .arbiterGrant _ => true
  | .helperPark _ => true
  | .parkedHelperReturn _ => true
  | .stealProbe _ => true
  | .stealProbeArrival _ => true
  | .stealAnswer _ => true
  | .stealSweepBackoff _ => true
  | .messageArrival _ => true
  | .registerWriteApply _ => true
  | .spillRefill _ => true
  | .joinWake _ _ => true
  | .tcwaitWake _ _ => true
  | .commandDispatch _ => true
  | .copyChannelTransfer _ _ => true
  | .transformRun _ => true
  | .collectiveMatch _ => true
  | .commandComplete _ _ => true
  | .bankSwitchPoint _ _ => true
  | .bankTileCopy _ _ => true
  | .bankClearDone _ _ => true
  | .postedStorePerform _ => true
  | .atomicPerform _ _ => true
  | .fifoWaitServe _ _ => true
  | .storeProbeAnswer _ _ _ => true
  | .pageWalk _ _ _ => true
  | .xinvWrite _ => true
  | .l2LoadMissFill _ _ _ => true
  | .l2Writeback _ _ _ => true
  | .controllerLineWrite _ _ _ => true
  | .controllerPartialMerge _ _ _ => true
  | .controllerLineRead _ => true
  | .metadataMiss _ _ => true
  | .metadataWriteback _ _ => true
  | .aliasRead _ _ => true
  | .aliasWriteRepack _ _ _ _ => true
  | .stampedWriteApply _ => true
  | .directoryOverflowRequest _ => true
  | .directoryConfigWrite _ _ _ => true
  | .stampbaseWrite _ _ => true
  | .fltringWrite _ => true
  | .powercapWrite _ => true
  | .tandemcfgWrite _ => true
  | .hostRegisterWrite _ _ => true
  | .mstart _ => true
  | .mdata _ => true
  | .mend _ => true
  | .qnonce _ => true
  | .quoteComplete => true
  | .powerUp => true
  | .functionReady _ => true
  | .functionFailed _ => true
  | .powerWindow _ => true
  | .thermalSample _ => true
  | .errorEvent _ => true
  | .linkRetrainDone _ => true
  | .linkDown _ => true
  | .tandemBringUp _ _ => true
  | .tandemWriteFlit _ _ _ => true
  | .tandemMsgFlit _ _ => true
  | .tandemCollFlit _ => true
  | .tandemCtrlFlit _ => true
  | .stop _ => true
  | .stopTickReached => true
  | .debugResume _ => true
  | .stat _ => true
  | .scan _ => true
  | .rdreg _ => true
  | .wrreg _ => true
  | .rdmem _ => true
  | .wrmem _ => true
  | .debuggerWriteApply => true
  | .tickset _ => true
  | .setbp _ => true
  | .clrbp _ => true
  | .breakpointMatch _ _ => true
  | .stampRecordWrite _ => true
  | .counterSample _ => true
  | .birsp _ => true
  | _ => false

/-- Well formed: no field of the instruction breaks a limit of R174 to R180 or of its description. -/
def WellFormed (i : Instr) : Prop := i.faults false = []

/-- Well formed for a helper context (R31, R174). -/
def WellFormedHelper (i : Instr) : Prop := i.faults true = []

end Sys2Proof
end

