-- ==== Sys2Proof/Decode.lean ====
section
/-! DEFINITION. Decoding and encoding (R171 to R185). An instruction is read as one natural number whose bit 0 is bit 0
of its first word, a later word counting on from bit 32 of the word before (R171, R172). Each row gives the fields of
one form of one instruction: its key fields pick the row, its reserved fields must be zero, its parameters are the
operands. A prefixed pair (R176) is a row of its own, its base word moved up by 32 bits. -/

namespace Sys2Proof

/-- What a field of an encoding is for. -/
inductive Role where
  /-- It picks the row: a length code, major, minor or selector, with its value. -/
  | key (v : Nat)
  /-- A reserved field with the value it must hold (R184, row 5). -/
  | fixed (v : Nat)
  /-- A field that R175, R179 or R180 requires to be zero (R184, row 6). A DISP with L = 0b11, which R179 alone requires to be zero and
  no row of R184 names, is one of them (log 43). -/
  | zero
  /-- An operand. -/
  | par
  deriving DecidableEq, Repr

/-- A field: its lowest bit, its width and its role. -/
structure Fld where
  lo : Nat
  wd : Nat
  role : Role
  deriving DecidableEq, Repr

/-- One form of one instruction: its length in words, its fields, and the instruction its operands make. -/
structure OpRow where
  len : Nat
  fields : List Fld
  make : (Nat → Nat) → Instr

/-- The value a field has in `w`. -/
def Fld.get (f : Fld) (w : Nat) : Nat := w / 2 ^ f.lo % 2 ^ f.wd

/-- Whether a key field of the row's form holds its value in `w`; any other field passes. -/
def Fld.hits (f : Fld) (w : Nat) : Bool :=
  match f.role with
  | .key v => f.get w == v
  | _ => true

/-- Whether `w` has the row's keys. -/
def OpRow.hits (r : OpRow) (w : Nat) : Bool := r.fields.all (·.hits w)

/-- Whether the first word `w` has the row's keys that lie in it. -/
def OpRow.hitsFirst (r : OpRow) (w : Nat) : Bool := r.fields.all fun f => decide (32 ≤ f.lo) || f.hits w

/-- The operand values of the row's form in `w`, in the order of its fields. -/
def parVals (fs : List Fld) (w : Nat) : List Nat :=
  match fs with
  | [] => []
  | f :: fs =>
    match f.role with
    | .par => f.get w :: parVals fs w
    | _ => parVals fs w

/-- The broken reserved and zero fields of `w` (R184, rows 5 and 6). -/
def fixedFaults (fs : List Fld) (w : Nat) : List FieldFault :=
  match fs with
  | [] => []
  | f :: fs =>
    match f.role with
    | .fixed v => chk (f.get w != v) 5 f.lo ++ fixedFaults fs w
    | .zero => chk (f.get w != 0) 6 f.lo ++ fixedFaults fs w
    | _ => fixedFaults fs w

/-- The bits of a form: its keys and fixed values, and its operands from `vs` in order. -/
def pack (fs : List Fld) (vs : List Nat) : Nat :=
  match fs with
  | [] => 0
  | f :: fs =>
    match f.role, vs with
    | .key v, vs => v * 2 ^ f.lo + pack fs vs
    | .fixed v, vs => v * 2 ^ f.lo + pack fs vs
    | .zero, vs => pack fs vs
    | .par, v :: vs => v * 2 ^ f.lo + pack fs vs
    | .par, [] => pack fs []

/-- A flag from its bit. -/
def bit (n : Nat) : Bool := n == 1

/-- A flag's bit. -/
def bitN (b : Bool) : Nat := if b then 1 else 0

/-- A key field. -/
def kf (lo wd v : Nat) : Fld := ⟨lo, wd, .key v⟩
/-- A reserved field that must be zero. -/
def rf (lo wd : Nat) : Fld := ⟨lo, wd, .fixed 0⟩
/-- A field with a fixed value. -/
def cf (lo wd v : Nat) : Fld := ⟨lo, wd, .fixed v⟩
/-- A field that must be zero by R175, R179 or R180. -/
def zf (lo wd : Nat) : Fld := ⟨lo, wd, .zero⟩
/-- An operand. -/
def pf (lo wd : Nat) : Fld := ⟨lo, wd, .par⟩

/-- Keys and layout of format A (R173) `up` bits above bit 0: length code 0, major, minor. -/
def fmtA (up major minor : Nat) (rest : List Fld) : List Fld :=
  kf up 2 0 :: kf (up + 2) 6 major :: kf (up + 26) 6 minor :: rest

/-- Keys of majors 0x1E and 0x1F, whose minor holds an operation and a width (R183). -/
def fmtW (up major op : Nat) (rest : List Fld) : List Fld :=
  kf up 2 0 :: kf (up + 2) 6 major :: kf (up + 28) 4 op :: rest

/-- A prefix word in front (R176): its key and reserved fields, and its six operands. -/
def pfxWord : List Fld := [kf 0 2 1, kf 2 6 0x3E, rf 8 9, pf 17 1, pf 18 1, pf 19 3, pf 22 1, pf 23 3, pf 26 6]

/-- The common operand fields of word 2 (R178): AHEAD, SCOPE, ORD, WAIT, G, GSLOT, GINV. -/
def extWord : List Fld := [pf 60 4, pf 57 3, pf 55 2, pf 53 2, pf 52 1, pf 48 4, pf 47 1]

/-- Rows 0 to 11 of the encodings (R181 to R183). -/
def rows0 : List OpRow := [
  ⟨1, fmtA 0 0x1 0 [pf 20 6, pf 14 6, pf 8 6], fun v => .add (v 0) (v 1) (v 2)⟩,
  ⟨1, fmtA 0 0x1 1 [pf 20 6, pf 14 6, pf 8 6], fun v => .sub (v 0) (v 1) (v 2)⟩,
  ⟨1, fmtA 0 0x1 2 [pf 20 6, pf 14 6, pf 8 6], fun v => .and (v 0) (v 1) (v 2)⟩,
  ⟨1, fmtA 0 0x1 3 [pf 20 6, pf 14 6, pf 8 6], fun v => .or (v 0) (v 1) (v 2)⟩,
  ⟨1, fmtA 0 0x1 4 [pf 20 6, pf 14 6, pf 8 6], fun v => .xor (v 0) (v 1) (v 2)⟩,
  ⟨1, fmtA 0 0x1 5 [pf 20 6, pf 14 6, pf 8 6], fun v => .andn (v 0) (v 1) (v 2)⟩,
  ⟨1, fmtA 0 0x1 6 [pf 20 6, pf 14 6, pf 8 6], fun v => .sll (v 0) (v 1) (v 2)⟩,
  ⟨1, fmtA 0 0x1 7 [pf 20 6, pf 14 6, pf 8 6], fun v => .srl (v 0) (v 1) (v 2)⟩,
  ⟨1, fmtA 0 0x1 8 [pf 20 6, pf 14 6, pf 8 6], fun v => .sra (v 0) (v 1) (v 2)⟩,
  ⟨1, fmtA 0 0x1 9 [pf 20 6, pf 14 6, pf 8 6], fun v => .ror (v 0) (v 1) (v 2)⟩,
  ⟨1, fmtA 0 0x1 10 [pf 20 6, pf 14 6, pf 8 6], fun v => .mul (v 0) (v 1) (v 2)⟩,
  ⟨1, fmtA 0 0x1 11 [pf 20 6, pf 14 6, pf 8 6], fun v => .mulhI64 (v 0) (v 1) (v 2)⟩]

/-- Rows 12 to 23 of the encodings (R181 to R183). -/
def rows1 : List OpRow := [
  ⟨1, fmtA 0 0x1 12 [pf 20 6, pf 14 6, pf 8 6], fun v => .mulhN64 (v 0) (v 1) (v 2)⟩,
  ⟨1, fmtA 0 0x1 13 [pf 20 6, pf 14 6, pf 8 6], fun v => .minI64 (v 0) (v 1) (v 2)⟩,
  ⟨1, fmtA 0 0x1 14 [pf 20 6, pf 14 6, pf 8 6], fun v => .minN64 (v 0) (v 1) (v 2)⟩,
  ⟨1, fmtA 0 0x1 15 [pf 20 6, pf 14 6, pf 8 6], fun v => .maxI64 (v 0) (v 1) (v 2)⟩,
  ⟨1, fmtA 0 0x1 16 [pf 20 6, pf 14 6, pf 8 6], fun v => .maxN64 (v 0) (v 1) (v 2)⟩,
  ⟨1, fmtA 0 0x1 17 [pf 20 6, pf 14 6, pf 8 6], fun v => .clmulN64 (v 0) (v 1) (v 2)⟩,
  ⟨1, fmtA 0 0x1 18 [pf 20 6, pf 14 6, pf 8 6], fun v => .clmulhN64 (v 0) (v 1) (v 2)⟩,
  ⟨1, fmtA 0 0x1 19 [pf 20 6, pf 14 6, rf 8 6], fun v => .popcN64 (v 0) (v 1)⟩,
  ⟨1, fmtA 0 0x1 20 [pf 20 6, pf 14 6, rf 8 6], fun v => .clzN64 (v 0) (v 1)⟩,
  ⟨1, fmtA 0 0x1 21 [pf 20 6, pf 14 6, rf 8 6], fun v => .ctzN64 (v 0) (v 1)⟩,
  ⟨1, fmtA 0 0x1 22 [pf 20 6, pf 14 6, rf 8 6], fun v => .bswapN64 (v 0) (v 1)⟩,
  ⟨1, fmtA 0 0x1 23 [pf 20 6, pf 14 6, pf 8 6], fun v => .extI64 (v 0) (v 1) (v 2)⟩]

/-- Rows 24 to 35 of the encodings (R181 to R183). -/
def rows2 : List OpRow := [
  ⟨1, fmtA 0 0x1 24 [pf 20 6, pf 14 6, pf 8 6], fun v => .extN64 (v 0) (v 1) (v 2)⟩,
  ⟨1, fmtA 0 0x1 25 [pf 20 6, pf 14 6, pf 8 6], fun v => .insN64 (v 0) (v 1) (v 2)⟩,
  ⟨1, fmtA 0 0x1 26 [pf 20 6, pf 14 6, rf 8 6], fun v => .sxtI8 (v 0) (v 1)⟩,
  ⟨1, fmtA 0 0x1 27 [pf 20 6, pf 14 6, rf 8 6], fun v => .sxtI16 (v 0) (v 1)⟩,
  ⟨1, fmtA 0 0x1 28 [pf 20 6, pf 14 6, rf 8 6], fun v => .sxtI32 (v 0) (v 1)⟩,
  ⟨1, fmtA 0 0x1 29 [pf 20 6, pf 14 6, rf 8 6], fun v => .zxtN8 (v 0) (v 1)⟩,
  ⟨1, fmtA 0 0x1 30 [pf 20 6, pf 14 6, rf 8 6], fun v => .zxtN16 (v 0) (v 1)⟩,
  ⟨1, fmtA 0 0x1 31 [pf 20 6, pf 14 6, rf 8 6], fun v => .zxtN32 (v 0) (v 1)⟩,
  ⟨1, [kf 0 2 0, kf 2 6 2, pf 8 6, pf 14 6, pf 20 12], fun v => .addi (BitVec.ofNat 12 (v 2)) (v 1) (v 0)⟩,
  ⟨2, [kf 0 2 1, kf 2 6 2, pf 8 6, pf 14 6, zf 20 12, pf 32 32], fun v => .addiLit32 (BitVec.ofNat 32 (v 2)) (v 1) (v 0)⟩,
  ⟨3, [kf 0 2 2, kf 2 6 2, pf 8 6, pf 14 6, zf 20 12, pf 32 64], fun v => .addiLit64 (BitVec.ofNat 64 (v 2)) (v 1) (v 0)⟩,
  ⟨1, [kf 0 2 0, kf 2 6 3, pf 8 6, pf 14 6, pf 20 12], fun v => .andi (BitVec.ofNat 12 (v 2)) (v 1) (v 0)⟩]

/-- Rows 36 to 47 of the encodings (R181 to R183). -/
def rows3 : List OpRow := [
  ⟨2, [kf 0 2 1, kf 2 6 3, pf 8 6, pf 14 6, zf 20 12, pf 32 32], fun v => .andiLit32 (BitVec.ofNat 32 (v 2)) (v 1) (v 0)⟩,
  ⟨3, [kf 0 2 2, kf 2 6 3, pf 8 6, pf 14 6, zf 20 12, pf 32 64], fun v => .andiLit64 (BitVec.ofNat 64 (v 2)) (v 1) (v 0)⟩,
  ⟨1, [kf 0 2 0, kf 2 6 4, pf 8 6, pf 14 6, pf 20 12], fun v => .ori (BitVec.ofNat 12 (v 2)) (v 1) (v 0)⟩,
  ⟨2, [kf 0 2 1, kf 2 6 4, pf 8 6, pf 14 6, zf 20 12, pf 32 32], fun v => .oriLit32 (BitVec.ofNat 32 (v 2)) (v 1) (v 0)⟩,
  ⟨3, [kf 0 2 2, kf 2 6 4, pf 8 6, pf 14 6, zf 20 12, pf 32 64], fun v => .oriLit64 (BitVec.ofNat 64 (v 2)) (v 1) (v 0)⟩,
  ⟨1, [kf 0 2 0, kf 2 6 5, pf 8 6, pf 14 6, pf 20 12], fun v => .xori (BitVec.ofNat 12 (v 2)) (v 1) (v 0)⟩,
  ⟨2, [kf 0 2 1, kf 2 6 5, pf 8 6, pf 14 6, zf 20 12, pf 32 32], fun v => .xoriLit32 (BitVec.ofNat 32 (v 2)) (v 1) (v 0)⟩,
  ⟨3, [kf 0 2 2, kf 2 6 5, pf 8 6, pf 14 6, zf 20 12, pf 32 64], fun v => .xoriLit64 (BitVec.ofNat 64 (v 2)) (v 1) (v 0)⟩,
  ⟨1, fmtA 0 0x6 0 [pf 8 6, pf 14 6, pf 20 6], fun v => .slli (v 2) (v 1) (v 0)⟩,
  ⟨1, fmtA 0 0x6 1 [pf 8 6, pf 14 6, pf 20 6], fun v => .srli (v 2) (v 1) (v 0)⟩,
  ⟨1, fmtA 0 0x6 2 [pf 8 6, pf 14 6, pf 20 6], fun v => .srai (v 2) (v 1) (v 0)⟩,
  ⟨1, fmtA 0 0x6 3 [pf 8 6, pf 14 6, pf 20 6], fun v => .rori (v 2) (v 1) (v 0)⟩]

/-- Rows 48 to 59 of the encodings (R181 to R183). -/
def rows4 : List OpRow := [
  ⟨1, [kf 0 2 0, kf 2 6 7, pf 8 4, pf 12 20], fun v => .lui (BitVec.ofNat 20 (v 1)) (v 0)⟩,
  ⟨1, [kf 0 2 0, kf 2 6 8, pf 8 4, pf 12 20], fun v => .auipc (BitVec.ofNat 20 (v 1)) (v 0)⟩,
  ⟨1, [kf 0 2 0, kf 2 6 10, pf 8 6, pf 14 6, pf 20 6, kf 26 2 0, pf 28 4], fun v => .divI64 (v 3) (v 2) (v 1) (v 0)⟩,
  ⟨1, [kf 0 2 0, kf 2 6 10, pf 8 6, pf 14 6, pf 20 6, kf 26 2 1, pf 28 4], fun v => .divN64 (v 3) (v 2) (v 1) (v 0)⟩,
  ⟨1, [kf 0 2 0, kf 2 6 10, pf 8 6, pf 14 6, pf 20 6, kf 26 2 2, pf 28 4], fun v => .remI64 (v 3) (v 2) (v 1) (v 0)⟩,
  ⟨1, [kf 0 2 0, kf 2 6 10, pf 8 6, pf 14 6, pf 20 6, kf 26 2 3, pf 28 4], fun v => .remN64 (v 3) (v 2) (v 1) (v 0)⟩,
  ⟨1, fmtA 0 0x9 0 [pf 20 6, pf 14 6, pf 8 6], fun v => .faddF32 (v 0) (v 1) (v 2)⟩,
  ⟨1, fmtA 0 0x9 1 [pf 20 6, pf 14 6, pf 8 6], fun v => .fsubF32 (v 0) (v 1) (v 2)⟩,
  ⟨1, fmtA 0 0x9 2 [pf 20 6, pf 14 6, pf 8 6], fun v => .fmulF32 (v 0) (v 1) (v 2)⟩,
  ⟨1, fmtA 0 0x9 3 [pf 20 6, pf 14 6, pf 8 6], fun v => .fmaF32 (v 0) (v 1) (v 2)⟩,
  ⟨1, fmtA 0 0x9 4 [pf 20 6, pf 14 6, pf 8 6], fun v => .fminF32 (v 0) (v 1) (v 2)⟩,
  ⟨1, fmtA 0 0x9 5 [pf 20 6, pf 14 6, pf 8 6], fun v => .fmaxF32 (v 0) (v 1) (v 2)⟩]

/-- Rows 60 to 71 of the encodings (R181 to R183). -/
def rows5 : List OpRow := [
  ⟨1, fmtA 0 0x9 6 [pf 20 6, pf 14 6, rf 8 6], fun v => .fabsF32 (v 0) (v 1)⟩,
  ⟨1, fmtA 0 0x9 7 [pf 20 6, pf 14 6, rf 8 6], fun v => .fnegF32 (v 0) (v 1)⟩,
  ⟨1, fmtA 0 0x9 8 [pf 20 6, pf 14 6, rf 8 6], fun v => .fcvtF32I64 (v 0) (v 1)⟩,
  ⟨1, fmtA 0 0x9 9 [pf 20 6, pf 14 6, rf 8 6], fun v => .fcvtF32N64 (v 0) (v 1)⟩,
  ⟨1, fmtA 0 0x9 10 [pf 20 6, pf 14 6, rf 8 6], fun v => .fcvtI64F32 (v 0) (v 1)⟩,
  ⟨1, fmtA 0 0x9 11 [pf 20 6, pf 14 6, rf 8 6], fun v => .fcvtN64F32 (v 0) (v 1)⟩,
  ⟨1, fmtA 0 0x9 12 [pf 20 6, pf 14 6, rf 8 6], fun v => .fcvtzI64F32 (v 0) (v 1)⟩,
  ⟨1, fmtA 0 0x9 13 [pf 20 6, pf 14 6, rf 8 6], fun v => .fcvtzN64F32 (v 0) (v 1)⟩,
  ⟨1, fmtA 0 0x9 14 [pf 20 6, pf 14 6, rf 8 6], fun v => .fcvtB16F32 (v 0) (v 1)⟩,
  ⟨1, fmtA 0 0x9 15 [pf 20 6, pf 14 6, rf 8 6], fun v => .fcvtF32B16 (v 0) (v 1)⟩,
  ⟨1, fmtA 0 0x9 16 [pf 20 6, pf 14 6, rf 8 6], fun v => .fcvtH16F32 (v 0) (v 1)⟩,
  ⟨1, fmtA 0 0x9 17 [pf 20 6, pf 14 6, rf 8 6], fun v => .fcvtF32H16 (v 0) (v 1)⟩]

/-- Rows 72 to 83 of the encodings (R181 to R183). -/
def rows6 : List OpRow := [
  ⟨1, [kf 0 2 0, kf 2 6 11, pf 8 6, pf 14 6, pf 20 6, kf 26 2 0, pf 28 4], fun v => .fdivF32 (v 3) (v 2) (v 1) (v 0)⟩,
  ⟨1, [kf 0 2 0, kf 2 6 11, rf 8 6, pf 14 6, pf 20 6, kf 26 2 1, pf 28 4], fun v => .fsqrtF32 (v 2) (v 1) (v 0)⟩,
  ⟨1, fmtA 0 0xc 0 [pf 20 6, pf 14 6, pf 8 6], fun v => .cmpEq (v 0) (v 1) (v 2)⟩,
  ⟨1, fmtA 0 0xc 1 [pf 20 6, pf 14 6, pf 8 6], fun v => .cmpNe (v 0) (v 1) (v 2)⟩,
  ⟨1, fmtA 0 0xc 2 [pf 20 6, pf 14 6, pf 8 6], fun v => .cmpLtI64 (v 0) (v 1) (v 2)⟩,
  ⟨1, fmtA 0 0xc 3 [pf 20 6, pf 14 6, pf 8 6], fun v => .cmpLtN64 (v 0) (v 1) (v 2)⟩,
  ⟨1, fmtA 0 0xc 4 [pf 20 6, pf 14 6, pf 8 6], fun v => .cmpGeI64 (v 0) (v 1) (v 2)⟩,
  ⟨1, fmtA 0 0xc 5 [pf 20 6, pf 14 6, pf 8 6], fun v => .cmpGeN64 (v 0) (v 1) (v 2)⟩,
  ⟨1, fmtA 0 0xc 6 [pf 20 6, pf 14 6, pf 8 6], fun v => .cmpTst (v 0) (v 1) (v 2)⟩,
  ⟨1, fmtA 0 0xc 7 [pf 20 6, pf 14 6, pf 8 6], fun v => .cmpNtst (v 0) (v 1) (v 2)⟩,
  ⟨1, fmtA 0 0xc 16 [pf 20 6, pf 14 6, pf 8 6], fun v => .gand (v 0) (v 1) (v 2)⟩,
  ⟨1, fmtA 0 0xc 17 [pf 20 6, pf 14 6, pf 8 6], fun v => .gor (v 0) (v 1) (v 2)⟩]

/-- Rows 84 to 95 of the encodings (R181 to R183). -/
def rows7 : List OpRow := [
  ⟨1, fmtA 0 0xc 18 [pf 20 6, pf 14 6, pf 8 6], fun v => .gxor (v 0) (v 1) (v 2)⟩,
  ⟨1, fmtA 0 0xc 19 [pf 20 6, pf 14 6, pf 8 6], fun v => .gandn (v 0) (v 1) (v 2)⟩,
  ⟨1, fmtA 0 0xc 20 [pf 20 6, pf 14 6, rf 8 6], fun v => .gnot (v 0) (v 1)⟩,
  ⟨1, fmtA 0 0xc 21 [pf 20 6, rf 14 6, pf 8 6], fun v => .gset (v 0) (v 1)⟩,
  ⟨1, fmtA 0 0xd 0 [pf 20 6, pf 14 6, pf 8 6], fun v => .fcmpgEqF32 (v 0) (v 1) (v 2)⟩,
  ⟨1, fmtA 0 0xd 1 [pf 20 6, pf 14 6, pf 8 6], fun v => .fcmpgNeF32 (v 0) (v 1) (v 2)⟩,
  ⟨1, fmtA 0 0xd 2 [pf 20 6, pf 14 6, pf 8 6], fun v => .fcmpgLtF32 (v 0) (v 1) (v 2)⟩,
  ⟨1, fmtA 0 0xd 3 [pf 20 6, pf 14 6, pf 8 6], fun v => .fcmpgLeF32 (v 0) (v 1) (v 2)⟩,
  ⟨1, fmtA 0 0xd 4 [pf 20 6, pf 14 6, pf 8 6], fun v => .fcmpgUnF32 (v 0) (v 1) (v 2)⟩,
  ⟨1, [kf 0 2 0, kf 2 6 14, pf 8 6, pf 14 6, pf 20 3, kf 23 1 0, pf 24 8], fun v => .cmpi (BitVec.ofNat 8 (v 3)) (v 2) (v 1) (v 0)⟩,
  ⟨1, [kf 0 2 0, kf 2 6 15, rf 8 1, pf 9 3, pf 12 20], fun v => .prep (BitVec.ofNat 20 (v 1)) (v 0)⟩,
  ⟨3, [kf 0 2 2, kf 2 6 15, rf 8 1, pf 9 3, zf 12 20, pf 32 64], fun v => .prepLit64 (BitVec.ofNat 64 (v 1)) (v 0)⟩]

/-- Rows 96 to 107 of the encodings (R181 to R183). -/
def rows8 : List OpRow := [
  ⟨1, fmtA 0 0x10 0 [rf 8 3, pf 11 3, rf 14 6, rf 20 2, rf 22 4], fun v => .jmp (v 0)⟩,
  ⟨1, fmtA 0 0x10 1 [rf 8 3, pf 11 3, rf 14 6, rf 20 2, pf 22 4], fun v => .jmpt (v 1) (v 0)⟩,
  ⟨1, fmtA 0 0x10 2 [rf 8 3, pf 11 3, rf 14 6, rf 20 2, pf 22 4], fun v => .jmpf (v 1) (v 0)⟩,
  ⟨1, fmtA 0 0x10 3 [rf 8 3, pf 11 3, rf 14 6, rf 20 2, rf 22 4], fun v => .call (v 0)⟩,
  ⟨1, fmtA 0 0x10 4 [rf 8 3, cf 11 3 7, rf 14 6, rf 20 2, rf 22 4], fun _ => .ret⟩,
  ⟨1, fmtA 0 0x10 5 [rf 8 3, pf 11 3, pf 14 6, rf 20 2, rf 22 4], fun v => .prepr (v 1) (v 0)⟩,
  ⟨1, fmtA 0 0x11 0 [rf 20 1, pf 21 3, pf 24 2, rf 14 6, rf 8 6], fun v => .fence (v 0) (v 1)⟩,
  ⟨1, fmtA 0 0x11 1 [rf 20 6, rf 14 6, rf 8 6], fun _ => .isync⟩,
  ⟨1, fmtA 0 0x11 2 [rf 20 4, pf 24 2, rf 14 6, rf 8 6], fun v => .wait (v 0)⟩,
  ⟨1, fmtA 0 0x11 3 [pf 20 1, rf 21 5, pf 14 6, pf 8 6], fun v => .flush (bit (v 0)) (v 1) (v 2)⟩,
  ⟨1, [kf 0 2 0, kf 2 6 18, pf 8 6, pf 14 6, pf 20 4, pf 24 8], fun v => .ldl64 (BitVec.ofNat 8 (v 3)) (v 2) (v 1) (v 0)⟩,
  ⟨1, [kf 0 2 0, kf 2 6 19, pf 8 6, pf 14 6, pf 20 4, pf 24 8], fun v => .ldli32 (BitVec.ofNat 8 (v 3)) (v 2) (v 1) (v 0)⟩]

/-- Rows 108 to 119 of the encodings (R181 to R183). -/
def rows9 : List OpRow := [
  ⟨1, [kf 0 2 0, kf 2 6 20, pf 8 6, pf 14 6, pf 20 4, pf 24 8], fun v => .ldln32 (BitVec.ofNat 8 (v 3)) (v 2) (v 1) (v 0)⟩,
  ⟨1, [kf 0 2 0, kf 2 6 21, pf 8 6, pf 14 6, zf 20 4, pf 24 8], fun v => .stl64 (BitVec.ofNat 8 (v 2)) (v 1) (v 0)⟩,
  ⟨1, [kf 0 2 0, kf 2 6 22, pf 8 6, pf 14 6, zf 20 4, pf 24 8], fun v => .stl32 (BitVec.ofNat 8 (v 2)) (v 1) (v 0)⟩,
  ⟨1, [kf 0 2 0, kf 2 6 23, pf 8 6, pf 14 6, pf 20 4, pf 24 8], fun v => .ldg64 (BitVec.ofNat 8 (v 3)) (v 2) (v 1) (v 0)⟩,
  ⟨1, [kf 0 2 0, kf 2 6 24, pf 8 6, pf 14 6, pf 20 4, pf 24 8], fun v => .ldgi32 (BitVec.ofNat 8 (v 3)) (v 2) (v 1) (v 0)⟩,
  ⟨1, [kf 0 2 0, kf 2 6 25, pf 8 6, pf 14 6, pf 20 4, pf 24 8], fun v => .ldgn32 (BitVec.ofNat 8 (v 3)) (v 2) (v 1) (v 0)⟩,
  ⟨1, [kf 0 2 0, kf 2 6 26, pf 8 6, pf 14 6, zf 20 4, pf 24 8], fun v => .stg64 (BitVec.ofNat 8 (v 2)) (v 1) (v 0)⟩,
  ⟨1, [kf 0 2 0, kf 2 6 27, pf 8 6, pf 14 6, zf 20 4, pf 24 8], fun v => .stg32 (BitVec.ofNat 8 (v 2)) (v 1) (v 0)⟩,
  ⟨3, [kf 0 2 2, kf 2 6 28, kf 26 6 0, pf 20 6, pf 14 6, pf 8 6, pf 41 2, rf 40 1, rf 34 6, rf 32 2, pf 45 2, pf 43 2] ++ extWord ++ [pf 64 32], fun v => .memxLdI8 (v 0) (v 1) (v 2) (v 3) ⟨v 4, v 5, .disp (BitVec.ofNat 32 (v 13))⟩ ⟨v 6, v 7, v 8, v 9, bit (v 10), v 11, bit (v 12)⟩⟩,
  ⟨5, [kf 0 2 3, kf 2 6 28, kf 26 6 0, pf 20 6, pf 14 6, pf 8 6, pf 41 2, rf 40 1, rf 34 6, rf 32 2, pf 45 2, pf 43 2] ++ extWord ++ [zf 64 32, pf 96 64], fun v => .memxLdI8 (v 0) (v 1) (v 2) (v 3) ⟨v 4, v 5, .lit (BitVec.ofNat 64 (v 13))⟩ ⟨v 6, v 7, v 8, v 9, bit (v 10), v 11, bit (v 12)⟩⟩,
  ⟨3, [kf 0 2 2, kf 2 6 28, kf 26 6 1, pf 20 6, pf 14 6, pf 8 6, pf 41 2, rf 40 1, rf 34 6, rf 32 2, pf 45 2, pf 43 2] ++ extWord ++ [pf 64 32], fun v => .memxLdN8 (v 0) (v 1) (v 2) (v 3) ⟨v 4, v 5, .disp (BitVec.ofNat 32 (v 13))⟩ ⟨v 6, v 7, v 8, v 9, bit (v 10), v 11, bit (v 12)⟩⟩,
  ⟨5, [kf 0 2 3, kf 2 6 28, kf 26 6 1, pf 20 6, pf 14 6, pf 8 6, pf 41 2, rf 40 1, rf 34 6, rf 32 2, pf 45 2, pf 43 2] ++ extWord ++ [zf 64 32, pf 96 64], fun v => .memxLdN8 (v 0) (v 1) (v 2) (v 3) ⟨v 4, v 5, .lit (BitVec.ofNat 64 (v 13))⟩ ⟨v 6, v 7, v 8, v 9, bit (v 10), v 11, bit (v 12)⟩⟩]

/-- Rows 120 to 131 of the encodings (R181 to R183). -/
def rows10 : List OpRow := [
  ⟨3, [kf 0 2 2, kf 2 6 28, kf 26 6 2, pf 20 6, pf 14 6, pf 8 6, pf 41 2, rf 40 1, rf 34 6, rf 32 2, pf 45 2, pf 43 2] ++ extWord ++ [pf 64 32], fun v => .memxLdI16 (v 0) (v 1) (v 2) (v 3) ⟨v 4, v 5, .disp (BitVec.ofNat 32 (v 13))⟩ ⟨v 6, v 7, v 8, v 9, bit (v 10), v 11, bit (v 12)⟩⟩,
  ⟨5, [kf 0 2 3, kf 2 6 28, kf 26 6 2, pf 20 6, pf 14 6, pf 8 6, pf 41 2, rf 40 1, rf 34 6, rf 32 2, pf 45 2, pf 43 2] ++ extWord ++ [zf 64 32, pf 96 64], fun v => .memxLdI16 (v 0) (v 1) (v 2) (v 3) ⟨v 4, v 5, .lit (BitVec.ofNat 64 (v 13))⟩ ⟨v 6, v 7, v 8, v 9, bit (v 10), v 11, bit (v 12)⟩⟩,
  ⟨3, [kf 0 2 2, kf 2 6 28, kf 26 6 3, pf 20 6, pf 14 6, pf 8 6, pf 41 2, rf 40 1, rf 34 6, rf 32 2, pf 45 2, pf 43 2] ++ extWord ++ [pf 64 32], fun v => .memxLdN16 (v 0) (v 1) (v 2) (v 3) ⟨v 4, v 5, .disp (BitVec.ofNat 32 (v 13))⟩ ⟨v 6, v 7, v 8, v 9, bit (v 10), v 11, bit (v 12)⟩⟩,
  ⟨5, [kf 0 2 3, kf 2 6 28, kf 26 6 3, pf 20 6, pf 14 6, pf 8 6, pf 41 2, rf 40 1, rf 34 6, rf 32 2, pf 45 2, pf 43 2] ++ extWord ++ [zf 64 32, pf 96 64], fun v => .memxLdN16 (v 0) (v 1) (v 2) (v 3) ⟨v 4, v 5, .lit (BitVec.ofNat 64 (v 13))⟩ ⟨v 6, v 7, v 8, v 9, bit (v 10), v 11, bit (v 12)⟩⟩,
  ⟨3, [kf 0 2 2, kf 2 6 28, kf 26 6 4, pf 20 6, pf 14 6, pf 8 6, pf 41 2, rf 40 1, rf 34 6, rf 32 2, pf 45 2, pf 43 2] ++ extWord ++ [pf 64 32], fun v => .memxLdI32 (v 0) (v 1) (v 2) (v 3) ⟨v 4, v 5, .disp (BitVec.ofNat 32 (v 13))⟩ ⟨v 6, v 7, v 8, v 9, bit (v 10), v 11, bit (v 12)⟩⟩,
  ⟨5, [kf 0 2 3, kf 2 6 28, kf 26 6 4, pf 20 6, pf 14 6, pf 8 6, pf 41 2, rf 40 1, rf 34 6, rf 32 2, pf 45 2, pf 43 2] ++ extWord ++ [zf 64 32, pf 96 64], fun v => .memxLdI32 (v 0) (v 1) (v 2) (v 3) ⟨v 4, v 5, .lit (BitVec.ofNat 64 (v 13))⟩ ⟨v 6, v 7, v 8, v 9, bit (v 10), v 11, bit (v 12)⟩⟩,
  ⟨3, [kf 0 2 2, kf 2 6 28, kf 26 6 5, pf 20 6, pf 14 6, pf 8 6, pf 41 2, rf 40 1, rf 34 6, rf 32 2, pf 45 2, pf 43 2] ++ extWord ++ [pf 64 32], fun v => .memxLdN32 (v 0) (v 1) (v 2) (v 3) ⟨v 4, v 5, .disp (BitVec.ofNat 32 (v 13))⟩ ⟨v 6, v 7, v 8, v 9, bit (v 10), v 11, bit (v 12)⟩⟩,
  ⟨5, [kf 0 2 3, kf 2 6 28, kf 26 6 5, pf 20 6, pf 14 6, pf 8 6, pf 41 2, rf 40 1, rf 34 6, rf 32 2, pf 45 2, pf 43 2] ++ extWord ++ [zf 64 32, pf 96 64], fun v => .memxLdN32 (v 0) (v 1) (v 2) (v 3) ⟨v 4, v 5, .lit (BitVec.ofNat 64 (v 13))⟩ ⟨v 6, v 7, v 8, v 9, bit (v 10), v 11, bit (v 12)⟩⟩,
  ⟨3, [kf 0 2 2, kf 2 6 28, kf 26 6 6, pf 20 6, pf 14 6, pf 8 6, pf 41 2, rf 40 1, rf 34 6, rf 32 2, pf 45 2, pf 43 2] ++ extWord ++ [pf 64 32], fun v => .memxLdI64 (v 0) (v 1) (v 2) (v 3) ⟨v 4, v 5, .disp (BitVec.ofNat 32 (v 13))⟩ ⟨v 6, v 7, v 8, v 9, bit (v 10), v 11, bit (v 12)⟩⟩,
  ⟨5, [kf 0 2 3, kf 2 6 28, kf 26 6 6, pf 20 6, pf 14 6, pf 8 6, pf 41 2, rf 40 1, rf 34 6, rf 32 2, pf 45 2, pf 43 2] ++ extWord ++ [zf 64 32, pf 96 64], fun v => .memxLdI64 (v 0) (v 1) (v 2) (v 3) ⟨v 4, v 5, .lit (BitVec.ofNat 64 (v 13))⟩ ⟨v 6, v 7, v 8, v 9, bit (v 10), v 11, bit (v 12)⟩⟩,
  ⟨3, [kf 0 2 2, kf 2 6 28, kf 26 6 8, rf 20 6, pf 14 6, pf 8 6, rf 41 2, rf 40 1, rf 34 6, rf 32 2, pf 45 2, pf 43 2] ++ extWord ++ [pf 64 32], fun v => .memxStI8 (v 0) (v 1) ⟨v 2, v 3, .disp (BitVec.ofNat 32 (v 11))⟩ ⟨v 4, v 5, v 6, v 7, bit (v 8), v 9, bit (v 10)⟩⟩,
  ⟨5, [kf 0 2 3, kf 2 6 28, kf 26 6 8, rf 20 6, pf 14 6, pf 8 6, rf 41 2, rf 40 1, rf 34 6, rf 32 2, pf 45 2, pf 43 2] ++ extWord ++ [zf 64 32, pf 96 64], fun v => .memxStI8 (v 0) (v 1) ⟨v 2, v 3, .lit (BitVec.ofNat 64 (v 11))⟩ ⟨v 4, v 5, v 6, v 7, bit (v 8), v 9, bit (v 10)⟩⟩]

/-- Rows 132 to 143 of the encodings (R181 to R183). -/
def rows11 : List OpRow := [
  ⟨3, [kf 0 2 2, kf 2 6 28, kf 26 6 9, rf 20 6, pf 14 6, pf 8 6, rf 41 2, rf 40 1, rf 34 6, rf 32 2, pf 45 2, pf 43 2] ++ extWord ++ [pf 64 32], fun v => .memxStI16 (v 0) (v 1) ⟨v 2, v 3, .disp (BitVec.ofNat 32 (v 11))⟩ ⟨v 4, v 5, v 6, v 7, bit (v 8), v 9, bit (v 10)⟩⟩,
  ⟨5, [kf 0 2 3, kf 2 6 28, kf 26 6 9, rf 20 6, pf 14 6, pf 8 6, rf 41 2, rf 40 1, rf 34 6, rf 32 2, pf 45 2, pf 43 2] ++ extWord ++ [zf 64 32, pf 96 64], fun v => .memxStI16 (v 0) (v 1) ⟨v 2, v 3, .lit (BitVec.ofNat 64 (v 11))⟩ ⟨v 4, v 5, v 6, v 7, bit (v 8), v 9, bit (v 10)⟩⟩,
  ⟨3, [kf 0 2 2, kf 2 6 28, kf 26 6 10, rf 20 6, pf 14 6, pf 8 6, rf 41 2, rf 40 1, rf 34 6, rf 32 2, pf 45 2, pf 43 2] ++ extWord ++ [pf 64 32], fun v => .memxStI32 (v 0) (v 1) ⟨v 2, v 3, .disp (BitVec.ofNat 32 (v 11))⟩ ⟨v 4, v 5, v 6, v 7, bit (v 8), v 9, bit (v 10)⟩⟩,
  ⟨5, [kf 0 2 3, kf 2 6 28, kf 26 6 10, rf 20 6, pf 14 6, pf 8 6, rf 41 2, rf 40 1, rf 34 6, rf 32 2, pf 45 2, pf 43 2] ++ extWord ++ [zf 64 32, pf 96 64], fun v => .memxStI32 (v 0) (v 1) ⟨v 2, v 3, .lit (BitVec.ofNat 64 (v 11))⟩ ⟨v 4, v 5, v 6, v 7, bit (v 8), v 9, bit (v 10)⟩⟩,
  ⟨3, [kf 0 2 2, kf 2 6 28, kf 26 6 11, rf 20 6, pf 14 6, pf 8 6, rf 41 2, rf 40 1, rf 34 6, rf 32 2, pf 45 2, pf 43 2] ++ extWord ++ [pf 64 32], fun v => .memxStI64 (v 0) (v 1) ⟨v 2, v 3, .disp (BitVec.ofNat 32 (v 11))⟩ ⟨v 4, v 5, v 6, v 7, bit (v 8), v 9, bit (v 10)⟩⟩,
  ⟨5, [kf 0 2 3, kf 2 6 28, kf 26 6 11, rf 20 6, pf 14 6, pf 8 6, rf 41 2, rf 40 1, rf 34 6, rf 32 2, pf 45 2, pf 43 2] ++ extWord ++ [zf 64 32, pf 96 64], fun v => .memxStI64 (v 0) (v 1) ⟨v 2, v 3, .lit (BitVec.ofNat 64 (v 11))⟩ ⟨v 4, v 5, v 6, v 7, bit (v 8), v 9, bit (v 10)⟩⟩,
  ⟨3, [kf 0 2 2, kf 2 6 29, kf 26 6 0, pf 20 6, pf 14 6, pf 8 6, rf 41 2, pf 40 1, rf 34 6, rf 32 2, pf 45 2, pf 43 2] ++ extWord ++ [pf 64 32], fun v => .aswp (v 0) (v 1) (v 2) (bit (v 3)) ⟨v 4, v 5, .disp (BitVec.ofNat 32 (v 13))⟩ ⟨v 6, v 7, v 8, v 9, bit (v 10), v 11, bit (v 12)⟩⟩,
  ⟨3, [kf 0 2 2, kf 2 6 29, kf 26 6 1, pf 20 6, pf 14 6, pf 8 6, rf 41 2, pf 40 1, pf 34 6, rf 32 2, pf 45 2, pf 43 2] ++ extWord ++ [pf 64 32], fun v => .acas (v 0) (v 1) (v 2) (bit (v 3)) (v 4) ⟨v 5, v 6, .disp (BitVec.ofNat 32 (v 14))⟩ ⟨v 7, v 8, v 9, v 10, bit (v 11), v 12, bit (v 13)⟩⟩,
  ⟨3, [kf 0 2 2, kf 2 6 29, kf 26 6 2, pf 20 6, pf 14 6, pf 8 6, rf 41 2, pf 40 1, rf 34 6, rf 32 2, pf 45 2, pf 43 2] ++ extWord ++ [pf 64 32], fun v => .aadd (v 0) (v 1) (v 2) (bit (v 3)) ⟨v 4, v 5, .disp (BitVec.ofNat 32 (v 13))⟩ ⟨v 6, v 7, v 8, v 9, bit (v 10), v 11, bit (v 12)⟩⟩,
  ⟨3, [kf 0 2 2, kf 2 6 29, kf 26 6 3, pf 20 6, pf 14 6, pf 8 6, rf 41 2, pf 40 1, rf 34 6, rf 32 2, pf 45 2, pf 43 2] ++ extWord ++ [pf 64 32], fun v => .aand (v 0) (v 1) (v 2) (bit (v 3)) ⟨v 4, v 5, .disp (BitVec.ofNat 32 (v 13))⟩ ⟨v 6, v 7, v 8, v 9, bit (v 10), v 11, bit (v 12)⟩⟩,
  ⟨3, [kf 0 2 2, kf 2 6 29, kf 26 6 4, pf 20 6, pf 14 6, pf 8 6, rf 41 2, pf 40 1, rf 34 6, rf 32 2, pf 45 2, pf 43 2] ++ extWord ++ [pf 64 32], fun v => .aor (v 0) (v 1) (v 2) (bit (v 3)) ⟨v 4, v 5, .disp (BitVec.ofNat 32 (v 13))⟩ ⟨v 6, v 7, v 8, v 9, bit (v 10), v 11, bit (v 12)⟩⟩,
  ⟨3, [kf 0 2 2, kf 2 6 29, kf 26 6 5, pf 20 6, pf 14 6, pf 8 6, rf 41 2, pf 40 1, rf 34 6, rf 32 2, pf 45 2, pf 43 2] ++ extWord ++ [pf 64 32], fun v => .axor (v 0) (v 1) (v 2) (bit (v 3)) ⟨v 4, v 5, .disp (BitVec.ofNat 32 (v 13))⟩ ⟨v 6, v 7, v 8, v 9, bit (v 10), v 11, bit (v 12)⟩⟩]

/-- Rows 144 to 155 of the encodings (R181 to R183). -/
def rows12 : List OpRow := [
  ⟨3, [kf 0 2 2, kf 2 6 29, kf 26 6 6, pf 20 6, pf 14 6, pf 8 6, rf 41 2, pf 40 1, rf 34 6, rf 32 2, pf 45 2, pf 43 2] ++ extWord ++ [pf 64 32], fun v => .aminI (v 0) (v 1) (v 2) (bit (v 3)) ⟨v 4, v 5, .disp (BitVec.ofNat 32 (v 13))⟩ ⟨v 6, v 7, v 8, v 9, bit (v 10), v 11, bit (v 12)⟩⟩,
  ⟨3, [kf 0 2 2, kf 2 6 29, kf 26 6 7, pf 20 6, pf 14 6, pf 8 6, rf 41 2, pf 40 1, rf 34 6, rf 32 2, pf 45 2, pf 43 2] ++ extWord ++ [pf 64 32], fun v => .aminN (v 0) (v 1) (v 2) (bit (v 3)) ⟨v 4, v 5, .disp (BitVec.ofNat 32 (v 13))⟩ ⟨v 6, v 7, v 8, v 9, bit (v 10), v 11, bit (v 12)⟩⟩,
  ⟨3, [kf 0 2 2, kf 2 6 29, kf 26 6 8, pf 20 6, pf 14 6, pf 8 6, rf 41 2, pf 40 1, rf 34 6, rf 32 2, pf 45 2, pf 43 2] ++ extWord ++ [pf 64 32], fun v => .amaxI (v 0) (v 1) (v 2) (bit (v 3)) ⟨v 4, v 5, .disp (BitVec.ofNat 32 (v 13))⟩ ⟨v 6, v 7, v 8, v 9, bit (v 10), v 11, bit (v 12)⟩⟩,
  ⟨3, [kf 0 2 2, kf 2 6 29, kf 26 6 9, pf 20 6, pf 14 6, pf 8 6, rf 41 2, pf 40 1, rf 34 6, rf 32 2, pf 45 2, pf 43 2] ++ extWord ++ [pf 64 32], fun v => .amaxN (v 0) (v 1) (v 2) (bit (v 3)) ⟨v 4, v 5, .disp (BitVec.ofNat 32 (v 13))⟩ ⟨v 6, v 7, v 8, v 9, bit (v 10), v 11, bit (v 12)⟩⟩,
  ⟨3, [kf 0 2 2, kf 2 6 29, kf 26 6 10, pf 20 6, pf 14 6, pf 8 6, rf 41 2, rf 40 1, rf 34 6, rf 32 2, pf 45 2, pf 43 2] ++ extWord ++ [pf 64 32], fun v => .afaddF32 (v 0) (v 1) (v 2) ⟨v 3, v 4, .disp (BitVec.ofNat 32 (v 12))⟩ ⟨v 5, v 6, v 7, v 8, bit (v 9), v 10, bit (v 11)⟩⟩,
  ⟨1, fmtW 0 0x1e 0 [pf 26 2, pf 20 6, pf 14 6, pf 8 6], fun v => .vadd (v 0) (v 1) (v 2) (v 3) Pfx.none⟩,
  ⟨2, pfxWord ++ fmtW 32 0x1e 0 [pf 58 2, pf 52 6, pf 46 6, pf 40 6], fun v => .vadd (v 6) (v 7) (v 8) (v 9) ⟨true, v 5, v 4, bit (v 3), v 2, bit (v 1), bit (v 0)⟩⟩,
  ⟨1, fmtW 0 0x1e 1 [pf 26 2, pf 20 6, pf 14 6, pf 8 6], fun v => .vsub (v 0) (v 1) (v 2) (v 3) Pfx.none⟩,
  ⟨2, pfxWord ++ fmtW 32 0x1e 1 [pf 58 2, pf 52 6, pf 46 6, pf 40 6], fun v => .vsub (v 6) (v 7) (v 8) (v 9) ⟨true, v 5, v 4, bit (v 3), v 2, bit (v 1), bit (v 0)⟩⟩,
  ⟨1, fmtW 0 0x1e 2 [pf 26 2, pf 20 6, pf 14 6, pf 8 6], fun v => .vmul (v 0) (v 1) (v 2) (v 3) Pfx.none⟩,
  ⟨2, pfxWord ++ fmtW 32 0x1e 2 [pf 58 2, pf 52 6, pf 46 6, pf 40 6], fun v => .vmul (v 6) (v 7) (v 8) (v 9) ⟨true, v 5, v 4, bit (v 3), v 2, bit (v 1), bit (v 0)⟩⟩,
  ⟨1, fmtW 0 0x1e 3 [pf 26 2, pf 20 6, pf 14 6, pf 8 6], fun v => .vminI (v 0) (v 1) (v 2) (v 3) Pfx.none⟩]

/-- Rows 156 to 167 of the encodings (R181 to R183). -/
def rows13 : List OpRow := [
  ⟨2, pfxWord ++ fmtW 32 0x1e 3 [pf 58 2, pf 52 6, pf 46 6, pf 40 6], fun v => .vminI (v 6) (v 7) (v 8) (v 9) ⟨true, v 5, v 4, bit (v 3), v 2, bit (v 1), bit (v 0)⟩⟩,
  ⟨1, fmtW 0 0x1e 4 [pf 26 2, pf 20 6, pf 14 6, pf 8 6], fun v => .vminN (v 0) (v 1) (v 2) (v 3) Pfx.none⟩,
  ⟨2, pfxWord ++ fmtW 32 0x1e 4 [pf 58 2, pf 52 6, pf 46 6, pf 40 6], fun v => .vminN (v 6) (v 7) (v 8) (v 9) ⟨true, v 5, v 4, bit (v 3), v 2, bit (v 1), bit (v 0)⟩⟩,
  ⟨1, fmtW 0 0x1e 5 [pf 26 2, pf 20 6, pf 14 6, pf 8 6], fun v => .vmaxI (v 0) (v 1) (v 2) (v 3) Pfx.none⟩,
  ⟨2, pfxWord ++ fmtW 32 0x1e 5 [pf 58 2, pf 52 6, pf 46 6, pf 40 6], fun v => .vmaxI (v 6) (v 7) (v 8) (v 9) ⟨true, v 5, v 4, bit (v 3), v 2, bit (v 1), bit (v 0)⟩⟩,
  ⟨1, fmtW 0 0x1e 6 [pf 26 2, pf 20 6, pf 14 6, pf 8 6], fun v => .vmaxN (v 0) (v 1) (v 2) (v 3) Pfx.none⟩,
  ⟨2, pfxWord ++ fmtW 32 0x1e 6 [pf 58 2, pf 52 6, pf 46 6, pf 40 6], fun v => .vmaxN (v 6) (v 7) (v 8) (v 9) ⟨true, v 5, v 4, bit (v 3), v 2, bit (v 1), bit (v 0)⟩⟩,
  ⟨1, fmtW 0 0x1e 7 [pf 26 2, pf 20 6, pf 14 6, pf 8 6], fun v => .vand (v 0) (v 1) (v 2) (v 3) Pfx.none⟩,
  ⟨2, pfxWord ++ fmtW 32 0x1e 7 [pf 58 2, pf 52 6, pf 46 6, pf 40 6], fun v => .vand (v 6) (v 7) (v 8) (v 9) ⟨true, v 5, v 4, bit (v 3), v 2, bit (v 1), bit (v 0)⟩⟩,
  ⟨1, fmtW 0 0x1e 8 [pf 26 2, pf 20 6, pf 14 6, pf 8 6], fun v => .vor (v 0) (v 1) (v 2) (v 3) Pfx.none⟩,
  ⟨2, pfxWord ++ fmtW 32 0x1e 8 [pf 58 2, pf 52 6, pf 46 6, pf 40 6], fun v => .vor (v 6) (v 7) (v 8) (v 9) ⟨true, v 5, v 4, bit (v 3), v 2, bit (v 1), bit (v 0)⟩⟩,
  ⟨1, fmtW 0 0x1e 9 [pf 26 2, pf 20 6, pf 14 6, pf 8 6], fun v => .vxor (v 0) (v 1) (v 2) (v 3) Pfx.none⟩]

/-- Rows 168 to 179 of the encodings (R181 to R183). -/
def rows14 : List OpRow := [
  ⟨2, pfxWord ++ fmtW 32 0x1e 9 [pf 58 2, pf 52 6, pf 46 6, pf 40 6], fun v => .vxor (v 6) (v 7) (v 8) (v 9) ⟨true, v 5, v 4, bit (v 3), v 2, bit (v 1), bit (v 0)⟩⟩,
  ⟨1, fmtW 0 0x1e 10 [pf 26 2, pf 20 6, pf 14 6, pf 8 6], fun v => .vsll (v 0) (v 1) (v 2) (v 3) Pfx.none⟩,
  ⟨2, pfxWord ++ fmtW 32 0x1e 10 [pf 58 2, pf 52 6, pf 46 6, pf 40 6], fun v => .vsll (v 6) (v 7) (v 8) (v 9) ⟨true, v 5, v 4, bit (v 3), v 2, bit (v 1), bit (v 0)⟩⟩,
  ⟨1, fmtW 0 0x1e 11 [pf 26 2, pf 20 6, pf 14 6, pf 8 6], fun v => .vsrl (v 0) (v 1) (v 2) (v 3) Pfx.none⟩,
  ⟨2, pfxWord ++ fmtW 32 0x1e 11 [pf 58 2, pf 52 6, pf 46 6, pf 40 6], fun v => .vsrl (v 6) (v 7) (v 8) (v 9) ⟨true, v 5, v 4, bit (v 3), v 2, bit (v 1), bit (v 0)⟩⟩,
  ⟨1, fmtW 0 0x1e 12 [pf 26 2, pf 20 6, pf 14 6, pf 8 6], fun v => .vsra (v 0) (v 1) (v 2) (v 3) Pfx.none⟩,
  ⟨2, pfxWord ++ fmtW 32 0x1e 12 [pf 58 2, pf 52 6, pf 46 6, pf 40 6], fun v => .vsra (v 6) (v 7) (v 8) (v 9) ⟨true, v 5, v 4, bit (v 3), v 2, bit (v 1), bit (v 0)⟩⟩,
  ⟨1, fmtW 0 0x1e 13 [pf 26 2, pf 20 6, pf 14 6, pf 8 6], fun v => .vaddsI (v 0) (v 1) (v 2) (v 3) Pfx.none⟩,
  ⟨2, pfxWord ++ fmtW 32 0x1e 13 [pf 58 2, pf 52 6, pf 46 6, pf 40 6], fun v => .vaddsI (v 6) (v 7) (v 8) (v 9) ⟨true, v 5, v 4, bit (v 3), v 2, bit (v 1), bit (v 0)⟩⟩,
  ⟨1, fmtW 0 0x1e 14 [pf 26 2, pf 20 6, pf 14 6, pf 8 6], fun v => .vaddsN (v 0) (v 1) (v 2) (v 3) Pfx.none⟩,
  ⟨2, pfxWord ++ fmtW 32 0x1e 14 [pf 58 2, pf 52 6, pf 46 6, pf 40 6], fun v => .vaddsN (v 6) (v 7) (v 8) (v 9) ⟨true, v 5, v 4, bit (v 3), v 2, bit (v 1), bit (v 0)⟩⟩,
  ⟨1, fmtW 0 0x1e 15 [pf 26 2, pf 20 6, pf 14 6, pf 8 6], fun v => .vsubsN (v 0) (v 1) (v 2) (v 3) Pfx.none⟩]

/-- Rows 180 to 191 of the encodings (R181 to R183). -/
def rows15 : List OpRow := [
  ⟨2, pfxWord ++ fmtW 32 0x1e 15 [pf 58 2, pf 52 6, pf 46 6, pf 40 6], fun v => .vsubsN (v 6) (v 7) (v 8) (v 9) ⟨true, v 5, v 4, bit (v 3), v 2, bit (v 1), bit (v 0)⟩⟩,
  ⟨1, fmtW 0 0x1f 0 [pf 26 2, pf 20 6, pf 14 6, pf 8 6], fun v => .vcmpEq (v 0) (v 1) (v 2) (v 3) Pfx.none⟩,
  ⟨2, pfxWord ++ fmtW 32 0x1f 0 [pf 58 2, pf 52 6, pf 46 6, pf 40 6], fun v => .vcmpEq (v 6) (v 7) (v 8) (v 9) ⟨true, v 5, v 4, bit (v 3), v 2, bit (v 1), bit (v 0)⟩⟩,
  ⟨1, fmtW 0 0x1f 1 [pf 26 2, pf 20 6, pf 14 6, pf 8 6], fun v => .vcmpNe (v 0) (v 1) (v 2) (v 3) Pfx.none⟩,
  ⟨2, pfxWord ++ fmtW 32 0x1f 1 [pf 58 2, pf 52 6, pf 46 6, pf 40 6], fun v => .vcmpNe (v 6) (v 7) (v 8) (v 9) ⟨true, v 5, v 4, bit (v 3), v 2, bit (v 1), bit (v 0)⟩⟩,
  ⟨1, fmtW 0 0x1f 2 [pf 26 2, pf 20 6, pf 14 6, pf 8 6], fun v => .vcmpLtI (v 0) (v 1) (v 2) (v 3) Pfx.none⟩,
  ⟨2, pfxWord ++ fmtW 32 0x1f 2 [pf 58 2, pf 52 6, pf 46 6, pf 40 6], fun v => .vcmpLtI (v 6) (v 7) (v 8) (v 9) ⟨true, v 5, v 4, bit (v 3), v 2, bit (v 1), bit (v 0)⟩⟩,
  ⟨1, fmtW 0 0x1f 3 [pf 26 2, pf 20 6, pf 14 6, pf 8 6], fun v => .vcmpLtN (v 0) (v 1) (v 2) (v 3) Pfx.none⟩,
  ⟨2, pfxWord ++ fmtW 32 0x1f 3 [pf 58 2, pf 52 6, pf 46 6, pf 40 6], fun v => .vcmpLtN (v 6) (v 7) (v 8) (v 9) ⟨true, v 5, v 4, bit (v 3), v 2, bit (v 1), bit (v 0)⟩⟩,
  ⟨1, fmtW 0 0x1f 4 [pf 26 2, pf 20 6, pf 14 6, pf 8 6], fun v => .vcmpGeI (v 0) (v 1) (v 2) (v 3) Pfx.none⟩,
  ⟨2, pfxWord ++ fmtW 32 0x1f 4 [pf 58 2, pf 52 6, pf 46 6, pf 40 6], fun v => .vcmpGeI (v 6) (v 7) (v 8) (v 9) ⟨true, v 5, v 4, bit (v 3), v 2, bit (v 1), bit (v 0)⟩⟩,
  ⟨1, fmtW 0 0x1f 5 [pf 26 2, pf 20 6, pf 14 6, pf 8 6], fun v => .vcmpGeN (v 0) (v 1) (v 2) (v 3) Pfx.none⟩]

/-- Rows 192 to 203 of the encodings (R181 to R183). -/
def rows16 : List OpRow := [
  ⟨2, pfxWord ++ fmtW 32 0x1f 5 [pf 58 2, pf 52 6, pf 46 6, pf 40 6], fun v => .vcmpGeN (v 6) (v 7) (v 8) (v 9) ⟨true, v 5, v 4, bit (v 3), v 2, bit (v 1), bit (v 0)⟩⟩,
  ⟨1, fmtW 0 0x1f 6 [cf 26 2 2, pf 20 6, pf 14 6, pf 8 6], fun v => .vcmpFeq (v 0) (v 1) (v 2) Pfx.none⟩,
  ⟨2, pfxWord ++ fmtW 32 0x1f 6 [cf 58 2 2, pf 52 6, pf 46 6, pf 40 6], fun v => .vcmpFeq (v 6) (v 7) (v 8) ⟨true, v 5, v 4, bit (v 3), v 2, bit (v 1), bit (v 0)⟩⟩,
  ⟨1, fmtW 0 0x1f 7 [cf 26 2 2, pf 20 6, pf 14 6, pf 8 6], fun v => .vcmpFne (v 0) (v 1) (v 2) Pfx.none⟩,
  ⟨2, pfxWord ++ fmtW 32 0x1f 7 [cf 58 2 2, pf 52 6, pf 46 6, pf 40 6], fun v => .vcmpFne (v 6) (v 7) (v 8) ⟨true, v 5, v 4, bit (v 3), v 2, bit (v 1), bit (v 0)⟩⟩,
  ⟨1, fmtW 0 0x1f 8 [cf 26 2 2, pf 20 6, pf 14 6, pf 8 6], fun v => .vcmpFlt (v 0) (v 1) (v 2) Pfx.none⟩,
  ⟨2, pfxWord ++ fmtW 32 0x1f 8 [cf 58 2 2, pf 52 6, pf 46 6, pf 40 6], fun v => .vcmpFlt (v 6) (v 7) (v 8) ⟨true, v 5, v 4, bit (v 3), v 2, bit (v 1), bit (v 0)⟩⟩,
  ⟨1, fmtW 0 0x1f 9 [cf 26 2 2, pf 20 6, pf 14 6, pf 8 6], fun v => .vcmpFle (v 0) (v 1) (v 2) Pfx.none⟩,
  ⟨2, pfxWord ++ fmtW 32 0x1f 9 [cf 58 2 2, pf 52 6, pf 46 6, pf 40 6], fun v => .vcmpFle (v 6) (v 7) (v 8) ⟨true, v 5, v 4, bit (v 3), v 2, bit (v 1), bit (v 0)⟩⟩,
  ⟨1, fmtW 0 0x1f 10 [cf 26 2 2, pf 20 6, pf 14 6, pf 8 6], fun v => .vcmpFun (v 0) (v 1) (v 2) Pfx.none⟩,
  ⟨2, pfxWord ++ fmtW 32 0x1f 10 [cf 58 2 2, pf 52 6, pf 46 6, pf 40 6], fun v => .vcmpFun (v 6) (v 7) (v 8) ⟨true, v 5, v 4, bit (v 3), v 2, bit (v 1), bit (v 0)⟩⟩,
  ⟨1, fmtA 0 0x20 0 [pf 20 6, pf 14 6, pf 8 6], fun v => .vfaddF32 (v 0) (v 1) (v 2) Pfx.none⟩]

/-- Rows 204 to 215 of the encodings (R181 to R183). -/
def rows17 : List OpRow := [
  ⟨2, pfxWord ++ fmtA 32 0x20 0 [pf 52 6, pf 46 6, pf 40 6], fun v => .vfaddF32 (v 6) (v 7) (v 8) ⟨true, v 5, v 4, bit (v 3), v 2, bit (v 1), bit (v 0)⟩⟩,
  ⟨1, fmtA 0 0x20 1 [pf 20 6, pf 14 6, pf 8 6], fun v => .vfsubF32 (v 0) (v 1) (v 2) Pfx.none⟩,
  ⟨2, pfxWord ++ fmtA 32 0x20 1 [pf 52 6, pf 46 6, pf 40 6], fun v => .vfsubF32 (v 6) (v 7) (v 8) ⟨true, v 5, v 4, bit (v 3), v 2, bit (v 1), bit (v 0)⟩⟩,
  ⟨1, fmtA 0 0x20 2 [pf 20 6, pf 14 6, pf 8 6], fun v => .vfmulF32 (v 0) (v 1) (v 2) Pfx.none⟩,
  ⟨2, pfxWord ++ fmtA 32 0x20 2 [pf 52 6, pf 46 6, pf 40 6], fun v => .vfmulF32 (v 6) (v 7) (v 8) ⟨true, v 5, v 4, bit (v 3), v 2, bit (v 1), bit (v 0)⟩⟩,
  ⟨1, fmtA 0 0x20 3 [pf 20 6, pf 14 6, pf 8 6], fun v => .vfmaF32 (v 0) (v 1) (v 2) Pfx.none⟩,
  ⟨2, pfxWord ++ fmtA 32 0x20 3 [pf 52 6, pf 46 6, pf 40 6], fun v => .vfmaF32 (v 6) (v 7) (v 8) ⟨true, v 5, v 4, bit (v 3), v 2, bit (v 1), bit (v 0)⟩⟩,
  ⟨1, fmtA 0 0x20 4 [pf 20 6, pf 14 6, pf 8 6], fun v => .vfminF32 (v 0) (v 1) (v 2) Pfx.none⟩,
  ⟨2, pfxWord ++ fmtA 32 0x20 4 [pf 52 6, pf 46 6, pf 40 6], fun v => .vfminF32 (v 6) (v 7) (v 8) ⟨true, v 5, v 4, bit (v 3), v 2, bit (v 1), bit (v 0)⟩⟩,
  ⟨1, fmtA 0 0x20 5 [pf 20 6, pf 14 6, pf 8 6], fun v => .vfmaxF32 (v 0) (v 1) (v 2) Pfx.none⟩,
  ⟨2, pfxWord ++ fmtA 32 0x20 5 [pf 52 6, pf 46 6, pf 40 6], fun v => .vfmaxF32 (v 6) (v 7) (v 8) ⟨true, v 5, v 4, bit (v 3), v 2, bit (v 1), bit (v 0)⟩⟩,
  ⟨1, fmtA 0 0x20 6 [pf 20 6, pf 14 6, rf 8 6], fun v => .vfabsF32 (v 0) (v 1) Pfx.none⟩]

/-- Rows 216 to 227 of the encodings (R181 to R183). -/
def rows18 : List OpRow := [
  ⟨2, pfxWord ++ fmtA 32 0x20 6 [pf 52 6, pf 46 6, rf 40 6], fun v => .vfabsF32 (v 6) (v 7) ⟨true, v 5, v 4, bit (v 3), v 2, bit (v 1), bit (v 0)⟩⟩,
  ⟨1, fmtA 0 0x20 7 [pf 20 6, pf 14 6, rf 8 6], fun v => .vfnegF32 (v 0) (v 1) Pfx.none⟩,
  ⟨2, pfxWord ++ fmtA 32 0x20 7 [pf 52 6, pf 46 6, rf 40 6], fun v => .vfnegF32 (v 6) (v 7) ⟨true, v 5, v 4, bit (v 3), v 2, bit (v 1), bit (v 0)⟩⟩,
  ⟨1, fmtA 0 0x20 8 [pf 20 6, pf 14 6, rf 8 6], fun v => .vcvtF32I32 (v 0) (v 1) Pfx.none⟩,
  ⟨2, pfxWord ++ fmtA 32 0x20 8 [pf 52 6, pf 46 6, rf 40 6], fun v => .vcvtF32I32 (v 6) (v 7) ⟨true, v 5, v 4, bit (v 3), v 2, bit (v 1), bit (v 0)⟩⟩,
  ⟨1, fmtA 0 0x20 9 [pf 20 6, pf 14 6, rf 8 6], fun v => .vcvtI32F32 (v 0) (v 1) Pfx.none⟩,
  ⟨2, pfxWord ++ fmtA 32 0x20 9 [pf 52 6, pf 46 6, rf 40 6], fun v => .vcvtI32F32 (v 6) (v 7) ⟨true, v 5, v 4, bit (v 3), v 2, bit (v 1), bit (v 0)⟩⟩,
  ⟨1, fmtA 0 0x20 10 [pf 20 6, pf 14 6, rf 8 6], fun v => .vcvtF32N32 (v 0) (v 1) Pfx.none⟩,
  ⟨2, pfxWord ++ fmtA 32 0x20 10 [pf 52 6, pf 46 6, rf 40 6], fun v => .vcvtF32N32 (v 6) (v 7) ⟨true, v 5, v 4, bit (v 3), v 2, bit (v 1), bit (v 0)⟩⟩,
  ⟨1, fmtA 0 0x20 11 [pf 20 6, pf 14 6, rf 8 6], fun v => .vcvtN32F32 (v 0) (v 1) Pfx.none⟩,
  ⟨2, pfxWord ++ fmtA 32 0x20 11 [pf 52 6, pf 46 6, rf 40 6], fun v => .vcvtN32F32 (v 6) (v 7) ⟨true, v 5, v 4, bit (v 3), v 2, bit (v 1), bit (v 0)⟩⟩,
  ⟨1, fmtA 0 0x20 12 [pf 20 6, pf 14 6, rf 8 6], fun v => .vcvtB16F32 (v 0) (v 1) Pfx.none⟩]

/-- Rows 228 to 239 of the encodings (R181 to R183). -/
def rows19 : List OpRow := [
  ⟨2, pfxWord ++ fmtA 32 0x20 12 [pf 52 6, pf 46 6, rf 40 6], fun v => .vcvtB16F32 (v 6) (v 7) ⟨true, v 5, v 4, bit (v 3), v 2, bit (v 1), bit (v 0)⟩⟩,
  ⟨1, fmtA 0 0x20 13 [pf 20 6, pf 14 6, rf 8 6], fun v => .vcvtF32B16 (v 0) (v 1) Pfx.none⟩,
  ⟨2, pfxWord ++ fmtA 32 0x20 13 [pf 52 6, pf 46 6, rf 40 6], fun v => .vcvtF32B16 (v 6) (v 7) ⟨true, v 5, v 4, bit (v 3), v 2, bit (v 1), bit (v 0)⟩⟩,
  ⟨1, fmtA 0 0x21 0 [pf 20 6, pf 14 6, rf 8 6], fun v => .vmov (v 0) (v 1) Pfx.none⟩,
  ⟨2, pfxWord ++ fmtA 32 0x21 0 [pf 52 6, pf 46 6, rf 40 6], fun v => .vmov (v 6) (v 7) ⟨true, v 5, v 4, bit (v 3), v 2, bit (v 1), bit (v 0)⟩⟩,
  ⟨1, fmtA 0 0x21 1 [pf 20 6, pf 14 6, pf 8 6], fun v => .vsplat (v 0) (v 1) (v 2) Pfx.none⟩,
  ⟨2, pfxWord ++ fmtA 32 0x21 1 [pf 52 6, pf 46 6, pf 40 6], fun v => .vsplat (v 6) (v 7) (v 8) ⟨true, v 5, v 4, bit (v 3), v 2, bit (v 1), bit (v 0)⟩⟩,
  ⟨1, fmtA 0 0x21 2 [pf 20 6, pf 14 6, pf 8 6], fun v => .vrun (v 0) (v 1) (v 2) Pfx.none⟩,
  ⟨2, pfxWord ++ fmtA 32 0x21 2 [pf 52 6, pf 46 6, pf 40 6], fun v => .vrun (v 6) (v 7) (v 8) ⟨true, v 5, v 4, bit (v 3), v 2, bit (v 1), bit (v 0)⟩⟩,
  ⟨1, fmtA 0 0x21 3 [pf 20 6, pf 14 6, pf 8 6], fun v => .vsel (v 0) (v 1) (v 2) Pfx.none⟩,
  ⟨2, pfxWord ++ fmtA 32 0x21 3 [pf 52 6, pf 46 6, pf 40 6], fun v => .vsel (v 6) (v 7) (v 8) ⟨true, v 5, v 4, bit (v 3), v 2, bit (v 1), bit (v 0)⟩⟩,
  ⟨1, fmtA 0 0x21 4 [pf 20 6, pf 14 6, rf 8 6], fun v => .vcoal (v 0) (v 1) Pfx.none⟩]

/-- Rows 240 to 251 of the encodings (R181 to R183). -/
def rows20 : List OpRow := [
  ⟨2, pfxWord ++ fmtA 32 0x21 4 [pf 52 6, pf 46 6, rf 40 6], fun v => .vcoal (v 6) (v 7) ⟨true, v 5, v 4, bit (v 3), v 2, bit (v 1), bit (v 0)⟩⟩,
  ⟨1, fmtA 0 0x21 5 [pf 20 6, pf 14 6, pf 8 6], fun v => .viota (v 0) (v 1) (v 2) Pfx.none⟩,
  ⟨2, pfxWord ++ fmtA 32 0x21 5 [pf 52 6, pf 46 6, pf 40 6], fun v => .viota (v 6) (v 7) (v 8) ⟨true, v 5, v 4, bit (v 3), v 2, bit (v 1), bit (v 0)⟩⟩,
  ⟨1, fmtA 0 0x21 6 [pf 20 6, pf 14 6, rf 8 6], fun v => .vcomp (v 0) (v 1) Pfx.none⟩,
  ⟨2, pfxWord ++ fmtA 32 0x21 6 [pf 52 6, pf 46 6, rf 40 6], fun v => .vcomp (v 6) (v 7) ⟨true, v 5, v 4, bit (v 3), v 2, bit (v 1), bit (v 0)⟩⟩,
  ⟨1, fmtA 0 0x21 7 [pf 20 6, pf 14 6, rf 8 6], fun v => .vexp (v 0) (v 1) Pfx.none⟩,
  ⟨2, pfxWord ++ fmtA 32 0x21 7 [pf 52 6, pf 46 6, rf 40 6], fun v => .vexp (v 6) (v 7) ⟨true, v 5, v 4, bit (v 3), v 2, bit (v 1), bit (v 0)⟩⟩,
  ⟨1, fmtA 0 0x21 8 [pf 20 6, pf 14 6, pf 8 6], fun v => .vrsumI32 (v 0) (v 1) (v 2) Pfx.none⟩,
  ⟨2, pfxWord ++ fmtA 32 0x21 8 [pf 52 6, pf 46 6, pf 40 6], fun v => .vrsumI32 (v 6) (v 7) (v 8) ⟨true, v 5, v 4, bit (v 3), v 2, bit (v 1), bit (v 0)⟩⟩,
  ⟨1, fmtA 0 0x21 9 [pf 20 6, pf 14 6, pf 8 6], fun v => .vrsumF32 (v 0) (v 1) (v 2) Pfx.none⟩,
  ⟨2, pfxWord ++ fmtA 32 0x21 9 [pf 52 6, pf 46 6, pf 40 6], fun v => .vrsumF32 (v 6) (v 7) (v 8) ⟨true, v 5, v 4, bit (v 3), v 2, bit (v 1), bit (v 0)⟩⟩,
  ⟨1, fmtA 0 0x21 10 [pf 20 6, pf 14 6, pf 8 6], fun v => .vrminI32 (v 0) (v 1) (v 2) Pfx.none⟩]

/-- Rows 252 to 263 of the encodings (R181 to R183). -/
def rows21 : List OpRow := [
  ⟨2, pfxWord ++ fmtA 32 0x21 10 [pf 52 6, pf 46 6, pf 40 6], fun v => .vrminI32 (v 6) (v 7) (v 8) ⟨true, v 5, v 4, bit (v 3), v 2, bit (v 1), bit (v 0)⟩⟩,
  ⟨1, fmtA 0 0x21 11 [pf 20 6, pf 14 6, pf 8 6], fun v => .vrminN32 (v 0) (v 1) (v 2) Pfx.none⟩,
  ⟨2, pfxWord ++ fmtA 32 0x21 11 [pf 52 6, pf 46 6, pf 40 6], fun v => .vrminN32 (v 6) (v 7) (v 8) ⟨true, v 5, v 4, bit (v 3), v 2, bit (v 1), bit (v 0)⟩⟩,
  ⟨1, fmtA 0 0x21 12 [pf 20 6, pf 14 6, pf 8 6], fun v => .vrminF32 (v 0) (v 1) (v 2) Pfx.none⟩,
  ⟨2, pfxWord ++ fmtA 32 0x21 12 [pf 52 6, pf 46 6, pf 40 6], fun v => .vrminF32 (v 6) (v 7) (v 8) ⟨true, v 5, v 4, bit (v 3), v 2, bit (v 1), bit (v 0)⟩⟩,
  ⟨1, fmtA 0 0x21 13 [pf 20 6, pf 14 6, pf 8 6], fun v => .vrmaxI32 (v 0) (v 1) (v 2) Pfx.none⟩,
  ⟨2, pfxWord ++ fmtA 32 0x21 13 [pf 52 6, pf 46 6, pf 40 6], fun v => .vrmaxI32 (v 6) (v 7) (v 8) ⟨true, v 5, v 4, bit (v 3), v 2, bit (v 1), bit (v 0)⟩⟩,
  ⟨1, fmtA 0 0x21 14 [pf 20 6, pf 14 6, pf 8 6], fun v => .vrmaxN32 (v 0) (v 1) (v 2) Pfx.none⟩,
  ⟨2, pfxWord ++ fmtA 32 0x21 14 [pf 52 6, pf 46 6, pf 40 6], fun v => .vrmaxN32 (v 6) (v 7) (v 8) ⟨true, v 5, v 4, bit (v 3), v 2, bit (v 1), bit (v 0)⟩⟩,
  ⟨1, fmtA 0 0x21 15 [pf 20 6, pf 14 6, pf 8 6], fun v => .vrmaxF32 (v 0) (v 1) (v 2) Pfx.none⟩,
  ⟨2, pfxWord ++ fmtA 32 0x21 15 [pf 52 6, pf 46 6, pf 40 6], fun v => .vrmaxF32 (v 6) (v 7) (v 8) ⟨true, v 5, v 4, bit (v 3), v 2, bit (v 1), bit (v 0)⟩⟩,
  ⟨1, fmtA 0 0x21 16 [pf 20 6, pf 14 6, pf 8 6], fun v => .vrand (v 0) (v 1) (v 2) Pfx.none⟩]

/-- Rows 264 to 275 of the encodings (R181 to R183). -/
def rows22 : List OpRow := [
  ⟨2, pfxWord ++ fmtA 32 0x21 16 [pf 52 6, pf 46 6, pf 40 6], fun v => .vrand (v 6) (v 7) (v 8) ⟨true, v 5, v 4, bit (v 3), v 2, bit (v 1), bit (v 0)⟩⟩,
  ⟨1, fmtA 0 0x21 17 [pf 20 6, pf 14 6, pf 8 6], fun v => .vror (v 0) (v 1) (v 2) Pfx.none⟩,
  ⟨2, pfxWord ++ fmtA 32 0x21 17 [pf 52 6, pf 46 6, pf 40 6], fun v => .vror (v 6) (v 7) (v 8) ⟨true, v 5, v 4, bit (v 3), v 2, bit (v 1), bit (v 0)⟩⟩,
  ⟨1, fmtA 0 0x21 18 [pf 20 6, pf 14 6, pf 8 6], fun v => .vrxor (v 0) (v 1) (v 2) Pfx.none⟩,
  ⟨2, pfxWord ++ fmtA 32 0x21 18 [pf 52 6, pf 46 6, pf 40 6], fun v => .vrxor (v 6) (v 7) (v 8) ⟨true, v 5, v 4, bit (v 3), v 2, bit (v 1), bit (v 0)⟩⟩,
  ⟨1, fmtA 0 0x21 19 [pf 20 6, pf 14 6, pf 8 6], fun v => .vssumI32 (v 0) (v 1) (v 2) Pfx.none⟩,
  ⟨2, pfxWord ++ fmtA 32 0x21 19 [pf 52 6, pf 46 6, pf 40 6], fun v => .vssumI32 (v 6) (v 7) (v 8) ⟨true, v 5, v 4, bit (v 3), v 2, bit (v 1), bit (v 0)⟩⟩,
  ⟨1, fmtA 0 0x21 20 [pf 20 6, pf 14 6, pf 8 6], fun v => .vssumF32 (v 0) (v 1) (v 2) Pfx.none⟩,
  ⟨2, pfxWord ++ fmtA 32 0x21 20 [pf 52 6, pf 46 6, pf 40 6], fun v => .vssumF32 (v 6) (v 7) (v 8) ⟨true, v 5, v 4, bit (v 3), v 2, bit (v 1), bit (v 0)⟩⟩,
  ⟨1, fmtA 0 0x21 21 [pf 20 6, pf 14 6, pf 8 6], fun v => .vsminI32 (v 0) (v 1) (v 2) Pfx.none⟩,
  ⟨2, pfxWord ++ fmtA 32 0x21 21 [pf 52 6, pf 46 6, pf 40 6], fun v => .vsminI32 (v 6) (v 7) (v 8) ⟨true, v 5, v 4, bit (v 3), v 2, bit (v 1), bit (v 0)⟩⟩,
  ⟨1, fmtA 0 0x21 22 [pf 20 6, pf 14 6, pf 8 6], fun v => .vsmaxI32 (v 0) (v 1) (v 2) Pfx.none⟩]

/-- Rows 276 to 287 of the encodings (R181 to R183). -/
def rows23 : List OpRow := [
  ⟨2, pfxWord ++ fmtA 32 0x21 22 [pf 52 6, pf 46 6, pf 40 6], fun v => .vsmaxI32 (v 6) (v 7) (v 8) ⟨true, v 5, v 4, bit (v 3), v 2, bit (v 1), bit (v 0)⟩⟩,
  ⟨1, fmtA 0 0x21 23 [pf 20 6, pf 14 6, rf 8 6], fun v => .vlen (v 0) (v 1) Pfx.none⟩,
  ⟨2, pfxWord ++ fmtA 32 0x21 23 [pf 52 6, pf 46 6, rf 40 6], fun v => .vlen (v 6) (v 7) ⟨true, v 5, v 4, bit (v 3), v 2, bit (v 1), bit (v 0)⟩⟩,
  ⟨1, fmtA 0 0x21 24 [pf 20 6, pf 14 6, rf 8 6], fun v => .vnrun (v 0) (v 1) Pfx.none⟩,
  ⟨2, pfxWord ++ fmtA 32 0x21 24 [pf 52 6, pf 46 6, rf 40 6], fun v => .vnrun (v 6) (v 7) ⟨true, v 5, v 4, bit (v 3), v 2, bit (v 1), bit (v 0)⟩⟩,
  ⟨1, fmtA 0 0x21 25 [pf 20 6, pf 14 6, pf 8 6], fun v => .vsetlen (v 0) (v 1) (v 2) Pfx.none⟩,
  ⟨2, pfxWord ++ fmtA 32 0x21 25 [pf 52 6, pf 46 6, pf 40 6], fun v => .vsetlen (v 6) (v 7) (v 8) ⟨true, v 5, v 4, bit (v 3), v 2, bit (v 1), bit (v 0)⟩⟩,
  ⟨1, fmtA 0 0x21 26 [pf 20 6, pf 14 6, pf 8 6], fun v => .vtos (v 0) (v 1) (v 2) Pfx.none⟩,
  ⟨2, pfxWord ++ fmtA 32 0x21 26 [pf 52 6, pf 46 6, pf 40 6], fun v => .vtos (v 6) (v 7) (v 8) ⟨true, v 5, v 4, bit (v 3), v 2, bit (v 1), bit (v 0)⟩⟩,
  ⟨1, fmtA 0 0x22 0 [pf 20 6, pf 14 6, pf 8 6], fun v => .kand (v 0) (v 1) (v 2) Pfx.none⟩,
  ⟨2, pfxWord ++ fmtA 32 0x22 0 [pf 52 6, pf 46 6, pf 40 6], fun v => .kand (v 6) (v 7) (v 8) ⟨true, v 5, v 4, bit (v 3), v 2, bit (v 1), bit (v 0)⟩⟩,
  ⟨1, fmtA 0 0x22 1 [pf 20 6, pf 14 6, pf 8 6], fun v => .kor (v 0) (v 1) (v 2) Pfx.none⟩]

/-- Rows 288 to 299 of the encodings (R181 to R183). -/
def rows24 : List OpRow := [
  ⟨2, pfxWord ++ fmtA 32 0x22 1 [pf 52 6, pf 46 6, pf 40 6], fun v => .kor (v 6) (v 7) (v 8) ⟨true, v 5, v 4, bit (v 3), v 2, bit (v 1), bit (v 0)⟩⟩,
  ⟨1, fmtA 0 0x22 2 [pf 20 6, pf 14 6, pf 8 6], fun v => .kxor (v 0) (v 1) (v 2) Pfx.none⟩,
  ⟨2, pfxWord ++ fmtA 32 0x22 2 [pf 52 6, pf 46 6, pf 40 6], fun v => .kxor (v 6) (v 7) (v 8) ⟨true, v 5, v 4, bit (v 3), v 2, bit (v 1), bit (v 0)⟩⟩,
  ⟨1, fmtA 0 0x22 3 [pf 20 6, pf 14 6, pf 8 6], fun v => .kandn (v 0) (v 1) (v 2) Pfx.none⟩,
  ⟨2, pfxWord ++ fmtA 32 0x22 3 [pf 52 6, pf 46 6, pf 40 6], fun v => .kandn (v 6) (v 7) (v 8) ⟨true, v 5, v 4, bit (v 3), v 2, bit (v 1), bit (v 0)⟩⟩,
  ⟨1, fmtA 0 0x22 4 [pf 20 6, pf 14 6, rf 8 6], fun v => .knot (v 0) (v 1) Pfx.none⟩,
  ⟨2, pfxWord ++ fmtA 32 0x22 4 [pf 52 6, pf 46 6, rf 40 6], fun v => .knot (v 6) (v 7) ⟨true, v 5, v 4, bit (v 3), v 2, bit (v 1), bit (v 0)⟩⟩,
  ⟨1, fmtA 0 0x22 5 [pf 20 6, pf 14 6, rf 8 6], fun v => .kmov (v 0) (v 1) Pfx.none⟩,
  ⟨2, pfxWord ++ fmtA 32 0x22 5 [pf 52 6, pf 46 6, rf 40 6], fun v => .kmov (v 6) (v 7) ⟨true, v 5, v 4, bit (v 3), v 2, bit (v 1), bit (v 0)⟩⟩,
  ⟨1, fmtA 0 0x22 6 [pf 20 6, pf 14 6, pf 8 6], fun v => .kpxor (v 0) (v 1) (v 2) Pfx.none⟩,
  ⟨2, pfxWord ++ fmtA 32 0x22 6 [pf 52 6, pf 46 6, pf 40 6], fun v => .kpxor (v 6) (v 7) (v 8) ⟨true, v 5, v 4, bit (v 3), v 2, bit (v 1), bit (v 0)⟩⟩,
  ⟨1, fmtA 0 0x22 7 [pf 20 6, pf 14 6, pf 8 6], fun v => .ktos (v 0) (v 1) (v 2) Pfx.none⟩]

/-- Rows 300 to 311 of the encodings (R181 to R183). -/
def rows25 : List OpRow := [
  ⟨2, pfxWord ++ fmtA 32 0x22 7 [pf 52 6, pf 46 6, pf 40 6], fun v => .ktos (v 6) (v 7) (v 8) ⟨true, v 5, v 4, bit (v 3), v 2, bit (v 1), bit (v 0)⟩⟩,
  ⟨1, fmtA 0 0x22 8 [pf 20 6, pf 14 6, pf 8 6], fun v => .stok (v 0) (v 1) (v 2) Pfx.none⟩,
  ⟨2, pfxWord ++ fmtA 32 0x22 8 [pf 52 6, pf 46 6, pf 40 6], fun v => .stok (v 6) (v 7) (v 8) ⟨true, v 5, v 4, bit (v 3), v 2, bit (v 1), bit (v 0)⟩⟩,
  ⟨1, fmtA 0 0x22 9 [pf 20 6, pf 14 6, rf 8 6], fun v => .kpopc (v 0) (v 1) Pfx.none⟩,
  ⟨2, pfxWord ++ fmtA 32 0x22 9 [pf 52 6, pf 46 6, rf 40 6], fun v => .kpopc (v 6) (v 7) ⟨true, v 5, v 4, bit (v 3), v 2, bit (v 1), bit (v 0)⟩⟩,
  ⟨1, fmtA 0 0x22 10 [pf 20 6, pf 14 6, rf 8 6], fun v => .klen (v 0) (v 1) Pfx.none⟩,
  ⟨2, pfxWord ++ fmtA 32 0x22 10 [pf 52 6, pf 46 6, rf 40 6], fun v => .klen (v 6) (v 7) ⟨true, v 5, v 4, bit (v 3), v 2, bit (v 1), bit (v 0)⟩⟩,
  ⟨3, [kf 0 2 2, kf 2 6 35, kf 26 6 0, pf 20 6, pf 14 6, pf 8 6, pf 41 2, pf 38 3, pf 37 1, rf 35 2, rf 32 3, pf 45 2, pf 43 2] ++ extWord ++ [pf 64 32], fun v => .vld (v 0) (v 1) (v 2) (v 3) (v 4) (bit (v 5)) ⟨v 6, v 7, .disp (BitVec.ofNat 32 (v 15))⟩ ⟨v 8, v 9, v 10, v 11, bit (v 12), v 13, bit (v 14)⟩⟩,
  ⟨5, [kf 0 2 3, kf 2 6 35, kf 26 6 0, pf 20 6, pf 14 6, pf 8 6, pf 41 2, pf 38 3, pf 37 1, rf 35 2, rf 32 3, pf 45 2, pf 43 2] ++ extWord ++ [zf 64 32, pf 96 64], fun v => .vld (v 0) (v 1) (v 2) (v 3) (v 4) (bit (v 5)) ⟨v 6, v 7, .lit (BitVec.ofNat 64 (v 15))⟩ ⟨v 8, v 9, v 10, v 11, bit (v 12), v 13, bit (v 14)⟩⟩,
  ⟨3, [kf 0 2 2, kf 2 6 35, kf 26 6 1, pf 20 6, pf 14 6, rf 8 6, pf 41 2, pf 38 3, rf 37 1, rf 35 2, rf 32 3, pf 45 2, pf 43 2] ++ extWord ++ [pf 64 32], fun v => .vst (v 0) (v 1) (v 2) (v 3) ⟨v 4, v 5, .disp (BitVec.ofNat 32 (v 13))⟩ ⟨v 6, v 7, v 8, v 9, bit (v 10), v 11, bit (v 12)⟩⟩,
  ⟨5, [kf 0 2 3, kf 2 6 35, kf 26 6 1, pf 20 6, pf 14 6, rf 8 6, pf 41 2, pf 38 3, rf 37 1, rf 35 2, rf 32 3, pf 45 2, pf 43 2] ++ extWord ++ [zf 64 32, pf 96 64], fun v => .vst (v 0) (v 1) (v 2) (v 3) ⟨v 4, v 5, .lit (BitVec.ofNat 64 (v 13))⟩ ⟨v 6, v 7, v 8, v 9, bit (v 10), v 11, bit (v 12)⟩⟩,
  ⟨3, [kf 0 2 2, kf 2 6 35, kf 26 6 2, pf 20 6, pf 14 6, pf 8 6, rf 41 2, rf 38 3, rf 37 1, rf 35 2, rf 32 3, pf 45 2, pf 43 2] ++ extWord ++ [pf 64 32], fun v => .vldr (v 0) (v 1) (v 2) ⟨v 3, v 4, .disp (BitVec.ofNat 32 (v 12))⟩ ⟨v 5, v 6, v 7, v 8, bit (v 9), v 10, bit (v 11)⟩⟩]

/-- Rows 312 to 323 of the encodings (R181 to R183). -/
def rows26 : List OpRow := [
  ⟨5, [kf 0 2 3, kf 2 6 35, kf 26 6 2, pf 20 6, pf 14 6, pf 8 6, rf 41 2, rf 38 3, rf 37 1, rf 35 2, rf 32 3, pf 45 2, pf 43 2] ++ extWord ++ [zf 64 32, pf 96 64], fun v => .vldr (v 0) (v 1) (v 2) ⟨v 3, v 4, .lit (BitVec.ofNat 64 (v 12))⟩ ⟨v 5, v 6, v 7, v 8, bit (v 9), v 10, bit (v 11)⟩⟩,
  ⟨3, [kf 0 2 2, kf 2 6 35, kf 26 6 3, pf 20 6, pf 14 6, rf 8 6, rf 41 2, rf 38 3, rf 37 1, rf 35 2, rf 32 3, pf 45 2, pf 43 2] ++ extWord ++ [pf 64 32], fun v => .vstr (v 0) (v 1) ⟨v 2, v 3, .disp (BitVec.ofNat 32 (v 11))⟩ ⟨v 4, v 5, v 6, v 7, bit (v 8), v 9, bit (v 10)⟩⟩,
  ⟨5, [kf 0 2 3, kf 2 6 35, kf 26 6 3, pf 20 6, pf 14 6, rf 8 6, rf 41 2, rf 38 3, rf 37 1, rf 35 2, rf 32 3, pf 45 2, pf 43 2] ++ extWord ++ [zf 64 32, pf 96 64], fun v => .vstr (v 0) (v 1) ⟨v 2, v 3, .lit (BitVec.ofNat 64 (v 11))⟩ ⟨v 4, v 5, v 6, v 7, bit (v 8), v 9, bit (v 10)⟩⟩,
  ⟨3, [kf 0 2 2, kf 2 6 35, kf 26 6 4, pf 20 6, pf 14 6, pf 8 6, pf 41 2, pf 38 3, pf 37 1, pf 35 2, rf 32 3, pf 45 2, pf 43 2] ++ extWord ++ [pf 64 32], fun v => .vgath (v 0) (v 1) (v 2) (v 3) (v 4) (bit (v 5)) (v 6) ⟨v 7, v 8, .disp (BitVec.ofNat 32 (v 16))⟩ ⟨v 9, v 10, v 11, v 12, bit (v 13), v 14, bit (v 15)⟩⟩,
  ⟨5, [kf 0 2 3, kf 2 6 35, kf 26 6 4, pf 20 6, pf 14 6, pf 8 6, pf 41 2, pf 38 3, pf 37 1, pf 35 2, rf 32 3, pf 45 2, pf 43 2] ++ extWord ++ [zf 64 32, pf 96 64], fun v => .vgath (v 0) (v 1) (v 2) (v 3) (v 4) (bit (v 5)) (v 6) ⟨v 7, v 8, .lit (BitVec.ofNat 64 (v 16))⟩ ⟨v 9, v 10, v 11, v 12, bit (v 13), v 14, bit (v 15)⟩⟩,
  ⟨3, [kf 0 2 2, kf 2 6 35, kf 26 6 5, pf 20 6, pf 14 6, pf 8 6, pf 41 2, pf 38 3, rf 37 1, pf 35 2, rf 32 3, pf 45 2, pf 43 2] ++ extWord ++ [pf 64 32], fun v => .vscat (v 0) (v 1) (v 2) (v 3) (v 4) (v 5) ⟨v 6, v 7, .disp (BitVec.ofNat 32 (v 15))⟩ ⟨v 8, v 9, v 10, v 11, bit (v 12), v 13, bit (v 14)⟩⟩,
  ⟨5, [kf 0 2 3, kf 2 6 35, kf 26 6 5, pf 20 6, pf 14 6, pf 8 6, pf 41 2, pf 38 3, rf 37 1, pf 35 2, rf 32 3, pf 45 2, pf 43 2] ++ extWord ++ [zf 64 32, pf 96 64], fun v => .vscat (v 0) (v 1) (v 2) (v 3) (v 4) (v 5) ⟨v 6, v 7, .lit (BitVec.ofNat 64 (v 15))⟩ ⟨v 8, v 9, v 10, v 11, bit (v 12), v 13, bit (v 14)⟩⟩,
  ⟨3, [kf 0 2 2, kf 2 6 36, kf 26 6 0, pf 20 6, pf 14 6, pf 8 6, pf 41 2, pf 37 4, pf 36 1, rf 32 4, pf 45 2, pf 43 2] ++ extWord ++ [pf 64 32], fun v => .tld (v 0) (v 1) (v 2) (v 3) (v 4) (bit (v 5)) ⟨v 6, v 7, .disp (BitVec.ofNat 32 (v 15))⟩ ⟨v 8, v 9, v 10, v 11, bit (v 12), v 13, bit (v 14)⟩⟩,
  ⟨5, [kf 0 2 3, kf 2 6 36, kf 26 6 0, pf 20 6, pf 14 6, pf 8 6, pf 41 2, pf 37 4, pf 36 1, rf 32 4, pf 45 2, pf 43 2] ++ extWord ++ [zf 64 32, pf 96 64], fun v => .tld (v 0) (v 1) (v 2) (v 3) (v 4) (bit (v 5)) ⟨v 6, v 7, .lit (BitVec.ofNat 64 (v 15))⟩ ⟨v 8, v 9, v 10, v 11, bit (v 12), v 13, bit (v 14)⟩⟩,
  ⟨3, [kf 0 2 2, kf 2 6 36, kf 26 6 1, pf 20 6, pf 14 6, pf 8 6, rf 41 2, rf 37 4, rf 36 1, rf 32 4, pf 45 2, pf 43 2] ++ extWord ++ [pf 64 32], fun v => .tst (v 0) (v 1) (v 2) ⟨v 3, v 4, .disp (BitVec.ofNat 32 (v 12))⟩ ⟨v 5, v 6, v 7, v 8, bit (v 9), v 10, bit (v 11)⟩⟩,
  ⟨5, [kf 0 2 3, kf 2 6 36, kf 26 6 1, pf 20 6, pf 14 6, pf 8 6, rf 41 2, rf 37 4, rf 36 1, rf 32 4, pf 45 2, pf 43 2] ++ extWord ++ [zf 64 32, pf 96 64], fun v => .tst (v 0) (v 1) (v 2) ⟨v 3, v 4, .lit (BitVec.ofNat 64 (v 12))⟩ ⟨v 5, v 6, v 7, v 8, bit (v 9), v 10, bit (v 11)⟩⟩,
  ⟨3, [kf 0 2 2, kf 2 6 37, kf 26 6 0, pf 20 6, rf 14 6, rf 8 6, rf 43 4, pf 41 2, pf 37 4, pf 36 1, rf 32 4] ++ extWord ++ [rf 64 32], fun v => .tzero (v 0) (v 1) (v 2) (bit (v 3)) ⟨v 4, v 5, v 6, v 7, bit (v 8), v 9, bit (v 10)⟩⟩]

/-- Rows 324 to 335 of the encodings (R181 to R183). -/
def rows27 : List OpRow := [
  ⟨3, [kf 0 2 2, kf 2 6 37, kf 26 6 1, pf 20 6, pf 14 6, rf 8 6, rf 43 4, rf 36 7, rf 32 4] ++ extWord ++ [rf 64 32], fun v => .tmov (v 0) (v 1) ⟨v 2, v 3, v 4, v 5, bit (v 6), v 7, bit (v 8)⟩⟩,
  ⟨3, [kf 0 2 2, kf 2 6 37, kf 26 6 2, pf 20 6, rf 14 6, rf 8 6, rf 43 4, rf 36 7, rf 32 4] ++ extWord ++ [rf 64 32], fun v => .trel (v 0) ⟨v 1, v 2, v 3, v 4, bit (v 5), v 6, bit (v 7)⟩⟩,
  ⟨3, [kf 0 2 2, kf 2 6 38, kf 26 6 0, pf 20 6, pf 14 6, pf 8 6, pf 43 4, pf 39 4, pf 38 1, rf 32 6] ++ extWord ++ [pf 85 11, pf 77 8, pf 69 8, rf 64 5], fun v => .mma (v 0) (v 1) (v 2) (v 3) (v 4) (bit (v 5)) (v 13) (v 14) (v 15) ⟨v 6, v 7, v 8, v 9, bit (v 10), v 11, bit (v 12)⟩⟩,
  ⟨3, [kf 0 2 2, kf 2 6 38, kf 26 6 1, pf 20 6, pf 14 6, pf 8 6, pf 43 4, rf 39 4, pf 38 1, rf 32 6] ++ extWord ++ [pf 85 11, pf 77 8, pf 69 8, rf 64 5], fun v => .mmf (v 0) (v 1) (v 2) (v 3) (bit (v 4)) (v 12) (v 13) (v 14) ⟨v 5, v 6, v 7, v 8, bit (v 9), v 10, bit (v 11)⟩⟩,
  ⟨3, [kf 0 2 2, kf 2 6 39, kf 26 6 0, pf 20 6, pf 14 6, pf 8 6, pf 46 1, pf 42 4, rf 32 10] ++ extWord ++ [pf 92 4, pf 84 8, pf 76 8, rf 64 12], fun v => .scac (v 0) (v 1) (v 2) (bit (v 3)) (v 4) (v 12) (v 13) (v 14) ⟨v 5, v 6, v 7, v 8, bit (v 9), v 10, bit (v 11)⟩⟩,
  ⟨3, [kf 0 2 2, kf 2 6 39, kf 26 6 1, pf 20 6, pf 14 6, pf 8 6, rf 46 1, rf 42 4, rf 32 10] ++ extWord ++ [rf 92 4, rf 84 8, rf 76 8, rf 64 12], fun v => .scal (v 0) (v 1) (v 2) ⟨v 3, v 4, v 5, v 6, bit (v 7), v 8, bit (v 9)⟩⟩,
  ⟨3, [kf 0 2 2, kf 2 6 40, kf 26 6 0, pf 20 6, pf 14 6, pf 8 6, pf 43 4, pf 40 3, rf 33 7, pf 32 1] ++ extWord ++ [rf 64 32], fun v => .tadd (v 0) (v 1) (v 2) (v 3) (v 4) (bit (v 5)) ⟨v 6, v 7, v 8, v 9, bit (v 10), v 11, bit (v 12)⟩⟩,
  ⟨3, [kf 0 2 2, kf 2 6 40, kf 26 6 1, pf 20 6, pf 14 6, pf 8 6, pf 43 4, pf 40 3, rf 33 7, pf 32 1] ++ extWord ++ [rf 64 32], fun v => .tsub (v 0) (v 1) (v 2) (v 3) (v 4) (bit (v 5)) ⟨v 6, v 7, v 8, v 9, bit (v 10), v 11, bit (v 12)⟩⟩,
  ⟨3, [kf 0 2 2, kf 2 6 40, kf 26 6 2, pf 20 6, pf 14 6, pf 8 6, pf 43 4, pf 40 3, rf 33 7, pf 32 1] ++ extWord ++ [rf 64 32], fun v => .temul (v 0) (v 1) (v 2) (v 3) (v 4) (bit (v 5)) ⟨v 6, v 7, v 8, v 9, bit (v 10), v 11, bit (v 12)⟩⟩,
  ⟨3, [kf 0 2 2, kf 2 6 40, kf 26 6 3, pf 20 6, pf 14 6, pf 8 6, pf 43 4, pf 40 3, rf 33 7, pf 32 1] ++ extWord ++ [rf 64 32], fun v => .tmax (v 0) (v 1) (v 2) (v 3) (v 4) (bit (v 5)) ⟨v 6, v 7, v 8, v 9, bit (v 10), v 11, bit (v 12)⟩⟩,
  ⟨3, [kf 0 2 2, kf 2 6 40, kf 26 6 4, pf 20 6, pf 14 6, pf 8 6, pf 43 4, pf 40 3, rf 33 7, pf 32 1] ++ extWord ++ [rf 64 32], fun v => .tmin (v 0) (v 1) (v 2) (v 3) (v 4) (bit (v 5)) ⟨v 6, v 7, v 8, v 9, bit (v 10), v 11, bit (v 12)⟩⟩,
  ⟨3, [kf 0 2 2, kf 2 6 40, kf 26 6 5, pf 20 6, pf 14 6, rf 8 6, pf 43 4, pf 40 3, rf 36 4, pf 32 4] ++ extWord ++ [rf 64 32], fun v => .tact (v 0) (v 1) (v 2) (v 3) (v 4) ⟨v 5, v 6, v 7, v 8, bit (v 9), v 10, bit (v 11)⟩⟩]

/-- Rows 336 to 347 of the encodings (R181 to R183). -/
noncomputable def rows28 : List OpRow := [
  ⟨3, [kf 0 2 2, kf 2 6 40, kf 26 6 6, pf 20 6, pf 14 6, rf 8 6, pf 43 4, pf 40 3, pf 36 4, pf 35 1, pf 32 3] ++ extWord ++ [rf 64 32], fun v => .tcvt (v 0) (v 1) (v 2) (v 3) (v 4) (bit (v 5)) (v 6) ⟨v 7, v 8, v 9, v 10, bit (v 11), v 12, bit (v 13)⟩⟩,
  ⟨3, [kf 0 2 2, kf 2 6 40, kf 26 6 7, pf 20 6, pf 14 6, rf 8 6, pf 43 4, rf 40 3, rf 35 5, pf 32 3] ++ extWord ++ [rf 64 32], fun v => .ttrn (v 0) (v 1) (v 2) (v 3) ⟨v 4, v 5, v 6, v 7, bit (v 8), v 9, bit (v 10)⟩⟩,
  ⟨3, [kf 0 2 2, kf 2 6 40, kf 26 6 8, pf 20 6, pf 14 6, rf 8 6, rf 43 4, rf 40 3, pf 36 4, rf 35 1, pf 32 3] ++ extWord ++ [rf 64 32], fun v => .tplane (v 0) (v 1) (v 2) (v 3) ⟨v 4, v 5, v 6, v 7, bit (v 8), v 9, bit (v 10)⟩⟩,
  ⟨3, [kf 0 2 2, kf 2 6 40, kf 26 6 9, pf 20 6, pf 14 6, rf 8 6, pf 43 4, rf 40 3, rf 35 5, pf 34 1, pf 32 2] ++ extWord ++ [rf 64 32], fun v => .tred (v 0) (v 1) (v 2) (bit (v 3)) (v 4) ⟨v 5, v 6, v 7, v 8, bit (v 9), v 10, bit (v 11)⟩⟩,
  ⟨3, [kf 0 2 2, kf 2 6 40, kf 26 6 10, pf 20 6, pf 14 6, rf 8 6, pf 43 4, rf 40 3, rf 35 5, pf 33 2, pf 32 1] ++ extWord ++ [rf 64 32], fun v => .tbcast (v 0) (v 1) (v 2) (v 3) (bit (v 4)) ⟨v 5, v 6, v 7, v 8, bit (v 9), v 10, bit (v 11)⟩⟩,
  ⟨3, [kf 0 2 2, kf 2 6 41, kf 26 6 0, pf 14 6, pf 8 6, pf 45 2, pf 43 2, pf 41 2, pf 39 2, pf 36 3, rf 32 4] ++ extWord ++ [pf 95 1, pf 91 4, pf 83 8, rf 77 6, rf 75 2, rf 73 2, rf 64 9, pf 20 6], fun v => .cpy (.reg (v 17)) (v 0) (v 1) (v 2) (v 3) (v 4) (v 5) (v 6) (bit (v 14)) (v 15) (v 16) ⟨v 7, v 8, v 9, v 10, bit (v 11), v 12, bit (v 13)⟩⟩,
  ⟨5, [kf 0 2 3, kf 2 6 41, kf 26 6 0, pf 14 6, pf 8 6, pf 45 2, pf 43 2, pf 41 2, pf 39 2, pf 36 3, rf 32 4] ++ extWord ++ [pf 95 1, pf 91 4, pf 83 8, rf 77 6, rf 75 2, rf 73 2, rf 64 9, rf 20 6, pf 96 64], fun v => .cpy (.lit (BitVec.ofNat 64 (v 17))) (v 0) (v 1) (v 2) (v 3) (v 4) (v 5) (v 6) (bit (v 14)) (v 15) (v 16) ⟨v 7, v 8, v 9, v 10, bit (v 11), v 12, bit (v 13)⟩⟩,
  ⟨3, [kf 0 2 2, kf 2 6 41, kf 26 6 1, pf 14 6, pf 8 6, pf 45 2, pf 43 2, pf 41 2, pf 39 2, pf 36 3, rf 32 4] ++ extWord ++ [pf 95 1, pf 91 4, pf 83 8, pf 77 6, pf 75 2, pf 73 2, rf 64 9, pf 20 6], fun v => .cpyw (.reg (v 20)) (v 0) (v 1) (v 2) (v 3) (v 4) (v 5) (v 6) (bit (v 14)) (v 15) (v 16) (v 17) (v 18) (v 19) ⟨v 7, v 8, v 9, v 10, bit (v 11), v 12, bit (v 13)⟩⟩,
  ⟨5, [kf 0 2 3, kf 2 6 41, kf 26 6 1, pf 14 6, pf 8 6, pf 45 2, pf 43 2, pf 41 2, pf 39 2, pf 36 3, rf 32 4] ++ extWord ++ [pf 95 1, pf 91 4, pf 83 8, pf 77 6, pf 75 2, pf 73 2, rf 64 9, rf 20 6, pf 96 64], fun v => .cpyw (.lit (BitVec.ofNat 64 (v 20))) (v 0) (v 1) (v 2) (v 3) (v 4) (v 5) (v 6) (bit (v 14)) (v 15) (v 16) (v 17) (v 18) (v 19) ⟨v 7, v 8, v 9, v 10, bit (v 11), v 12, bit (v 13)⟩⟩,
  ⟨3, [kf 0 2 2, kf 2 6 42, kf 26 6 0, rf 20 6, pf 14 6, pf 8 6, pf 43 4, pf 39 4, pf 36 3, pf 32 4] ++ extWord ++ [pf 92 4, pf 88 4, pf 87 1, pf 86 1, pf 83 3, rf 64 19], fun v => .xfm (v 0) (v 1) (v 2) (v 3) (v 4) (v 5) (v 13) (v 14) (bit (v 15)) (bit (v 16)) (v 17) ⟨v 6, v 7, v 8, v 9, bit (v 10), v 11, bit (v 12)⟩⟩,
  ⟨3, [kf 0 2 2, kf 2 6 42, kf 26 6 1, rf 20 6, pf 14 6, rf 8 6, pf 43 4, rf 39 4, pf 36 3, rf 32 4] ++ extWord ++ [rf 64 32], fun v => .layv (v 0) (v 1) (v 2) ⟨v 3, v 4, v 5, v 6, bit (v 7), v 8, bit (v 9)⟩⟩,
  ⟨3, [kf 0 2 2, kf 2 6 43, kf 26 6 0, pf 20 6, pf 14 6, pf 8 6, pf 45 2, pf 43 2, pf 41 2, pf 40 1, rf 39 1, pf 36 3, rf 32 4] ++ extWord ++ [pf 95 1, pf 91 4, pf 83 8, pf 74 9, pf 72 2, pf 70 2, rf 64 6], fun v => .coll (v 0) (v 1) (v 2) (v 3) (v 4) (v 5) (bit (v 6)) (v 7) (bit (v 15)) (v 16) (v 17) (v 18) (v 19) (v 20) ⟨v 8, v 9, v 10, v 11, bit (v 12), v 13, bit (v 14)⟩⟩]

/-- Rows 348 to 359 of the encodings (R181 to R183). -/
noncomputable def rows29 : List OpRow := [
  ⟨1, fmtA 0 0x2c 0 [rf 20 6, pf 14 6, pf 8 6], fun v => .tcwait (v 0) (v 1)⟩,
  ⟨1, fmtA 0 0x2c 1 [pf 20 6, pf 14 6, pf 8 6], fun v => .tcrd (v 0) (v 1) (v 2)⟩,
  ⟨1, fmtA 0 0x2d 0 [pf 20 6, rf 14 6, pf 8 6], fun v => .mrecv (v 0) (v 1)⟩,
  ⟨1, fmtA 0 0x2d 1 [pf 20 1, rf 21 5, pf 14 6, pf 8 6], fun v => .hset (bit (v 0)) (v 1) (v 2)⟩,
  ⟨1, fmtA 0 0x2d 2 [rf 20 6, pf 14 6, rf 8 6], fun v => .join (v 0)⟩,
  ⟨1, fmtA 0 0x2d 3 [rf 20 6, rf 14 6, rf 8 6], fun _ => .yield⟩,
  ⟨1, fmtA 0 0x2d 4 [rf 20 6, rf 14 6, rf 8 6], fun _ => .exit⟩,
  ⟨1, fmtA 0 0x2d 5 [rf 20 6, rf 14 6, rf 8 6], fun _ => .rein⟩,
  ⟨1, fmtA 0 0x2d 6 [pf 20 6, rf 14 6, rf 8 6], fun v => .reinq (v 0)⟩,
  ⟨3, [kf 0 2 2, kf 2 6 46, kf 26 6 0, rf 20 6, pf 14 6, pf 8 6, pf 45 2, pf 39 6, pf 35 4, rf 32 3] ++ extWord ++ [pf 90 6, pf 84 6, pf 78 6, rf 64 14], fun v => .msend (v 0) (v 1) (v 2) (v 3) (v 4) (v 12) (v 13) (v 14) ⟨v 5, v 6, v 7, v 8, bit (v 9), v 10, bit (v 11)⟩⟩,
  ⟨3, [kf 0 2 2, kf 2 6 46, kf 26 6 1, rf 20 6, pf 14 6, pf 8 6, pf 46 1, rf 32 14] ++ extWord ++ [pf 90 6, pf 84 6, rf 64 20], fun v => .fork (v 0) (v 1) (bit (v 2)) (v 10) (v 11) ⟨v 3, v 4, v 5, v 6, bit (v 7), v 8, bit (v 9)⟩⟩,
  ⟨3, [kf 0 2 2, kf 2 6 46, kf 26 6 2, rf 20 6, pf 14 6, pf 8 6, rf 32 15] ++ extWord ++ [pf 90 6, rf 64 26], fun v => .start (v 0) (v 1) (v 9) ⟨v 2, v 3, v 4, v 5, bit (v 6), v 7, bit (v 8)⟩⟩]

/-- Rows 360 to 368 of the encodings (R181 to R183). -/
noncomputable def rows30 : List OpRow := [
  ⟨1, fmtA 0 0x2f 0 [pf 20 6, pf 14 6, pf 8 6], fun v => .sysrd (v 0) (v 1) (v 2)⟩,
  ⟨1, fmtA 0 0x2f 1 [pf 20 6, pf 14 6, pf 8 6], fun v => .syswr (v 0) (v 1) (v 2)⟩,
  ⟨1, fmtA 0 0x2f 2 [rf 20 6, rf 14 6, pf 8 6], fun v => .trap (v 0)⟩,
  ⟨1, fmtA 0 0x2f 3 [rf 20 6, rf 14 6, rf 8 6], fun _ => .eret⟩,
  ⟨1, fmtA 0 0x2f 4 [rf 20 6, pf 14 6, pf 8 3, pf 11 2, rf 13 1], fun v => .bankcfg (v 0) (v 1) (v 2)⟩,
  ⟨1, fmtA 0 0x2f 5 [pf 20 6, rf 14 6, rf 8 6], fun v => .dirrd (v 0)⟩,
  ⟨1, fmtA 0 0x2f 6 [rf 20 6, pf 14 6, rf 8 6], fun v => .dirwr (v 0)⟩,
  ⟨1, fmtA 0 0x2f 7 [pf 20 6, rf 14 6, rf 8 6], fun v => .tick (v 0)⟩,
  ⟨1, fmtA 0 0x2f 8 [rf 20 6, pf 14 6, pf 8 6], fun v => .mark (v 0) (v 1)⟩]

/-- Every form of every instruction (R181 to R183). -/
noncomputable def opRows : List OpRow :=
  rows0 ++ rows1 ++ rows2 ++ rows3 ++ rows4 ++ rows5 ++ rows6 ++ rows7 ++ rows8 ++ rows9 ++ rows10 ++ rows11 ++ rows12 ++ rows13 ++ rows14 ++ rows15 ++ rows16 ++ rows17 ++ rows18 ++ rows19 ++ rows20 ++ rows21 ++ rows22 ++ rows23 ++ rows24 ++ rows25 ++ rows26 ++ rows27 ++ rows28 ++ rows29 ++ rows30

/-- The row of an instruction's own form in `opRows`; of an agent's step, none: past the end. -/
def Instr.rowIdx : Instr → Nat
  | .add _ _ _ => 0
  | .sub _ _ _ => 1
  | .and _ _ _ => 2
  | .or _ _ _ => 3
  | .xor _ _ _ => 4
  | .andn _ _ _ => 5
  | .sll _ _ _ => 6
  | .srl _ _ _ => 7
  | .sra _ _ _ => 8
  | .ror _ _ _ => 9
  | .mul _ _ _ => 10
  | .mulhI64 _ _ _ => 11
  | .mulhN64 _ _ _ => 12
  | .minI64 _ _ _ => 13
  | .minN64 _ _ _ => 14
  | .maxI64 _ _ _ => 15
  | .maxN64 _ _ _ => 16
  | .clmulN64 _ _ _ => 17
  | .clmulhN64 _ _ _ => 18
  | .popcN64 _ _ => 19
  | .clzN64 _ _ => 20
  | .ctzN64 _ _ => 21
  | .bswapN64 _ _ => 22
  | .extI64 _ _ _ => 23
  | .extN64 _ _ _ => 24
  | .insN64 _ _ _ => 25
  | .sxtI8 _ _ => 26
  | .sxtI16 _ _ => 27
  | .sxtI32 _ _ => 28
  | .zxtN8 _ _ => 29
  | .zxtN16 _ _ => 30
  | .zxtN32 _ _ => 31
  | .addi _ _ _ => 32
  | .addiLit32 _ _ _ => 33
  | .addiLit64 _ _ _ => 34
  | .andi _ _ _ => 35
  | .andiLit32 _ _ _ => 36
  | .andiLit64 _ _ _ => 37
  | .ori _ _ _ => 38
  | .oriLit32 _ _ _ => 39
  | .oriLit64 _ _ _ => 40
  | .xori _ _ _ => 41
  | .xoriLit32 _ _ _ => 42
  | .xoriLit64 _ _ _ => 43
  | .slli _ _ _ => 44
  | .srli _ _ _ => 45
  | .srai _ _ _ => 46
  | .rori _ _ _ => 47
  | .lui _ _ => 48
  | .auipc _ _ => 49
  | .divI64 _ _ _ _ => 50
  | .divN64 _ _ _ _ => 51
  | .remI64 _ _ _ _ => 52
  | .remN64 _ _ _ _ => 53
  | .faddF32 _ _ _ => 54
  | .fsubF32 _ _ _ => 55
  | .fmulF32 _ _ _ => 56
  | .fmaF32 _ _ _ => 57
  | .fminF32 _ _ _ => 58
  | .fmaxF32 _ _ _ => 59
  | .fabsF32 _ _ => 60
  | .fnegF32 _ _ => 61
  | .fcvtF32I64 _ _ => 62
  | .fcvtF32N64 _ _ => 63
  | .fcvtI64F32 _ _ => 64
  | .fcvtN64F32 _ _ => 65
  | .fcvtzI64F32 _ _ => 66
  | .fcvtzN64F32 _ _ => 67
  | .fcvtB16F32 _ _ => 68
  | .fcvtF32B16 _ _ => 69
  | .fcvtH16F32 _ _ => 70
  | .fcvtF32H16 _ _ => 71
  | .fdivF32 _ _ _ _ => 72
  | .fsqrtF32 _ _ _ => 73
  | .cmpEq _ _ _ => 74
  | .cmpNe _ _ _ => 75
  | .cmpLtI64 _ _ _ => 76
  | .cmpLtN64 _ _ _ => 77
  | .cmpGeI64 _ _ _ => 78
  | .cmpGeN64 _ _ _ => 79
  | .cmpTst _ _ _ => 80
  | .cmpNtst _ _ _ => 81
  | .gand _ _ _ => 82
  | .gor _ _ _ => 83
  | .gxor _ _ _ => 84
  | .gandn _ _ _ => 85
  | .gnot _ _ => 86
  | .gset _ _ => 87
  | .fcmpgEqF32 _ _ _ => 88
  | .fcmpgNeF32 _ _ _ => 89
  | .fcmpgLtF32 _ _ _ => 90
  | .fcmpgLeF32 _ _ _ => 91
  | .fcmpgUnF32 _ _ _ => 92
  | .cmpi _ _ _ _ => 93
  | .prep _ _ => 94
  | .prepLit64 _ _ => 95
  | .jmp _ => 96
  | .jmpt _ _ => 97
  | .jmpf _ _ => 98
  | .call _ => 99
  | .ret => 100
  | .prepr _ _ => 101
  | .fence _ _ => 102
  | .isync => 103
  | .wait _ => 104
  | .flush _ _ _ => 105
  | .ldl64 _ _ _ _ => 106
  | .ldli32 _ _ _ _ => 107
  | .ldln32 _ _ _ _ => 108
  | .stl64 _ _ _ => 109
  | .stl32 _ _ _ => 110
  | .ldg64 _ _ _ _ => 111
  | .ldgi32 _ _ _ _ => 112
  | .ldgn32 _ _ _ _ => 113
  | .stg64 _ _ _ => 114
  | .stg32 _ _ _ => 115
  | .memxLdI8 _ _ _ _ m _ => (match m.off with | .disp _ => 116 | .lit _ => 117)
  | .memxLdN8 _ _ _ _ m _ => (match m.off with | .disp _ => 118 | .lit _ => 119)
  | .memxLdI16 _ _ _ _ m _ => (match m.off with | .disp _ => 120 | .lit _ => 121)
  | .memxLdN16 _ _ _ _ m _ => (match m.off with | .disp _ => 122 | .lit _ => 123)
  | .memxLdI32 _ _ _ _ m _ => (match m.off with | .disp _ => 124 | .lit _ => 125)
  | .memxLdN32 _ _ _ _ m _ => (match m.off with | .disp _ => 126 | .lit _ => 127)
  | .memxLdI64 _ _ _ _ m _ => (match m.off with | .disp _ => 128 | .lit _ => 129)
  | .memxStI8 _ _ m _ => (match m.off with | .disp _ => 130 | .lit _ => 131)
  | .memxStI16 _ _ m _ => (match m.off with | .disp _ => 132 | .lit _ => 133)
  | .memxStI32 _ _ m _ => (match m.off with | .disp _ => 134 | .lit _ => 135)
  | .memxStI64 _ _ m _ => (match m.off with | .disp _ => 136 | .lit _ => 137)
  | .aswp _ _ _ _ _ _ => 138
  | .acas _ _ _ _ _ _ _ => 139
  | .aadd _ _ _ _ _ _ => 140
  | .aand _ _ _ _ _ _ => 141
  | .aor _ _ _ _ _ _ => 142
  | .axor _ _ _ _ _ _ => 143
  | .aminI _ _ _ _ _ _ => 144
  | .aminN _ _ _ _ _ _ => 145
  | .amaxI _ _ _ _ _ _ => 146
  | .amaxN _ _ _ _ _ _ => 147
  | .afaddF32 _ _ _ _ _ => 148
  | .vadd _ _ _ _ p => if p.present then 150 else 149
  | .vsub _ _ _ _ p => if p.present then 152 else 151
  | .vmul _ _ _ _ p => if p.present then 154 else 153
  | .vminI _ _ _ _ p => if p.present then 156 else 155
  | .vminN _ _ _ _ p => if p.present then 158 else 157
  | .vmaxI _ _ _ _ p => if p.present then 160 else 159
  | .vmaxN _ _ _ _ p => if p.present then 162 else 161
  | .vand _ _ _ _ p => if p.present then 164 else 163
  | .vor _ _ _ _ p => if p.present then 166 else 165
  | .vxor _ _ _ _ p => if p.present then 168 else 167
  | .vsll _ _ _ _ p => if p.present then 170 else 169
  | .vsrl _ _ _ _ p => if p.present then 172 else 171
  | .vsra _ _ _ _ p => if p.present then 174 else 173
  | .vaddsI _ _ _ _ p => if p.present then 176 else 175
  | .vaddsN _ _ _ _ p => if p.present then 178 else 177
  | .vsubsN _ _ _ _ p => if p.present then 180 else 179
  | .vcmpEq _ _ _ _ p => if p.present then 182 else 181
  | .vcmpNe _ _ _ _ p => if p.present then 184 else 183
  | .vcmpLtI _ _ _ _ p => if p.present then 186 else 185
  | .vcmpLtN _ _ _ _ p => if p.present then 188 else 187
  | .vcmpGeI _ _ _ _ p => if p.present then 190 else 189
  | .vcmpGeN _ _ _ _ p => if p.present then 192 else 191
  | .vcmpFeq _ _ _ p => if p.present then 194 else 193
  | .vcmpFne _ _ _ p => if p.present then 196 else 195
  | .vcmpFlt _ _ _ p => if p.present then 198 else 197
  | .vcmpFle _ _ _ p => if p.present then 200 else 199
  | .vcmpFun _ _ _ p => if p.present then 202 else 201
  | .vfaddF32 _ _ _ p => if p.present then 204 else 203
  | .vfsubF32 _ _ _ p => if p.present then 206 else 205
  | .vfmulF32 _ _ _ p => if p.present then 208 else 207
  | .vfmaF32 _ _ _ p => if p.present then 210 else 209
  | .vfminF32 _ _ _ p => if p.present then 212 else 211
  | .vfmaxF32 _ _ _ p => if p.present then 214 else 213
  | .vfabsF32 _ _ p => if p.present then 216 else 215
  | .vfnegF32 _ _ p => if p.present then 218 else 217
  | .vcvtF32I32 _ _ p => if p.present then 220 else 219
  | .vcvtI32F32 _ _ p => if p.present then 222 else 221
  | .vcvtF32N32 _ _ p => if p.present then 224 else 223
  | .vcvtN32F32 _ _ p => if p.present then 226 else 225
  | .vcvtB16F32 _ _ p => if p.present then 228 else 227
  | .vcvtF32B16 _ _ p => if p.present then 230 else 229
  | .vmov _ _ p => if p.present then 232 else 231
  | .vsplat _ _ _ p => if p.present then 234 else 233
  | .vrun _ _ _ p => if p.present then 236 else 235
  | .vsel _ _ _ p => if p.present then 238 else 237
  | .vcoal _ _ p => if p.present then 240 else 239
  | .viota _ _ _ p => if p.present then 242 else 241
  | .vcomp _ _ p => if p.present then 244 else 243
  | .vexp _ _ p => if p.present then 246 else 245
  | .vrsumI32 _ _ _ p => if p.present then 248 else 247
  | .vrsumF32 _ _ _ p => if p.present then 250 else 249
  | .vrminI32 _ _ _ p => if p.present then 252 else 251
  | .vrminN32 _ _ _ p => if p.present then 254 else 253
  | .vrminF32 _ _ _ p => if p.present then 256 else 255
  | .vrmaxI32 _ _ _ p => if p.present then 258 else 257
  | .vrmaxN32 _ _ _ p => if p.present then 260 else 259
  | .vrmaxF32 _ _ _ p => if p.present then 262 else 261
  | .vrand _ _ _ p => if p.present then 264 else 263
  | .vror _ _ _ p => if p.present then 266 else 265
  | .vrxor _ _ _ p => if p.present then 268 else 267
  | .vssumI32 _ _ _ p => if p.present then 270 else 269
  | .vssumF32 _ _ _ p => if p.present then 272 else 271
  | .vsminI32 _ _ _ p => if p.present then 274 else 273
  | .vsmaxI32 _ _ _ p => if p.present then 276 else 275
  | .vlen _ _ p => if p.present then 278 else 277
  | .vnrun _ _ p => if p.present then 280 else 279
  | .vsetlen _ _ _ p => if p.present then 282 else 281
  | .vtos _ _ _ p => if p.present then 284 else 283
  | .kand _ _ _ p => if p.present then 286 else 285
  | .kor _ _ _ p => if p.present then 288 else 287
  | .kxor _ _ _ p => if p.present then 290 else 289
  | .kandn _ _ _ p => if p.present then 292 else 291
  | .knot _ _ p => if p.present then 294 else 293
  | .kmov _ _ p => if p.present then 296 else 295
  | .kpxor _ _ _ p => if p.present then 298 else 297
  | .ktos _ _ _ p => if p.present then 300 else 299
  | .stok _ _ _ p => if p.present then 302 else 301
  | .kpopc _ _ p => if p.present then 304 else 303
  | .klen _ _ p => if p.present then 306 else 305
  | .vld _ _ _ _ _ _ m _ => (match m.off with | .disp _ => 307 | .lit _ => 308)
  | .vst _ _ _ _ m _ => (match m.off with | .disp _ => 309 | .lit _ => 310)
  | .vldr _ _ _ m _ => (match m.off with | .disp _ => 311 | .lit _ => 312)
  | .vstr _ _ m _ => (match m.off with | .disp _ => 313 | .lit _ => 314)
  | .vgath _ _ _ _ _ _ _ m _ => (match m.off with | .disp _ => 315 | .lit _ => 316)
  | .vscat _ _ _ _ _ _ m _ => (match m.off with | .disp _ => 317 | .lit _ => 318)
  | .tld _ _ _ _ _ _ m _ => (match m.off with | .disp _ => 319 | .lit _ => 320)
  | .tst _ _ _ m _ => (match m.off with | .disp _ => 321 | .lit _ => 322)
  | .tzero _ _ _ _ _ => 323
  | .tmov _ _ _ => 324
  | .trel _ _ => 325
  | .mma _ _ _ _ _ _ _ _ _ _ => 326
  | .mmf _ _ _ _ _ _ _ _ _ => 327
  | .scac _ _ _ _ _ _ _ _ _ => 328
  | .scal _ _ _ _ => 329
  | .tadd _ _ _ _ _ _ _ => 330
  | .tsub _ _ _ _ _ _ _ => 331
  | .temul _ _ _ _ _ _ _ => 332
  | .tmax _ _ _ _ _ _ _ => 333
  | .tmin _ _ _ _ _ _ _ => 334
  | .tact _ _ _ _ _ _ => 335
  | .tcvt _ _ _ _ _ _ _ _ => 336
  | .ttrn _ _ _ _ _ => 337
  | .tplane _ _ _ _ _ => 338
  | .tred _ _ _ _ _ _ => 339
  | .tbcast _ _ _ _ _ _ => 340
  | .cpy len _ _ _ _ _ _ _ _ _ _ _ => (match len with | .reg _ => 341 | .lit _ => 342)
  | .cpyw len _ _ _ _ _ _ _ _ _ _ _ _ _ _ => (match len with | .reg _ => 343 | .lit _ => 344)
  | .xfm _ _ _ _ _ _ _ _ _ _ _ _ => 345
  | .layv _ _ _ _ => 346
  | .coll _ _ _ _ _ _ _ _ _ _ _ _ _ _ _ => 347
  | .tcwait _ _ => 348
  | .tcrd _ _ _ => 349
  | .mrecv _ _ => 350
  | .hset _ _ _ => 351
  | .join _ => 352
  | .yield => 353
  | .exit => 354
  | .rein => 355
  | .reinq _ => 356
  | .msend _ _ _ _ _ _ _ _ _ => 357
  | .fork _ _ _ _ _ _ => 358
  | .start _ _ _ _ => 359
  | .sysrd _ _ _ => 360
  | .syswr _ _ _ => 361
  | .trap _ => 362
  | .eret => 363
  | .bankcfg _ _ _ => 364
  | .dirrd _ => 365
  | .dirwr _ => 366
  | .tick _ => 367
  | .mark _ _ => 368
  | .launch _ _ _ => 369
  | .messagePortWrite _ _ _ => 369
  | .apertureWrite _ _ _ => 369
  | .cxlMemWrite _ _ => 369
  | .hostRead _ _ => 369
  | .hostSnoop _ => 369
  | .preempt _ => 369
  | .resume _ => 369
  | .preemptBudgetExpiry _ => 369
  | .preemptImageWrite _ => 369
  | .preemptAbandon _ => 369
  | .resumeLoad _ => 369
  | .vcoreSwitch _ => 369
  | .arbiterGrant _ => 369
  | .helperPark _ => 369
  | .parkedHelperReturn _ => 369
  | .stealProbe _ => 369
  | .stealProbeArrival _ => 369
  | .stealAnswer _ => 369
  | .stealSweepBackoff _ => 369
  | .messageArrival _ => 369
  | .registerWriteApply _ => 369
  | .spillRefill _ => 369
  | .joinWake _ _ => 369
  | .tcwaitWake _ _ => 369
  | .commandDispatch _ => 369
  | .copyChannelTransfer _ _ => 369
  | .transformRun _ => 369
  | .collectiveMatch _ => 369
  | .commandComplete _ _ => 369
  | .bankSwitchPoint _ _ => 369
  | .bankTileCopy _ _ => 369
  | .bankClearDone _ _ => 369
  | .postedStorePerform _ => 369
  | .atomicPerform _ _ => 369
  | .fifoWaitServe _ _ => 369
  | .storeProbeAnswer _ _ _ => 369
  | .pageWalk _ _ _ => 369
  | .xinvWrite _ => 369
  | .l2LoadMissFill _ _ _ => 369
  | .l2Writeback _ _ _ => 369
  | .controllerLineWrite _ _ _ => 369
  | .controllerPartialMerge _ _ _ => 369
  | .controllerLineRead _ => 369
  | .metadataMiss _ _ => 369
  | .metadataWriteback _ _ => 369
  | .aliasRead _ _ => 369
  | .aliasWriteRepack _ _ _ _ => 369
  | .stampedWriteApply _ => 369
  | .directoryOverflowRequest _ => 369
  | .directoryConfigWrite _ _ _ => 369
  | .stampbaseWrite _ _ => 369
  | .fltringWrite _ => 369
  | .powercapWrite _ => 369
  | .tandemcfgWrite _ => 369
  | .hostRegisterWrite _ _ => 369
  | .mstart _ => 369
  | .mdata _ => 369
  | .mend _ => 369
  | .qnonce _ => 369
  | .quoteComplete => 369
  | .powerUp => 369
  | .functionReady _ => 369
  | .functionFailed _ => 369
  | .powerWindow _ => 369
  | .thermalSample _ => 369
  | .errorEvent _ => 369
  | .linkRetrainDone _ => 369
  | .linkDown _ => 369
  | .tandemBringUp _ _ => 369
  | .tandemWriteFlit _ _ _ => 369
  | .tandemMsgFlit _ _ => 369
  | .tandemCollFlit _ => 369
  | .tandemCtrlFlit _ => 369
  | .stop _ => 369
  | .stopTickReached => 369
  | .debugResume _ => 369
  | .stat _ => 369
  | .scan _ => 369
  | .rdreg _ => 369
  | .wrreg _ => 369
  | .rdmem _ => 369
  | .wrmem _ => 369
  | .debuggerWriteApply => 369
  | .tickset _ => 369
  | .setbp _ => 369
  | .clrbp _ => 369
  | .breakpointMatch _ _ => 369
  | .stampRecordWrite _ => 369
  | .counterSample _ => 369
  | .birsp _ => 369

/-- The operand values of an instruction, in the order of its row's operand fields. -/
def Instr.vals : Instr → List Nat
  | .add d a b => [d, a, b]
  | .sub d a b => [d, a, b]
  | .and d a b => [d, a, b]
  | .or d a b => [d, a, b]
  | .xor d a b => [d, a, b]
  | .andn d a b => [d, a, b]
  | .sll d a b => [d, a, b]
  | .srl d a b => [d, a, b]
  | .sra d a b => [d, a, b]
  | .ror d a b => [d, a, b]
  | .mul d a b => [d, a, b]
  | .mulhI64 d a b => [d, a, b]
  | .mulhN64 d a b => [d, a, b]
  | .minI64 d a b => [d, a, b]
  | .minN64 d a b => [d, a, b]
  | .maxI64 d a b => [d, a, b]
  | .maxN64 d a b => [d, a, b]
  | .clmulN64 d a b => [d, a, b]
  | .clmulhN64 d a b => [d, a, b]
  | .popcN64 d a => [d, a]
  | .clzN64 d a => [d, a]
  | .ctzN64 d a => [d, a]
  | .bswapN64 d a => [d, a]
  | .extI64 d a b => [d, a, b]
  | .extN64 d a b => [d, a, b]
  | .insN64 d a b => [d, a, b]
  | .sxtI8 d a => [d, a]
  | .sxtI16 d a => [d, a]
  | .sxtI32 d a => [d, a]
  | .zxtN8 d a => [d, a]
  | .zxtN16 d a => [d, a]
  | .zxtN32 d a => [d, a]
  | .addi imm a d => [d, a, imm.toNat]
  | .addiLit32 lit a d => [d, a, lit.toNat]
  | .addiLit64 lit a d => [d, a, lit.toNat]
  | .andi imm a d => [d, a, imm.toNat]
  | .andiLit32 lit a d => [d, a, lit.toNat]
  | .andiLit64 lit a d => [d, a, lit.toNat]
  | .ori imm a d => [d, a, imm.toNat]
  | .oriLit32 lit a d => [d, a, lit.toNat]
  | .oriLit64 lit a d => [d, a, lit.toNat]
  | .xori imm a d => [d, a, imm.toNat]
  | .xoriLit32 lit a d => [d, a, lit.toNat]
  | .xoriLit64 lit a d => [d, a, lit.toNat]
  | .slli n a d => [d, a, n]
  | .srli n a d => [d, a, n]
  | .srai n a d => [d, a, n]
  | .rori n a d => [d, a, n]
  | .lui imm d => [d, imm.toNat]
  | .auipc imm d => [d, imm.toNat]
  | .divI64 ahead d a b => [b, a, d, ahead]
  | .divN64 ahead d a b => [b, a, d, ahead]
  | .remI64 ahead d a b => [b, a, d, ahead]
  | .remN64 ahead d a b => [b, a, d, ahead]
  | .faddF32 d a b => [d, a, b]
  | .fsubF32 d a b => [d, a, b]
  | .fmulF32 d a b => [d, a, b]
  | .fmaF32 d a b => [d, a, b]
  | .fminF32 d a b => [d, a, b]
  | .fmaxF32 d a b => [d, a, b]
  | .fabsF32 d a => [d, a]
  | .fnegF32 d a => [d, a]
  | .fcvtF32I64 d a => [d, a]
  | .fcvtF32N64 d a => [d, a]
  | .fcvtI64F32 d a => [d, a]
  | .fcvtN64F32 d a => [d, a]
  | .fcvtzI64F32 d a => [d, a]
  | .fcvtzN64F32 d a => [d, a]
  | .fcvtB16F32 d a => [d, a]
  | .fcvtF32B16 d a => [d, a]
  | .fcvtH16F32 d a => [d, a]
  | .fcvtF32H16 d a => [d, a]
  | .fdivF32 ahead d a b => [b, a, d, ahead]
  | .fsqrtF32 ahead d a => [a, d, ahead]
  | .cmpEq g a b => [g, a, b]
  | .cmpNe g a b => [g, a, b]
  | .cmpLtI64 g a b => [g, a, b]
  | .cmpLtN64 g a b => [g, a, b]
  | .cmpGeI64 g a b => [g, a, b]
  | .cmpGeN64 g a b => [g, a, b]
  | .cmpTst g a b => [g, a, b]
  | .cmpNtst g a b => [g, a, b]
  | .gand d a b => [d, a, b]
  | .gor d a b => [d, a, b]
  | .gxor d a b => [d, a, b]
  | .gandn d a b => [d, a, b]
  | .gnot d a => [d, a]
  | .gset d v => [d, v]
  | .fcmpgEqF32 g a b => [g, a, b]
  | .fcmpgNeF32 g a b => [g, a, b]
  | .fcmpgLtF32 g a b => [g, a, b]
  | .fcmpgLeF32 g a b => [g, a, b]
  | .fcmpgUnF32 g a b => [g, a, b]
  | .cmpi imm cond a g => [g, a, cond, imm.toNat]
  | .prep disp t => [t, disp.toNat]
  | .prepLit64 lit t => [t, lit.toNat]
  | .jmp t => [t]
  | .jmpt g t => [t, g]
  | .jmpf g t => [t, g]
  | .call t => [t]
  | .ret => []
  | .prepr a t => [t, a]
  | .fence scope kind => [scope, kind]
  | .isync => []
  | .wait code => [code]
  | .flush keep a b => [bitN keep, a, b]
  | .ldl64 imm ahead a d => [d, a, ahead, imm.toNat]
  | .ldli32 imm ahead a d => [d, a, ahead, imm.toNat]
  | .ldln32 imm ahead a d => [d, a, ahead, imm.toNat]
  | .stl64 imm a d => [d, a, imm.toNat]
  | .stl32 imm a d => [d, a, imm.toNat]
  | .ldg64 imm ahead a d => [d, a, ahead, imm.toNat]
  | .ldgi32 imm ahead a d => [d, a, ahead, imm.toNat]
  | .ldgn32 imm ahead a d => [d, a, ahead, imm.toNat]
  | .stg64 imm a d => [d, a, imm.toNat]
  | .stg32 imm a d => [d, a, imm.toNat]
  | .memxLdI8 d a b iscale m x => (match m.off with | .disp o => [d, a, b, iscale, m.space, m.csel, x.ahead, x.scope, x.ord, x.wait, bitN x.g, x.gslot, bitN x.ginv, o.toNat] | .lit o => [d, a, b, iscale, m.space, m.csel, x.ahead, x.scope, x.ord, x.wait, bitN x.g, x.gslot, bitN x.ginv, o.toNat])
  | .memxLdN8 d a b iscale m x => (match m.off with | .disp o => [d, a, b, iscale, m.space, m.csel, x.ahead, x.scope, x.ord, x.wait, bitN x.g, x.gslot, bitN x.ginv, o.toNat] | .lit o => [d, a, b, iscale, m.space, m.csel, x.ahead, x.scope, x.ord, x.wait, bitN x.g, x.gslot, bitN x.ginv, o.toNat])
  | .memxLdI16 d a b iscale m x => (match m.off with | .disp o => [d, a, b, iscale, m.space, m.csel, x.ahead, x.scope, x.ord, x.wait, bitN x.g, x.gslot, bitN x.ginv, o.toNat] | .lit o => [d, a, b, iscale, m.space, m.csel, x.ahead, x.scope, x.ord, x.wait, bitN x.g, x.gslot, bitN x.ginv, o.toNat])
  | .memxLdN16 d a b iscale m x => (match m.off with | .disp o => [d, a, b, iscale, m.space, m.csel, x.ahead, x.scope, x.ord, x.wait, bitN x.g, x.gslot, bitN x.ginv, o.toNat] | .lit o => [d, a, b, iscale, m.space, m.csel, x.ahead, x.scope, x.ord, x.wait, bitN x.g, x.gslot, bitN x.ginv, o.toNat])
  | .memxLdI32 d a b iscale m x => (match m.off with | .disp o => [d, a, b, iscale, m.space, m.csel, x.ahead, x.scope, x.ord, x.wait, bitN x.g, x.gslot, bitN x.ginv, o.toNat] | .lit o => [d, a, b, iscale, m.space, m.csel, x.ahead, x.scope, x.ord, x.wait, bitN x.g, x.gslot, bitN x.ginv, o.toNat])
  | .memxLdN32 d a b iscale m x => (match m.off with | .disp o => [d, a, b, iscale, m.space, m.csel, x.ahead, x.scope, x.ord, x.wait, bitN x.g, x.gslot, bitN x.ginv, o.toNat] | .lit o => [d, a, b, iscale, m.space, m.csel, x.ahead, x.scope, x.ord, x.wait, bitN x.g, x.gslot, bitN x.ginv, o.toNat])
  | .memxLdI64 d a b iscale m x => (match m.off with | .disp o => [d, a, b, iscale, m.space, m.csel, x.ahead, x.scope, x.ord, x.wait, bitN x.g, x.gslot, bitN x.ginv, o.toNat] | .lit o => [d, a, b, iscale, m.space, m.csel, x.ahead, x.scope, x.ord, x.wait, bitN x.g, x.gslot, bitN x.ginv, o.toNat])
  | .memxStI8 a b m x => (match m.off with | .disp o => [a, b, m.space, m.csel, x.ahead, x.scope, x.ord, x.wait, bitN x.g, x.gslot, bitN x.ginv, o.toNat] | .lit o => [a, b, m.space, m.csel, x.ahead, x.scope, x.ord, x.wait, bitN x.g, x.gslot, bitN x.ginv, o.toNat])
  | .memxStI16 a b m x => (match m.off with | .disp o => [a, b, m.space, m.csel, x.ahead, x.scope, x.ord, x.wait, bitN x.g, x.gslot, bitN x.ginv, o.toNat] | .lit o => [a, b, m.space, m.csel, x.ahead, x.scope, x.ord, x.wait, bitN x.g, x.gslot, bitN x.ginv, o.toNat])
  | .memxStI32 a b m x => (match m.off with | .disp o => [a, b, m.space, m.csel, x.ahead, x.scope, x.ord, x.wait, bitN x.g, x.gslot, bitN x.ginv, o.toNat] | .lit o => [a, b, m.space, m.csel, x.ahead, x.scope, x.ord, x.wait, bitN x.g, x.gslot, bitN x.ginv, o.toNat])
  | .memxStI64 a b m x => (match m.off with | .disp o => [a, b, m.space, m.csel, x.ahead, x.scope, x.ord, x.wait, bitN x.g, x.gslot, bitN x.ginv, o.toNat] | .lit o => [a, b, m.space, m.csel, x.ahead, x.scope, x.ord, x.wait, bitN x.g, x.gslot, bitN x.ginv, o.toNat])
  | .aswp d a b sz m x => (match m.off with | .disp o => [d, a, b, bitN sz, m.space, m.csel, x.ahead, x.scope, x.ord, x.wait, bitN x.g, x.gslot, bitN x.ginv, o.toNat] | .lit _ => [])
  | .acas d a b sz c m x => (match m.off with | .disp o => [d, a, b, bitN sz, c, m.space, m.csel, x.ahead, x.scope, x.ord, x.wait, bitN x.g, x.gslot, bitN x.ginv, o.toNat] | .lit _ => [])
  | .aadd d a b sz m x => (match m.off with | .disp o => [d, a, b, bitN sz, m.space, m.csel, x.ahead, x.scope, x.ord, x.wait, bitN x.g, x.gslot, bitN x.ginv, o.toNat] | .lit _ => [])
  | .aand d a b sz m x => (match m.off with | .disp o => [d, a, b, bitN sz, m.space, m.csel, x.ahead, x.scope, x.ord, x.wait, bitN x.g, x.gslot, bitN x.ginv, o.toNat] | .lit _ => [])
  | .aor d a b sz m x => (match m.off with | .disp o => [d, a, b, bitN sz, m.space, m.csel, x.ahead, x.scope, x.ord, x.wait, bitN x.g, x.gslot, bitN x.ginv, o.toNat] | .lit _ => [])
  | .axor d a b sz m x => (match m.off with | .disp o => [d, a, b, bitN sz, m.space, m.csel, x.ahead, x.scope, x.ord, x.wait, bitN x.g, x.gslot, bitN x.ginv, o.toNat] | .lit _ => [])
  | .aminI d a b sz m x => (match m.off with | .disp o => [d, a, b, bitN sz, m.space, m.csel, x.ahead, x.scope, x.ord, x.wait, bitN x.g, x.gslot, bitN x.ginv, o.toNat] | .lit _ => [])
  | .aminN d a b sz m x => (match m.off with | .disp o => [d, a, b, bitN sz, m.space, m.csel, x.ahead, x.scope, x.ord, x.wait, bitN x.g, x.gslot, bitN x.ginv, o.toNat] | .lit _ => [])
  | .amaxI d a b sz m x => (match m.off with | .disp o => [d, a, b, bitN sz, m.space, m.csel, x.ahead, x.scope, x.ord, x.wait, bitN x.g, x.gslot, bitN x.ginv, o.toNat] | .lit _ => [])
  | .amaxN d a b sz m x => (match m.off with | .disp o => [d, a, b, bitN sz, m.space, m.csel, x.ahead, x.scope, x.ord, x.wait, bitN x.g, x.gslot, bitN x.ginv, o.toNat] | .lit _ => [])
  | .afaddF32 d a b m x => (match m.off with | .disp o => [d, a, b, m.space, m.csel, x.ahead, x.scope, x.ord, x.wait, bitN x.g, x.gslot, bitN x.ginv, o.toNat] | .lit _ => [])
  | .vadd w d a b p => if p.present then [bitN p.f4v, bitN p.coal, p.mask, bitN p.zero, p.round, p.fourth, w, d, a, b] else [w, d, a, b]
  | .vsub w d a b p => if p.present then [bitN p.f4v, bitN p.coal, p.mask, bitN p.zero, p.round, p.fourth, w, d, a, b] else [w, d, a, b]
  | .vmul w d a b p => if p.present then [bitN p.f4v, bitN p.coal, p.mask, bitN p.zero, p.round, p.fourth, w, d, a, b] else [w, d, a, b]
  | .vminI w d a b p => if p.present then [bitN p.f4v, bitN p.coal, p.mask, bitN p.zero, p.round, p.fourth, w, d, a, b] else [w, d, a, b]
  | .vminN w d a b p => if p.present then [bitN p.f4v, bitN p.coal, p.mask, bitN p.zero, p.round, p.fourth, w, d, a, b] else [w, d, a, b]
  | .vmaxI w d a b p => if p.present then [bitN p.f4v, bitN p.coal, p.mask, bitN p.zero, p.round, p.fourth, w, d, a, b] else [w, d, a, b]
  | .vmaxN w d a b p => if p.present then [bitN p.f4v, bitN p.coal, p.mask, bitN p.zero, p.round, p.fourth, w, d, a, b] else [w, d, a, b]
  | .vand w d a b p => if p.present then [bitN p.f4v, bitN p.coal, p.mask, bitN p.zero, p.round, p.fourth, w, d, a, b] else [w, d, a, b]
  | .vor w d a b p => if p.present then [bitN p.f4v, bitN p.coal, p.mask, bitN p.zero, p.round, p.fourth, w, d, a, b] else [w, d, a, b]
  | .vxor w d a b p => if p.present then [bitN p.f4v, bitN p.coal, p.mask, bitN p.zero, p.round, p.fourth, w, d, a, b] else [w, d, a, b]
  | .vsll w d a b p => if p.present then [bitN p.f4v, bitN p.coal, p.mask, bitN p.zero, p.round, p.fourth, w, d, a, b] else [w, d, a, b]
  | .vsrl w d a b p => if p.present then [bitN p.f4v, bitN p.coal, p.mask, bitN p.zero, p.round, p.fourth, w, d, a, b] else [w, d, a, b]
  | .vsra w d a b p => if p.present then [bitN p.f4v, bitN p.coal, p.mask, bitN p.zero, p.round, p.fourth, w, d, a, b] else [w, d, a, b]
  | .vaddsI w d a b p => if p.present then [bitN p.f4v, bitN p.coal, p.mask, bitN p.zero, p.round, p.fourth, w, d, a, b] else [w, d, a, b]
  | .vaddsN w d a b p => if p.present then [bitN p.f4v, bitN p.coal, p.mask, bitN p.zero, p.round, p.fourth, w, d, a, b] else [w, d, a, b]
  | .vsubsN w d a b p => if p.present then [bitN p.f4v, bitN p.coal, p.mask, bitN p.zero, p.round, p.fourth, w, d, a, b] else [w, d, a, b]
  | .vcmpEq w d a b p => if p.present then [bitN p.f4v, bitN p.coal, p.mask, bitN p.zero, p.round, p.fourth, w, d, a, b] else [w, d, a, b]
  | .vcmpNe w d a b p => if p.present then [bitN p.f4v, bitN p.coal, p.mask, bitN p.zero, p.round, p.fourth, w, d, a, b] else [w, d, a, b]
  | .vcmpLtI w d a b p => if p.present then [bitN p.f4v, bitN p.coal, p.mask, bitN p.zero, p.round, p.fourth, w, d, a, b] else [w, d, a, b]
  | .vcmpLtN w d a b p => if p.present then [bitN p.f4v, bitN p.coal, p.mask, bitN p.zero, p.round, p.fourth, w, d, a, b] else [w, d, a, b]
  | .vcmpGeI w d a b p => if p.present then [bitN p.f4v, bitN p.coal, p.mask, bitN p.zero, p.round, p.fourth, w, d, a, b] else [w, d, a, b]
  | .vcmpGeN w d a b p => if p.present then [bitN p.f4v, bitN p.coal, p.mask, bitN p.zero, p.round, p.fourth, w, d, a, b] else [w, d, a, b]
  | .vcmpFeq d a b p => if p.present then [bitN p.f4v, bitN p.coal, p.mask, bitN p.zero, p.round, p.fourth, d, a, b] else [d, a, b]
  | .vcmpFne d a b p => if p.present then [bitN p.f4v, bitN p.coal, p.mask, bitN p.zero, p.round, p.fourth, d, a, b] else [d, a, b]
  | .vcmpFlt d a b p => if p.present then [bitN p.f4v, bitN p.coal, p.mask, bitN p.zero, p.round, p.fourth, d, a, b] else [d, a, b]
  | .vcmpFle d a b p => if p.present then [bitN p.f4v, bitN p.coal, p.mask, bitN p.zero, p.round, p.fourth, d, a, b] else [d, a, b]
  | .vcmpFun d a b p => if p.present then [bitN p.f4v, bitN p.coal, p.mask, bitN p.zero, p.round, p.fourth, d, a, b] else [d, a, b]
  | .vfaddF32 d a b p => if p.present then [bitN p.f4v, bitN p.coal, p.mask, bitN p.zero, p.round, p.fourth, d, a, b] else [d, a, b]
  | .vfsubF32 d a b p => if p.present then [bitN p.f4v, bitN p.coal, p.mask, bitN p.zero, p.round, p.fourth, d, a, b] else [d, a, b]
  | .vfmulF32 d a b p => if p.present then [bitN p.f4v, bitN p.coal, p.mask, bitN p.zero, p.round, p.fourth, d, a, b] else [d, a, b]
  | .vfmaF32 d a b p => if p.present then [bitN p.f4v, bitN p.coal, p.mask, bitN p.zero, p.round, p.fourth, d, a, b] else [d, a, b]
  | .vfminF32 d a b p => if p.present then [bitN p.f4v, bitN p.coal, p.mask, bitN p.zero, p.round, p.fourth, d, a, b] else [d, a, b]
  | .vfmaxF32 d a b p => if p.present then [bitN p.f4v, bitN p.coal, p.mask, bitN p.zero, p.round, p.fourth, d, a, b] else [d, a, b]
  | .vfabsF32 d a p => if p.present then [bitN p.f4v, bitN p.coal, p.mask, bitN p.zero, p.round, p.fourth, d, a] else [d, a]
  | .vfnegF32 d a p => if p.present then [bitN p.f4v, bitN p.coal, p.mask, bitN p.zero, p.round, p.fourth, d, a] else [d, a]
  | .vcvtF32I32 d a p => if p.present then [bitN p.f4v, bitN p.coal, p.mask, bitN p.zero, p.round, p.fourth, d, a] else [d, a]
  | .vcvtI32F32 d a p => if p.present then [bitN p.f4v, bitN p.coal, p.mask, bitN p.zero, p.round, p.fourth, d, a] else [d, a]
  | .vcvtF32N32 d a p => if p.present then [bitN p.f4v, bitN p.coal, p.mask, bitN p.zero, p.round, p.fourth, d, a] else [d, a]
  | .vcvtN32F32 d a p => if p.present then [bitN p.f4v, bitN p.coal, p.mask, bitN p.zero, p.round, p.fourth, d, a] else [d, a]
  | .vcvtB16F32 d a p => if p.present then [bitN p.f4v, bitN p.coal, p.mask, bitN p.zero, p.round, p.fourth, d, a] else [d, a]
  | .vcvtF32B16 d a p => if p.present then [bitN p.f4v, bitN p.coal, p.mask, bitN p.zero, p.round, p.fourth, d, a] else [d, a]
  | .vmov d a p => if p.present then [bitN p.f4v, bitN p.coal, p.mask, bitN p.zero, p.round, p.fourth, d, a] else [d, a]
  | .vsplat d a b p => if p.present then [bitN p.f4v, bitN p.coal, p.mask, bitN p.zero, p.round, p.fourth, d, a, b] else [d, a, b]
  | .vrun d a b p => if p.present then [bitN p.f4v, bitN p.coal, p.mask, bitN p.zero, p.round, p.fourth, d, a, b] else [d, a, b]
  | .vsel d a b p => if p.present then [bitN p.f4v, bitN p.coal, p.mask, bitN p.zero, p.round, p.fourth, d, a, b] else [d, a, b]
  | .vcoal d a p => if p.present then [bitN p.f4v, bitN p.coal, p.mask, bitN p.zero, p.round, p.fourth, d, a] else [d, a]
  | .viota d a b p => if p.present then [bitN p.f4v, bitN p.coal, p.mask, bitN p.zero, p.round, p.fourth, d, a, b] else [d, a, b]
  | .vcomp d a p => if p.present then [bitN p.f4v, bitN p.coal, p.mask, bitN p.zero, p.round, p.fourth, d, a] else [d, a]
  | .vexp d a p => if p.present then [bitN p.f4v, bitN p.coal, p.mask, bitN p.zero, p.round, p.fourth, d, a] else [d, a]
  | .vrsumI32 d a b p => if p.present then [bitN p.f4v, bitN p.coal, p.mask, bitN p.zero, p.round, p.fourth, d, a, b] else [d, a, b]
  | .vrsumF32 d a b p => if p.present then [bitN p.f4v, bitN p.coal, p.mask, bitN p.zero, p.round, p.fourth, d, a, b] else [d, a, b]
  | .vrminI32 d a b p => if p.present then [bitN p.f4v, bitN p.coal, p.mask, bitN p.zero, p.round, p.fourth, d, a, b] else [d, a, b]
  | .vrminN32 d a b p => if p.present then [bitN p.f4v, bitN p.coal, p.mask, bitN p.zero, p.round, p.fourth, d, a, b] else [d, a, b]
  | .vrminF32 d a b p => if p.present then [bitN p.f4v, bitN p.coal, p.mask, bitN p.zero, p.round, p.fourth, d, a, b] else [d, a, b]
  | .vrmaxI32 d a b p => if p.present then [bitN p.f4v, bitN p.coal, p.mask, bitN p.zero, p.round, p.fourth, d, a, b] else [d, a, b]
  | .vrmaxN32 d a b p => if p.present then [bitN p.f4v, bitN p.coal, p.mask, bitN p.zero, p.round, p.fourth, d, a, b] else [d, a, b]
  | .vrmaxF32 d a b p => if p.present then [bitN p.f4v, bitN p.coal, p.mask, bitN p.zero, p.round, p.fourth, d, a, b] else [d, a, b]
  | .vrand d a b p => if p.present then [bitN p.f4v, bitN p.coal, p.mask, bitN p.zero, p.round, p.fourth, d, a, b] else [d, a, b]
  | .vror d a b p => if p.present then [bitN p.f4v, bitN p.coal, p.mask, bitN p.zero, p.round, p.fourth, d, a, b] else [d, a, b]
  | .vrxor d a b p => if p.present then [bitN p.f4v, bitN p.coal, p.mask, bitN p.zero, p.round, p.fourth, d, a, b] else [d, a, b]
  | .vssumI32 d a b p => if p.present then [bitN p.f4v, bitN p.coal, p.mask, bitN p.zero, p.round, p.fourth, d, a, b] else [d, a, b]
  | .vssumF32 d a b p => if p.present then [bitN p.f4v, bitN p.coal, p.mask, bitN p.zero, p.round, p.fourth, d, a, b] else [d, a, b]
  | .vsminI32 d a b p => if p.present then [bitN p.f4v, bitN p.coal, p.mask, bitN p.zero, p.round, p.fourth, d, a, b] else [d, a, b]
  | .vsmaxI32 d a b p => if p.present then [bitN p.f4v, bitN p.coal, p.mask, bitN p.zero, p.round, p.fourth, d, a, b] else [d, a, b]
  | .vlen d a p => if p.present then [bitN p.f4v, bitN p.coal, p.mask, bitN p.zero, p.round, p.fourth, d, a] else [d, a]
  | .vnrun d a p => if p.present then [bitN p.f4v, bitN p.coal, p.mask, bitN p.zero, p.round, p.fourth, d, a] else [d, a]
  | .vsetlen d a b p => if p.present then [bitN p.f4v, bitN p.coal, p.mask, bitN p.zero, p.round, p.fourth, d, a, b] else [d, a, b]
  | .vtos d a b p => if p.present then [bitN p.f4v, bitN p.coal, p.mask, bitN p.zero, p.round, p.fourth, d, a, b] else [d, a, b]
  | .kand d a b p => if p.present then [bitN p.f4v, bitN p.coal, p.mask, bitN p.zero, p.round, p.fourth, d, a, b] else [d, a, b]
  | .kor d a b p => if p.present then [bitN p.f4v, bitN p.coal, p.mask, bitN p.zero, p.round, p.fourth, d, a, b] else [d, a, b]
  | .kxor d a b p => if p.present then [bitN p.f4v, bitN p.coal, p.mask, bitN p.zero, p.round, p.fourth, d, a, b] else [d, a, b]
  | .kandn d a b p => if p.present then [bitN p.f4v, bitN p.coal, p.mask, bitN p.zero, p.round, p.fourth, d, a, b] else [d, a, b]
  | .knot d a p => if p.present then [bitN p.f4v, bitN p.coal, p.mask, bitN p.zero, p.round, p.fourth, d, a] else [d, a]
  | .kmov d a p => if p.present then [bitN p.f4v, bitN p.coal, p.mask, bitN p.zero, p.round, p.fourth, d, a] else [d, a]
  | .kpxor d a b p => if p.present then [bitN p.f4v, bitN p.coal, p.mask, bitN p.zero, p.round, p.fourth, d, a, b] else [d, a, b]
  | .ktos d a b p => if p.present then [bitN p.f4v, bitN p.coal, p.mask, bitN p.zero, p.round, p.fourth, d, a, b] else [d, a, b]
  | .stok d a b p => if p.present then [bitN p.f4v, bitN p.coal, p.mask, bitN p.zero, p.round, p.fourth, d, a, b] else [d, a, b]
  | .kpopc d a p => if p.present then [bitN p.f4v, bitN p.coal, p.mask, bitN p.zero, p.round, p.fourth, d, a] else [d, a]
  | .klen d a p => if p.present then [bitN p.f4v, bitN p.coal, p.mask, bitN p.zero, p.round, p.fourth, d, a] else [d, a]
  | .vld d a b w mask zero m x => (match m.off with | .disp o => [d, a, b, w, mask, bitN zero, m.space, m.csel, x.ahead, x.scope, x.ord, x.wait, bitN x.g, x.gslot, bitN x.ginv, o.toNat] | .lit o => [d, a, b, w, mask, bitN zero, m.space, m.csel, x.ahead, x.scope, x.ord, x.wait, bitN x.g, x.gslot, bitN x.ginv, o.toNat])
  | .vst d a w mask m x => (match m.off with | .disp o => [d, a, w, mask, m.space, m.csel, x.ahead, x.scope, x.ord, x.wait, bitN x.g, x.gslot, bitN x.ginv, o.toNat] | .lit o => [d, a, w, mask, m.space, m.csel, x.ahead, x.scope, x.ord, x.wait, bitN x.g, x.gslot, bitN x.ginv, o.toNat])
  | .vldr d a b m x => (match m.off with | .disp o => [d, a, b, m.space, m.csel, x.ahead, x.scope, x.ord, x.wait, bitN x.g, x.gslot, bitN x.ginv, o.toNat] | .lit o => [d, a, b, m.space, m.csel, x.ahead, x.scope, x.ord, x.wait, bitN x.g, x.gslot, bitN x.ginv, o.toNat])
  | .vstr d a m x => (match m.off with | .disp o => [d, a, m.space, m.csel, x.ahead, x.scope, x.ord, x.wait, bitN x.g, x.gslot, bitN x.ginv, o.toNat] | .lit o => [d, a, m.space, m.csel, x.ahead, x.scope, x.ord, x.wait, bitN x.g, x.gslot, bitN x.ginv, o.toNat])
  | .vgath d a b w mask zero iscale m x => (match m.off with | .disp o => [d, a, b, w, mask, bitN zero, iscale, m.space, m.csel, x.ahead, x.scope, x.ord, x.wait, bitN x.g, x.gslot, bitN x.ginv, o.toNat] | .lit o => [d, a, b, w, mask, bitN zero, iscale, m.space, m.csel, x.ahead, x.scope, x.ord, x.wait, bitN x.g, x.gslot, bitN x.ginv, o.toNat])
  | .vscat d a b w mask iscale m x => (match m.off with | .disp o => [d, a, b, w, mask, iscale, m.space, m.csel, x.ahead, x.scope, x.ord, x.wait, bitN x.g, x.gslot, bitN x.ginv, o.toNat] | .lit o => [d, a, b, w, mask, iscale, m.space, m.csel, x.ahead, x.scope, x.ord, x.wait, bitN x.g, x.gslot, bitN x.ginv, o.toNat])
  | .tld d a b tag pcnt sgn m x => (match m.off with | .disp o => [d, a, b, tag, pcnt, bitN sgn, m.space, m.csel, x.ahead, x.scope, x.ord, x.wait, bitN x.g, x.gslot, bitN x.ginv, o.toNat] | .lit o => [d, a, b, tag, pcnt, bitN sgn, m.space, m.csel, x.ahead, x.scope, x.ord, x.wait, bitN x.g, x.gslot, bitN x.ginv, o.toNat])
  | .tst d a b m x => (match m.off with | .disp o => [d, a, b, m.space, m.csel, x.ahead, x.scope, x.ord, x.wait, bitN x.g, x.gslot, bitN x.ginv, o.toNat] | .lit o => [d, a, b, m.space, m.csel, x.ahead, x.scope, x.ord, x.wait, bitN x.g, x.gslot, bitN x.ginv, o.toNat])
  | .tzero d tag pcnt sgn x => [d, tag, pcnt, bitN sgn, x.ahead, x.scope, x.ord, x.wait, bitN x.g, x.gslot, bitN x.ginv]
  | .tmov d a x => [d, a, x.ahead, x.scope, x.ord, x.wait, bitN x.g, x.gslot, bitN x.ginv]
  | .trel d x => [d, x.ahead, x.scope, x.ord, x.wait, bitN x.g, x.gslot, bitN x.ginv]
  | .mma d a b fa fb z km1 kao kbo x => [d, a, b, fa, fb, bitN z, x.ahead, x.scope, x.ord, x.wait, bitN x.g, x.gslot, bitN x.ginv, km1, kao, kbo]
  | .mmf d a b fa z km1 kao kbo x => [d, a, b, fa, bitN z, x.ahead, x.scope, x.ord, x.wait, bitN x.g, x.gslot, bitN x.ginv, km1, kao, kbo]
  | .scac d a b sfmt q tsb ca cb x => [d, a, b, bitN sfmt, q, x.ahead, x.scope, x.ord, x.wait, bitN x.g, x.gslot, bitN x.ginv, tsb, ca, cb]
  | .scal d a b x => [d, a, b, x.ahead, x.scope, x.ord, x.wait, bitN x.g, x.gslot, bitN x.ginv]
  | .tadd d a b fmt rnd sat x => [d, a, b, fmt, rnd, bitN sat, x.ahead, x.scope, x.ord, x.wait, bitN x.g, x.gslot, bitN x.ginv]
  | .tsub d a b fmt rnd sat x => [d, a, b, fmt, rnd, bitN sat, x.ahead, x.scope, x.ord, x.wait, bitN x.g, x.gslot, bitN x.ginv]
  | .temul d a b fmt rnd sat x => [d, a, b, fmt, rnd, bitN sat, x.ahead, x.scope, x.ord, x.wait, bitN x.g, x.gslot, bitN x.ginv]
  | .tmax d a b fmt rnd sat x => [d, a, b, fmt, rnd, bitN sat, x.ahead, x.scope, x.ord, x.wait, bitN x.g, x.gslot, bitN x.ginv]
  | .tmin d a b fmt rnd sat x => [d, a, b, fmt, rnd, bitN sat, x.ahead, x.scope, x.ord, x.wait, bitN x.g, x.gslot, bitN x.ginv]
  | .tact d a fmt rnd fn x => [d, a, fmt, rnd, fn, x.ahead, x.scope, x.ord, x.wait, bitN x.g, x.gslot, bitN x.ginv]
  | .tcvt d a fmt rnd dfmt sat sel x => [d, a, fmt, rnd, dfmt, bitN sat, sel, x.ahead, x.scope, x.ord, x.wait, bitN x.g, x.gslot, bitN x.ginv]
  | .ttrn d a fmt sel x => [d, a, fmt, sel, x.ahead, x.scope, x.ord, x.wait, bitN x.g, x.gslot, bitN x.ginv]
  | .tplane d a pf sel x => [d, a, pf, sel, x.ahead, x.scope, x.ord, x.wait, bitN x.g, x.gslot, bitN x.ginv]
  | .tred d a fmt dir op x => [d, a, fmt, bitN dir, op, x.ahead, x.scope, x.ord, x.wait, bitN x.g, x.gslot, bitN x.ginv]
  | .tbcast d a fmt kind dir x => [d, a, fmt, kind, bitN dir, x.ahead, x.scope, x.ord, x.wait, bitN x.g, x.gslot, bitN x.ginv]
  | .cpy len a b ssp scs dsp dcs tc nv nreg ncore x => (match len with | .reg r => [a, b, ssp, scs, dsp, dcs, tc, x.ahead, x.scope, x.ord, x.wait, bitN x.g, x.gslot, bitN x.ginv, bitN nv, nreg, ncore, r] | .lit l => [a, b, ssp, scs, dsp, dcs, tc, x.ahead, x.scope, x.ord, x.wait, bitN x.g, x.gslot, bitN x.ginv, bitN nv, nreg, ncore, l.toNat])
  | .cpyw len a b ssp scs dsp dcs tc nv nreg ncore wreg wsp wcs x => (match len with | .reg r => [a, b, ssp, scs, dsp, dcs, tc, x.ahead, x.scope, x.ord, x.wait, bitN x.g, x.gslot, bitN x.ginv, bitN nv, nreg, ncore, wreg, wsp, wcs, r] | .lit l => [a, b, ssp, scs, dsp, dcs, tc, x.ahead, x.scope, x.ord, x.wait, bitN x.g, x.gslot, bitN x.ginv, bitN nv, nreg, ncore, wreg, wsp, wcs, l.toNat])
  | .xfm a b dlay slay tc xop i1 i2 i1v i2v rnd x => [a, b, dlay, slay, tc, xop, x.ahead, x.scope, x.ord, x.wait, bitN x.g, x.gslot, bitN x.ginv, i1, i2, bitN i1v, bitN i2v, rnd]
  | .layv a slot tc x => [a, slot, tc, x.ahead, x.scope, x.ord, x.wait, bitN x.g, x.gslot, bitN x.ginv]
  | .coll d a b op red ty span tc nv nreg ncore root ssp dsp x => [d, a, b, op, red, ty, bitN span, tc, x.ahead, x.scope, x.ord, x.wait, bitN x.g, x.gslot, bitN x.ginv, bitN nv, nreg, ncore, root, ssp, dsp]
  | .tcwait a tc => [a, tc]
  | .tcrd d issued tc => [d, issued, tc]
  | .mrecv d n => [d, n]
  | .hset clr a n => [bitN clr, a, n]
  | .join a => [a]
  | .yield => []
  | .exit => []
  | .rein => []
  | .reinq d => [d]
  | .msend a b kind slot mreg rargb rpay codew x => [a, b, kind, slot, mreg, x.ahead, x.scope, x.ord, x.wait, bitN x.g, x.gslot, bitN x.ginv, rargb, rpay, codew]
  | .fork a b full rargb rjoin x => [a, b, bitN full, x.ahead, x.scope, x.ord, x.wait, bitN x.g, x.gslot, bitN x.ginv, rargb, rjoin]
  | .start a b rargb x => [a, b, x.ahead, x.scope, x.ord, x.wait, bitN x.g, x.gslot, bitN x.ginv, rargb]
  | .sysrd d a sel => [d, a, sel]
  | .syswr d a sel => [d, a, sel]
  | .trap n => [n]
  | .eret => []
  | .bankcfg a mode esize => [a, mode, esize]
  | .dirrd d => [d]
  | .dirwr a => [a]
  | .tick d => [d]
  | .mark a stopk => [a, stopk]
  | .launch _ _ _ => []
  | .messagePortWrite _ _ _ => []
  | .apertureWrite _ _ _ => []
  | .cxlMemWrite _ _ => []
  | .hostRead _ _ => []
  | .hostSnoop _ => []
  | .preempt _ => []
  | .resume _ => []
  | .preemptBudgetExpiry _ => []
  | .preemptImageWrite _ => []
  | .preemptAbandon _ => []
  | .resumeLoad _ => []
  | .vcoreSwitch _ => []
  | .arbiterGrant _ => []
  | .helperPark _ => []
  | .parkedHelperReturn _ => []
  | .stealProbe _ => []
  | .stealProbeArrival _ => []
  | .stealAnswer _ => []
  | .stealSweepBackoff _ => []
  | .messageArrival _ => []
  | .registerWriteApply _ => []
  | .spillRefill _ => []
  | .joinWake _ _ => []
  | .tcwaitWake _ _ => []
  | .commandDispatch _ => []
  | .copyChannelTransfer _ _ => []
  | .transformRun _ => []
  | .collectiveMatch _ => []
  | .commandComplete _ _ => []
  | .bankSwitchPoint _ _ => []
  | .bankTileCopy _ _ => []
  | .bankClearDone _ _ => []
  | .postedStorePerform _ => []
  | .atomicPerform _ _ => []
  | .fifoWaitServe _ _ => []
  | .storeProbeAnswer _ _ _ => []
  | .pageWalk _ _ _ => []
  | .xinvWrite _ => []
  | .l2LoadMissFill _ _ _ => []
  | .l2Writeback _ _ _ => []
  | .controllerLineWrite _ _ _ => []
  | .controllerPartialMerge _ _ _ => []
  | .controllerLineRead _ => []
  | .metadataMiss _ _ => []
  | .metadataWriteback _ _ => []
  | .aliasRead _ _ => []
  | .aliasWriteRepack _ _ _ _ => []
  | .stampedWriteApply _ => []
  | .directoryOverflowRequest _ => []
  | .directoryConfigWrite _ _ _ => []
  | .stampbaseWrite _ _ => []
  | .fltringWrite _ => []
  | .powercapWrite _ => []
  | .tandemcfgWrite _ => []
  | .hostRegisterWrite _ _ => []
  | .mstart _ => []
  | .mdata _ => []
  | .mend _ => []
  | .qnonce _ => []
  | .quoteComplete => []
  | .powerUp => []
  | .functionReady _ => []
  | .functionFailed _ => []
  | .powerWindow _ => []
  | .thermalSample _ => []
  | .errorEvent _ => []
  | .linkRetrainDone _ => []
  | .linkDown _ => []
  | .tandemBringUp _ _ => []
  | .tandemWriteFlit _ _ _ => []
  | .tandemMsgFlit _ _ => []
  | .tandemCollFlit _ => []
  | .tandemCtrlFlit _ => []
  | .stop _ => []
  | .stopTickReached => []
  | .debugResume _ => []
  | .stat _ => []
  | .scan _ => []
  | .rdreg _ => []
  | .wrreg _ => []
  | .rdmem _ => []
  | .wrmem _ => []
  | .debuggerWriteApply => []
  | .tickset _ => []
  | .setbp _ => []
  | .clrbp _ => []
  | .breakpointMatch _ _ => []
  | .stampRecordWrite _ => []
  | .counterSample _ => []
  | .birsp _ => []

/-- What bits are (R171, R184). -/
inductive Decoded where
  /-- An instruction, and its length: in words from `decode`, in bytes from `decodeBytes`. -/
  | ok (i : Instr) (len : Nat)
  /-- The first four rows of R184: FLT_ILLEGAL. -/
  | illegal
  /-- The last three rows of R184: FLT_RESERVED, naming the field by its lowest bit. -/
  | reserved (lo : Nat)
  /-- Fewer bytes than the instruction has: the bytes say nothing of it. -/
  | short
  deriving DecidableEq, Repr

/-- The fault that decides by R431: the first row of R184, then the lowest bit. -/
def firstFault : List FieldFault → Option FieldFault
  | [] => none
  | f :: fs =>
    match firstFault fs with
    | none => some f
    | some g => if f.1 < g.1 || (f.1 == g.1 && f.2 ≤ g.2) then some f else some g

/-- The row of a list whose keys `w` has. -/
def findRow (rows : List OpRow) (w : Nat) : Option OpRow := rows.find? (·.hits w)

/-- Length in words of an instruction with first word `w`, by its length code (R172). -/
def lenOf (w : Nat) : Nat :=
  match w % 4 with
  | 0 => 1
  | 1 => 2
  | 2 => 3
  | _ => 5

/-- Whether a first word is the first word of some instruction: otherwise it is illegal whatever follows (R171, R184). -/
noncomputable def firstWordKnown (w : Nat) : Bool := opRows.any (·.hitsFirst w)

/-- The instruction of a list of rows with bits `w`, for a helper (`h`) or a control context, and its length in words; or
why there is none (R184, R431). -/
def decodeIn (rows : List OpRow) (h : Bool) (w : Nat) : Decoded :=
  match findRow rows w with
  | none => .illegal
  | some r =>
    let i := r.make fun n => (parVals r.fields w).getD n 0
    match firstFault (fixedFaults r.fields w ++ i.faults h) with
    | some f => .reserved f.2
    | none => .ok i r.len

/-- The instruction with bits `w`, or why there is none (R184, R431). -/
noncomputable def decode (h : Bool) (w : Nat) : Decoded := decodeIn opRows h w

/-- The number little-endian bytes make (R4). -/
def bytesToNat : List Byte → Nat
  | [] => 0
  | b :: bs => b.toNat + 256 * bytesToNat bs

/-- The `n` little-endian bytes of a number (R4). -/
def natToBytes : Nat → Nat → List Byte
  | 0, _ => []
  | n + 1, w => BitVec.ofNat 8 w :: natToBytes n (w / 256)

/-- Decoding of any bytes, the first at the instruction's address (R171): the instruction and its length in bytes. -/
noncomputable def decodeBytes (h : Bool) (bs : List Byte) : Decoded :=
  if bs.length < 4 then .short
  else
    let w0 := bytesToNat (bs.take 4)
    if !firstWordKnown w0 then .illegal
    else
      let n := 4 * lenOf w0
      if bs.length < n then .short
      else
        match decode h (bytesToNat (bs.take n)) with
        | .ok i _ => .ok i n
        | e => e

/-- The row of an instruction's form. -/
noncomputable def Instr.row (i : Instr) : Option OpRow := opRows[i.rowIdx]?

/-- The bits of an instruction; of an agent's step, none. -/
noncomputable def encodeNat (i : Instr) : Nat :=
  match i.row with
  | some r => pack r.fields i.vals
  | none => 0

/-- Length in words of an instruction; of an agent's step, 0. -/
noncomputable def Instr.len (i : Instr) : Nat :=
  match i.row with
  | some r => r.len
  | none => 0

/-- The `n` 32-bit words of a number, the first the least significant. -/
def natToWords : Nat → Nat → List W32
  | 0, _ => []
  | n + 1, w => BitVec.ofNat 32 w :: natToWords n (w / 2 ^ 32)

/-- The words of an instruction, lowest address first (R171 to R179). -/
noncomputable def encode (i : Instr) : List W32 := natToWords i.len (encodeNat i)

/-- The bytes of an instruction, lowest address first (R4). -/
noncomputable def encodeBytes (i : Instr) : List Byte := natToBytes (4 * i.len) (encodeNat i)

/-- The instruction the decoder reads in a control context from an instruction whose bits are `w`, every bit from
`nbits` on zero. -/
noncomputable def decodeTableWord (nbits w : Nat) : Option Instr :=
  match decodeBytes false (natToBytes 20 (w % 2 ^ nbits)) with
  | .ok i _ => some i
  | _ => none

end Sys2Proof
end

