-- ==== Sys2Proof/Machine/State.lean ====
section
/-! DEFINITION. The state of the device, as plain data: every register, queue, cache, bank and memory the spec gives the
machine, and State.reset, the machine right after power-up. INVENTORY.md lists each with its rule and reset value. -/

namespace Sys2Proof.Machine

/-- Memory: address and byte pairs, addresses strictly rising, no byte equal to 0, which every unlisted address reads as
(log 1). -/
abbrev Mem := List Host.Cell

/-- One run of a run vector (R227). -/
structure Run where
  val : W32
  len : Nat
  deriving DecidableEq, Repr

/-- One run of a mask (R228). -/
structure KRun where
  val : Bool
  len : Nat
  deriving DecidableEq, Repr

/-- A branch-target register (R8, R209): address, valid bit, the tags of its context and of the context's code version, and
the physical line of the prefetch that is held for it, if one is (R62, R210). -/
structure BTarget where
  addr : Word
  valid : Bool
  slot : Nat
  major : Nat
  minor : Nat
  pre : Option Nat
  deriving DecidableEq, Repr

/-- A branch-target register as a start leaves it: not valid (R35). -/
def BTarget.clear : BTarget := ⟨0, false, 0, 0, 0, none⟩

/-- A pending write record of R76 and R344. `outer` marks a window opened before the trap being handled. -/
structure Pend where
  isVec : Bool
  reg : Nat
  word : Word
  runs : List Run
  count : Nat
  outer : Bool
  deriving DecidableEq, Repr

/-- The five states of a context (R32). -/
inductive CtxSt where
  | idle | live | waiting | parked | saved
  deriving DecidableEq, Repr

/-- What a WAITING context waits for (R32, R47, R52, R163). -/
inductive Wait where
  | none
  /-- MRECV of a message register. -/
  | mrecv (n : Nat)
  /-- JOIN of the cell at this address. -/
  | join (a : Word)
  /-- A JOIN whose cell at this address has read zero: executed again, it completes (R47, R48). -/
  | joined (a : Word)
  /-- TCWAIT of a counter for a number. -/
  | tcwait (tc : Nat) (n : Word)
  deriving DecidableEq, Repr

/-- One context of a core (R30, R31). A helper uses the part of each family that its view names. -/
structure Ctx where
  st : CtxSt
  pc : Word
  /-- s0 to s47; entry 0 is never read (R8). -/
  s : Vector Word 48
  /-- v0 to v15, as run lists (R227). -/
  v : Vector (List Run) 16
  /-- k0 to k7, as run lists; entry 0 is never read (R228). -/
  k : Vector (List KRun) 8
  /-- g0 to g15: values, and whether each current instance is resolved (R8, R70). -/
  g : Vector Bool 16
  gres : Vector Bool 16
  b : Vector BTarget 8
  /-- Operand latch A (R79). -/
  la : Word
  /-- Operand latch B (R79). -/
  lb : Word
  /-- The destination of the pending transfer, while one is held (R213). -/
  tv : Option Word
  /-- The transfer that a trap holds while the handler runs (R418, R420). -/
  held : Option Word
  pend : List Pend
  trapCause : Word
  trapPc : Word
  trapAddr : Word
  /-- The context runs its trap handler (R420). -/
  inHandler : Bool
  /-- Privileged by descent (R316). -/
  priv : Bool
  group : Nat
  /-- The virtual core whose GEOM it reads (R44). -/
  vcore : Nat
  domain : Nat
  cls : Nat
  major : Nat
  minor : Nat
  /-- The cell decremented at its end, or zero (R38, R47). -/
  cell : Word
  /-- Whether `cell` is a DONE cell of a launch; otherwise a join cell. -/
  cellDone : Bool
  /-- SAVE address of the launch (R36). -/
  save : Word
  /-- Started from a FULL task (R335). -/
  full : Bool
  /-- Words of the inline code it runs from an inbox buffer; empty when it holds no buffer (R54). -/
  code : List W32
  wait : Wait
  /-- Tick at which it began to wait (R43, R48). -/
  since : Nat
  /-- The value MRECV takes at its return from parking (R48). -/
  given : Option Word
  /-- The paddock bank on whose queue it waits (R120). -/
  stall : Option Nat
  /-- The tick of its turn, and those at which its scalar registers, vectors, masks and guards were written last (R396). -/
  now : Nat
  sw : Vector Nat 48
  vw : Vector Nat 16
  kw : Vector Nat 8
  gw : Vector Nat 16
  deriving DecidableEq, Repr

/-- A live architectural tile (R63, R65): the physical tile it maps to, its tag, its 64 rows, the T1 of the TLD that
wrote it, if one did, and whether that tick lay in a capture window (R396, R398), the tick at which it was written, and
its failing 8-byte words (R454). -/
structure Tile where
  phys : Nat
  tag : BitVec 7
  rows : Vector Row 64
  t1 : Option (Nat × Bool)
  written : Nat
  bad : List Nat
  deriving DecidableEq, Repr

/-- The latched fault of a counter (R422, R423). -/
structure Latch where
  num : Word
  code : Nat
  acc : Nat
  addr : Word
  deriving DecidableEq, Repr

/-- A timeline counter (R163). -/
structure TCounter where
  issued : Word
  done : Word
  latch : Option Latch
  deriving DecidableEq, Repr

/-- Where an asynchronous command stands (R284). -/
inductive Stage where
  /-- Sent, not yet taken by its engine. -/
  | sent
  /-- Taken by a copy channel. -/
  | chan (n : Nat)
  /-- Taken by the transform engine. -/
  | engine
  /-- Taken by the collective port. -/
  | port
  /-- A COLL of SPAN 1 whose writes are made, and which waits for what came of the peer's (R492). -/
  | judged
  /-- Every write performed; DONE has not passed it yet. -/
  | complete
  deriving DecidableEq, Repr

/-- The fault of a command (R422): CODE, INFO, ACC and address. -/
structure CmdFault where
  code : Nat
  info : Nat
  acc : Nat
  addr : Word
  deriving DecidableEq, Repr

/-- What a command does (R285, R292, R294, R301). -/
inductive CmdOp where
  /-- CPY, or CPYW with the space, core-select mode and address of its write-pointer cell. -/
  | copy (ssp scs dsp dcs : Nat) (ptr : Option (Nat × Nat × Word))
  /-- XFM: operation, source and destination slot, the intermediate formats, RND, and whether the bases are replaced. -/
  | xfm (xop slay dlay : Nat) (i1 i2 : Option Nat) (rnd : Nat) (baseA baseB : Bool)
  /-- LAYV into a slot. -/
  | layv (slot : Nat)
  /-- COLL, and its sequence number among its participant's COLLs (R302). -/
  | coll (op red ty : Nat) (span : Bool) (root ssp dsp seq : Nat)
  deriving DecidableEq, Repr

/-- A sent asynchronous command (R163, R283): its counter and number, what it does, the operands it took at rename, the
notification it asks for, who sent it and where, and how far it has come. -/
structure Cmd where
  tc : Nat
  num : Word
  op : CmdOp
  /-- s[A], s[B], and the length, count or zero. -/
  a : Word
  b : Word
  len : Word
  /-- NREG and NCORE of R289. -/
  notify : Option (Nat × Nat)
  pc : Word
  /-- CTXID of the sending context. -/
  ctxid : Word
  group : Nat
  vcore : Nat
  priv : Bool
  stage : Stage
  /-- Bytes moved so far; what is read and not yet written, by a copy or as the source of a COLL of SPAN 1; and the last value of a
  write-pointer cell (R286, R492). -/
  off : Nat
  word : Option (List Byte)
  cellAt : Nat
  fault : Option CmdFault
  deriving DecidableEq, Repr

/-- A task record (R45). -/
structure Task where
  pc : Word
  arga : Word
  argb : Word
  join : Word
  full : Bool
  pinned : Bool
  vcore : Nat
  pid : Nat
  group : Nat
  domain : Nat
  /-- Class of the forker (R325). -/
  cls : Nat
  /-- Privileged descent (R316). -/
  priv : Bool
  deriving DecidableEq, Repr

/-- An accepted launch (R36). -/
structure Launch where
  chan : Nat
  pc : Word
  arga : Word
  argb : Word
  save : Word
  done : Word
  group : Nat
  domain : Nat
  cls : Nat
  helper : Bool
  pid : Nat
  vcore : Nat
  /-- Privileged binding of its channel (R326). -/
  priv : Bool
  deriving DecidableEq, Repr

/-- A message (R50). KIND: 0 register write, 1 handler, 2 inline code. -/
structure Msg where
  kind : Nat
  mreg : Nat
  slot : Nat
  srcv : Nat
  /-- The target virtual core. -/
  dstv : Nat
  pid : Nat
  group : Nat
  domain : Nat
  peer : Bool
  arga : Word
  argb : Word
  pay : List Word
  code : List W32
  priv : Bool
  /-- Code version of the sender, taken by inline code (R357). -/
  major : Nat
  minor : Nat
  deriving DecidableEq, Repr

/-- A request for the directory overflow handler (R156): reason 0 ADD, 1 COLLECT, 2 DROP. -/
structure DirReq where
  reason : Nat
  sharer : Nat
  die : Nat
  slice : Nat
  pid : Nat
  vln : Nat
  deriving DecidableEq, Repr

/-- The result of a translation: physical address, the leaf, and the size of its page as a power of two (R126). -/
structure Trans where
  pa : Nat
  leaf : Word
  size : Nat
  deriving DecidableEq, Repr

/-- Where a posted store goes: a pad location, or a translated GLOBAL address; or, in the place of a store, a FENCE that its
context has passed: its scope, and whether it is FULL (R149, R223). -/
inductive Dest where
  /-- The key of a pad byte (padKey of Base). -/
  | pad (key : Nat)
  | glb (t : Trans)
  | fence (scope : Nat) (full : Bool)
  deriving DecidableEq, Repr

/-- The forms of access that R436 tells apart. -/
inductive Form where
  | scalar | vmem | atomic
  /-- A tile access; whether its window is the full one of R265. -/
  | tile (full : Bool)
  deriving DecidableEq, Repr

/-- A posted store that has left the core and is not yet performed (R144, R145): who sent it, whether it stood in the slot of
a transfer, and in which form. -/
structure Posted where
  slot : Nat
  pt : Bool
  form : Form
  /-- The tick at which it left. -/
  born : Nat
  ctxid : Word
  pid : Nat
  pc : Word
  /-- The address as named, with its space, for a record of R491. -/
  space : Nat
  addr : Word
  bytes : List Byte
  dest : Dest
  /-- The other bytes of one alias block that the same store writes: offset in the block and bytes, in order (R108, R142). -/
  also : List (Nat × List Byte)
  deriving DecidableEq, Repr

/-- Why a core is pre-empted (R335): a PREEMPT request, a switch of R43, or a YIELD of R310. -/
inductive PreWhy where
  | request | switch | yield
  deriving DecidableEq, Repr

/-- A pre-emption in progress (R336): the tick its interrupt arrived, whether it is held while a handler runs (R335), whether
its budget has expired, and the accesses that had issued by cycle 0: slot and PC of contexts that wait on a queue. -/
structure Preempt where
  why : PreWhy
  start : Nat
  held : Bool
  expired : Bool
  issued : List (Nat × Word)
  /-- Every word of the image but the header's last is written (R336). -/
  imaged : Bool
  deriving DecidableEq, Repr

/-- A resume waiting at a core (R346). `task` names an image of the spill area (R335). -/
structure Resume where
  pid : Nat
  vcore : Nat
  va : Word
  task : Bool
  /-- Made by a RESUME request, not by R43. -/
  asked : Bool
  deriving DecidableEq, Repr

/-- The steal prober of a core (R330). -/
structure Steal where
  /-- The next candidate of the sweep, as an offset from the thief's own number. -/
  next : Nat
  /-- The victim of the probe on its way or answered, when one is out. -/
  victim : Option Nat
  /-- Whether the probe has reached the victim. -/
  arrived : Bool
  /-- The task the answer carries. -/
  task : Option Task
  /-- Whether the sweep took a task. -/
  took : Bool
  /-- Waiting out an empty sweep. -/
  backoff : Bool
  /-- The tick at which the probe was sent, or the empty sweep ended. -/
  since : Nat
  deriving DecidableEq, Repr

/-- A line of the byte instruction cache (R60). -/
structure ILine where
  pid : Nat
  vln : Nat
  pln : Nat
  data : List Byte
  deriving DecidableEq, Repr

/-- A decoded operation: its tags PID, context and code version, its address, the physical lines of its words, and
its words (R60, R62). Operations of inline code stand in no list: they are those of the words in the inbox buffer, Ctx.code, and go
with it (log 43). -/
structure DOp where
  pid : Nat
  slot : Nat
  major : Nat
  minor : Nat
  pc : Word
  lines : List Nat
  words : List Nat
  deriving DecidableEq, Repr

/-- A tile stamp (R396): PC, the instruction's major and minor, PID, DISC, the five ticks and whether T1 lay in a capture window
(R398). T5 is none while it waits for it. -/
structure TStamp where
  pc : Word
  major : Nat
  minor : Nat
  pid : Nat
  disc : Bool
  t1 : Nat
  t2 : Nat
  t3 : Nat
  t4 : Nat
  t5 : Option Nat
  win : Bool
  deriving DecidableEq, Repr

/-- A record on its way to a core's ring, which a stamp before it may hold back: a tile stamp, or the four words of a marker or a
sample (R395, R397). -/
inductive RingRec where
  | tile (t : TStamp)
  | words (w0 w1 w2 w3 : Nat)
  deriving DecidableEq, Repr

/-- A switch of a bank on its way to its switch point (R116). -/
structure BankSwitch where
  core : Nat
  mode : Nat
  esize : Nat
  pid : Nat
  deriving DecidableEq, Repr

/-- A bank of a paddock store (R113): the fields of BANKMAP, whether it is retired (R429) or being cleared (R117), the
contexts waiting on its queue in arrival order (R120), and the switches that have not reached it yet. -/
structure Bank where
  mode : Nat
  pid : Nat
  esize : Nat
  head : Nat
  tail : Nat
  count : Nat
  retired : Bool
  clearing : Bool
  waiters : List (Nat × Nat)
  switches : List BankSwitch
  deriving DecidableEq, Repr

/-- One core (R13, R30). -/
structure Core where
  ctl : Ctx
  /-- h0 to h9. -/
  hs : Vector Ctx 10
  /-- Resident PID, and whether one was taken since power-up (R33). -/
  pid : Nat
  resident : Bool
  /-- Process core map and grid record of the resident PID (R39). -/
  map : Vector Word 256
  grid : Word
  /-- t0 to t15; none is a dead tile (R63). -/
  tiles : Vector (Option Tile) 16
  /-- m0 to m15 and their full bits (R52). -/
  m : Vector Word 16
  mfull : Vector Bool 16
  /-- Group and target virtual core of the message each register holds (R33). -/
  mfrom : Vector (Nat × Nat) 16
  handler : Vector Word 64
  tcs : Vector TCounter 8
  /-- Layout slots: the 64 bytes of each record (R293). -/
  layouts : Vector (Option (List Byte)) 16
  /-- Fork deque, bottommost task first; tasks on the spill ring stand above, bottommost first (R45). -/
  deque : List Task
  spTasks : List Task
  inbox : List Msg
  spInbox : List Msg
  backlog : List Msg
  spBacklog : List Msg
  launchQ : List Launch
  spLaunch : List Launch
  /-- Messages sent and not yet arrived, oldest first (R50). -/
  inbound : List Msg
  /-- Parked helpers, the longest parked first (R48). -/
  parked : List Ctx
  /-- Incomplete commands, in the order sent. -/
  cmds : List Cmd
  /-- Arbiter pointer RR and credits (R327). -/
  rr : Nat
  cred : Vector Nat 64
  stampBase : Word
  /-- Records that have not reached the ring, oldest first (R397). -/
  stamps : List RingRec
  /-- The tick of the last sample (R399). -/
  sampleAt : Option Nat
  /-- Event counters E0 to E5 since the last sample (R399). -/
  ev : Vector Nat 6
  dirPc : Word
  dirArea : Word
  /-- The request h9 handles, and those queued behind it (R156). -/
  dirReq : Option DirReq
  dirQ : List DirReq
  /-- Broadcast mode of the slices h9 serves (R463). -/
  bcast : Bool
  posted : List Posted
  /-- Breakpoints: PID and address (R392). -/
  bps : Vector (Option (Nat × Word)) 4
  ctlStat : Word
  preempt : Option Preempt
  /-- Resumes waiting at the core, oldest first (R346). -/
  resumes : List Resume
  /-- The virtual core that a switch of R43 or R310 saved, while no launch of another has started since and no control
  context has been granted. -/
  switched : Option Nat
  steal : Steal
  icache : List ILine
  /-- The decoded-operation cache (R60). -/
  ops : List DOp
  /-- The sixteen home banks (R15). -/
  banks : Vector Bank 16
  deriving DecidableEq, Repr

/-- A line of an L2 (R122): tag, physical line, bytes, valid and dirty byte masks, the C bit of the page it was
translated by, directory pointers and OVF (R155), failing bytes (R454). -/
structure L2Line where
  pid : Nat
  vln : Nat
  pln : Nat
  data : List Byte
  valid : List Bool
  dirty : List Bool
  comp : Bool
  sharers : List Nat
  ovf : Bool
  bad : List Nat
  deriving DecidableEq, Repr

/-- A line of a paddock cache, and the paddock bank, its way, that holds it (R121). -/
structure PLine where
  bank : Nat
  pid : Nat
  vln : Nat
  pln : Nat
  data : List Byte
  bad : Bool
  deriving DecidableEq, Repr

/-- A TLB entry (R127): PID, page number VA / 2^size, leaf. -/
structure TlbEnt where
  pid : Nat
  page : Nat
  size : Nat
  leaf : Word
  deriving DecidableEq, Repr

/-- A 64-byte metadata line held by a controller (R134), as 128 tags, and the tags it changed (R408). -/
structure MetaLine where
  line : Nat
  tags : List Nat
  dirty : List Bool
  deriving DecidableEq, Repr

/-- A stamped write or counter notice on its way to a place (R158): the images of the sectors it touches, each with its
address; a notice has none. `comp` is the C bit of the page. Of a sector whose other bytes are uncorrectable at the origin
only the bytes written travel: `parts` (R426, R456). -/
structure Delivery where
  dst : Nat
  origin : Nat
  stamp : List Nat
  images : List (Nat × List Byte)
  comp : Bool
  parts : List (Nat × List Byte)
  /-- The core and the slot of the context whose posted access it is, if it is one's (R145). -/
  owner : Option (Nat × Nat)
  deriving DecidableEq, Repr

/-- The stamp and origin of the last image applied to a sector at a place (R159). -/
structure SectorStamp where
  place : Nat
  sector : Nat
  stamp : List Nat
  origin : Nat
  deriving DecidableEq, Repr

/-- A SAVED control context (R32, R335): where its image lies, the core that saved it, and the messages diverted for its
virtual core (R339). -/
structure Saved where
  pid : Nat
  vcore : Nat
  core : Nat
  va : Word
  /-- Saved from a FULL task: the image lies in the spill area and `image` holds it. -/
  task : Bool
  image : List Byte
  group : Nat
  /-- The groups of every context that the image holds (R57, R476). -/
  groups : List Nat
  cls : Nat
  /-- Waits to resume at its own core as an entry of arbiter source 66 (R43, R335). -/
  waits : Bool
  /-- Helpers that the image holds, bit n for hn. -/
  helpers : Nat
  /-- Parked helpers of the virtual core, the longest parked first (R332, R338). -/
  parked : List Ctx
  diverted : List Msg
  deriving DecidableEq, Repr

/-- Where a debugger's access goes: a physical address, or bytes of an alias array's BF16 view (R107, R391). -/
inductive DbgDest where
  | phys (pa : Nat)
  | view (desc off : Nat)
  deriving DecidableEq, Repr

/-- The debugger's side of the device (R385 to R392). -/
structure Dbg where
  stopped : Bool
  byBp : Bool
  bpCore : Nat
  bpSlot : Nat
  /-- The tick of the requested stop, when one is requested. -/
  stopReq : Option Nat
  /-- The tick of the stop in force. -/
  stopTick : Nat
  tickSet : Option Word
  /-- Running-clock writes: tick, where to, bytes (R169). -/
  writes : List (Nat × DbgDest × List Byte)
  /-- Contexts that stand at a breakpoint they have matched, and contexts let go past theirs by a RESUME (R388, R392). -/
  atBp : List (Nat × Nat)
  pastBp : List (Nat × Nat)
  /-- DBGRSP: VALUE, STATUS and PEND. -/
  value : Word
  status : Nat
  pendBit : Bool
  /-- Bytes of the last SCAN (R389). -/
  stream : List Byte
  deriving DecidableEq, Repr

/-- What this device sends to the peer (R377): a write into its window, as its offset, its bytes within one 64-byte range and
its stamp; a remote message; collective traffic; and in CTRL a counter notice, a raised rein line, a tick,
this box's WSIZE (R379), and a precise stop of the pair (R387, R392). -/
inductive PeerFlit where
  | write (off : Nat) (bytes : List Byte) (stamp : List Nat)
  | msg (m : Msg)
  | coll (f : CollFlit)
  | notice (stamp : List Nat)
  | rein (pid group : Nat)
  | tick (t : Word)
  | size (gib : Nat)
  | stop (t : Nat)
  deriving DecidableEq, Repr

/-- A host request that waits for a READY bit (R373). -/
inductive HostReq where
  /-- A launch for a core, with its CONTROL.ORD. -/
  | launch (core : Nat) (l : Launch) (ord : Bool)
  /-- A message of a channel's message port for a core. -/
  | msg (chan core : Nat) (m : Msg)
  /-- A write of HBM, issued on a channel or on none. -/
  | write (chan : Option Nat) (pa : Nat) (bytes : List Byte)
  /-- A CXL.mem read. -/
  | read (pa n : Nat)
  deriving DecidableEq, Repr

/-- A write of the device itself that waits: for the host to give up its line, for the overflow handler's answer, for a
controller, or for the writes before its release (R148, R155, R156, R367, R457). -/
inductive DevOp where
  /-- Bytes at a physical address, within one line. -/
  | write (pa : Nat) (bytes : List Byte)
  /-- The decrement of a cell: core, PID, the slots whose posted stores its release covers, the scope of that release, CTXID of who
  owes it, address (R38, R47, R421, R493). -/
  | dec (core pid : Nat) (slots : List Nat) (scope : Nat) (id a : Word)
  /-- The raise of a group's rein line with the release of R56: core, the slots whose posted stores the release covers, PID, group
  (R421, R466). -/
  | rein (core : Nat) (slots : List Nat) (pid group : Nat)
  /-- The TYPE 3 record of a unit that no access of a context met: CLASS, INDEX and the source of R453 (R426, R457). -/
  | unit (cls idx src : Nat)
  deriving DecidableEq, Repr

/-- Who moves next: the model's own schedule (log 3). -/
inductive Turn where
  /-- A context executes its next instruction: core, slot (15 the control context). -/
  | ctx (core slot : Nat)
  /-- A step of the opcode table is taken. -/
  | agent (i : Instr)
  /-- Clocks run for `n` ticks. -/
  | elapse (n : Nat)
  /-- A host agent writes host memory. -/
  | hostStore (pa : Nat) (bytes : List Byte)
  /-- The Tandem peer writes the memory it exports. -/
  | peerStore (off : Nat) (bytes : List Byte)
  /-- The Tandem peer's precise stop of the pair arrives (R387, R392). -/
  | peerStop (t : Nat)
  /-- The debugger captures DBGRSP once more: the next 64 bits of a SCAN's stream (R389). -/
  | capture
  deriving DecidableEq, Repr

/-- The state of the device. -/
structure State where
  /-- The model's own: who moves next, the context that moves, a counter that makes each free value a fresh one
  (logs 3, 24). -/
  turns : List Turn
  curCore : Nat
  curSlot : Nat
  fresh : Nat
  cores : Vector Core 96
  /-- Fuses: enabled cores of each die (R29). -/
  coresen : Vector (BitVec 48) 2
  tick : Nat
  /-- Ticks for which the counter of a role-1 box stands still, until role 0's value reaches it (R384). -/
  tickWait : Nat
  /-- Bytes of the paddock stores, by padKey of Base; failing 8-byte words, by key (R454). -/
  pad : Mem
  padBad : List Nat
  /-- Physical memory: HBM with its metadata region, host memory, the peer's window (R21). -/
  phys : Mem
  /-- Failing HBM sectors, by address; lines whose tag is uncorrectable, by number (R454, R457). -/
  hbmBad : List Nat
  tagBad : List Nat
  /-- 8-byte words of failing sectors that were written whole since: table entries there are good (R454). -/
  wordGood : List Nat
  l2 : Vector (List L2Line) 2
  pcache : Vector (List PLine) 12
  tlb : Vector (List TlbEnt) 16
  metas : Vector (List MetaLine) 16
  /-- Vectors of the four places (R158). -/
  vecs : Vector (List Nat) 4
  flights : List Delivery
  stamps : List SectorStamp
  /-- HBM lines the host caches, and half lines whose BIRsp has not arrived (R367). -/
  hostLines : List Nat
  bisnp : List Nat
  /-- Lines whose overflow mask the handler has returned for the write that waits: die, physical line, MASK (R156). -/
  collected : List (Nat × Nat × Nat)
  /-- Writes of the device itself that wait, oldest first. -/
  devQ : List DevOp
  /-- Answer to the last host read (R490). -/
  hostData : List Byte
  /-- Raised rein lines and stopped groups with the INFO of the breach, by PID and group (R56, R466). -/
  reins : List (Nat × Nat)
  stoppedGroups : List (Nat × Nat × Nat)
  saved : List Saved
  /-- COLLs sent so far, by PID, group and participant (R302). -/
  collSeq : List (Nat × Nat × Nat × Nat)
  /-- Device register space (R368). -/
  ready : Word
  failed : Word
  clients : Vector Word 64
  apBase : Vector Word 64
  trapEnt : Vector Word 64
  versions : Vector (BitVec 128) 1024
  ctlRes : Word
  /-- RESUME requests whose header is not read yet: PID and address (R346). -/
  resumeReqs : List (Nat × Word)
  /-- PIDs whose spill control blocks were written, by others than the device, since it last started their PEAK again (R332). -/
  spillWrote : List Nat
  fltRing : Word
  spillQ : Word
  procBase : Word
  ptBase : Word
  aliasTab : Vector Word 256
  cap : Nat
  clkStep : Nat
  therm : Nat
  /-- p of R375, windows in a row below CAP - 25 W, windows in a row above CAP at STEP 9 (R487). -/
  pwrP : Nat
  pwrLow : Nat
  pwrHigh : Nat
  /-- Ticks of the last power window's end and of the last sensor sample (R375). -/
  pwrTick : Nat
  thermTick : Nat
  /-- Host requests that wait for a READY bit, in arrival order (R373). -/
  hostWait : List HostReq
  /-- CXL.mem writes whose completion the host port owes, by their counter of place 2, and completions that it has returned
  (R168, R490). -/
  cxlOpen : List Nat
  cxlDone : Nat
  /-- Measurement: open (PID, BASE, bytes), ERR and FULL (R381, R485). -/
  meas : Option (Nat × Word × List Byte)
  measErr : Bool
  measFull : Bool
  attest : List (List Byte)
  /-- The quote in progress: nonce and N; QSTAT; the digest signed last (R382). -/
  quote : Option (List Byte × Nat)
  qstat : Word
  signed : Option (BitVec 512)
  /-- Capture count OPEN (R398). -/
  openCount : Nat
  dbg : Dbg
  /-- Clocks gated by the shutdown of R487. -/
  halted : Bool
  /-- Error events: class, index, uncorrectable, tick; units declared lasting (R428). -/
  errors : List (Nat × Nat × Bool × Nat)
  /-- Uncorrectable errors reported through CXL.io, for reads of failed stacks (R486). -/
  cxlioErrs : Nat
  retired : List (Nat × Nat)
  /-- Links: TANDEMCFG, the host port declared down (R481), the peer's exported size in GiB, flits sent in order, flits received and not applied, COLL traffic received, ticks of MSENDs to the peer per PID and group, tick of the last discard record (R377, R482, R483). -/
  tandemCfg : Word
  hostDown : Bool
  peerSize : Nat
  peerOut : List PeerFlit
  peerMsgs : List Msg
  /-- CTRL flits of the peer that wait for a notice before them (R377). -/
  peerCtrl : List CtrlFlit
  peerColl : List CollFlit
  peerSends : List (Nat × Nat × Nat)
  discardTick : Option Nat
  /-- TANDEMCFG.EN was written 1 after 0 since the link was last declared down, so that it may come up (R481). -/
  tandemArmed : Bool
  deriving DecidableEq, Repr

/-- Why the machine stops. -/
inductive Fault where
  /-- A host's access, or a peer's write that WBASE leads out of HBM, names a physical address that R21 leaves unmapped, and the spec
  gives no answer. Raised by the host's steps and by TANDEM_WRITE_FLIT; safe. -/
  | hostHole
  deriving DecidableEq, Repr

/-- Why an instruction is refused. -/
inductive Refusal where
  /-- No meaning yet; raised by the dispatch; safe. -/
  | notModelled (mnemonic : String)
  deriving DecidableEq, Repr

/-- A context before its first start: IDLE, every register zero, empty or clear (log 2). -/
def Ctx.reset : Ctx :=
  { st := .idle, pc := 0, s := Vector.replicate 48 0, v := Vector.replicate 16 [], k := Vector.replicate 8 [],
    g := Vector.replicate 16 false, gres := Vector.replicate 16 true, b := Vector.replicate 8 BTarget.clear, la := 0, lb := 0, tv := none, held := none, pend := [],
    trapCause := 0, trapPc := 0, trapAddr := 0, inHandler := false, priv := false, group := 0, vcore := 0, domain := 0,
    cls := 0, major := 3, minor := 2, cell := 0, cellDone := false, save := 0, full := false, code := [],
    wait := .none, since := 0, given := none, stall := none, now := 0, sw := Vector.replicate 48 0,
    vw := Vector.replicate 16 0, kw := Vector.replicate 8 0, gw := Vector.replicate 16 0 }

/-- A bank at power-up in a mode: 1 PAD, 4 TILE (R113, R114). -/
def Bank.init (mode pid : Nat) : Bank :=
  { mode := mode, pid := pid, esize := 0, head := 0, tail := 0, count := 0, retired := false, clearing := false,
    waiters := [], switches := [] }

/-- The home banks of an enabled core at power-up: local banks 0 to 2 TILE, 3 to 15 PAD (R114). -/
def Bank.home (pid : Nat) : Vector Bank 16 :=
  let t := Bank.init 4 pid
  let p := Bank.init 1 pid
  #v[t, t, t, p, p, p, p, p, p, p, p, p, p, p, p, p]

/-- A timeline counter at reset (R163). -/
def TCounter.reset : TCounter := ⟨0, 0, none⟩

/-- An idle steal prober. -/
def Steal.idle : Steal := { next := 1, victim := none, arrived := false, task := none, took := false, backoff := false, since := 0 }

/-- An enabled core at power-up. -/
def Core.reset : Core :=
  { ctl := Ctx.reset, hs := Vector.replicate 10 Ctx.reset, pid := 0, resident := false, map := Vector.replicate 256 0, grid := 0,
    tiles := Vector.replicate 16 none, m := Vector.replicate 16 0, mfull := Vector.replicate 16 false,
    mfrom := Vector.replicate 16 (0, 0),
    handler := Vector.replicate 64 0, tcs := Vector.replicate 8 TCounter.reset, layouts := Vector.replicate 16 none,
    deque := [], spTasks := [], inbox := [], spInbox := [], backlog := [], spBacklog := [], launchQ := [],
    spLaunch := [], inbound := [], parked := [], cmds := [], rr := 0, cred := Vector.replicate 64 0, stampBase := 0,
    stamps := [], sampleAt := none, ev := Vector.replicate 6 0, dirPc := 0, dirArea := 0, dirReq := none, dirQ := [], bcast := false,
    posted := [], bps := Vector.replicate 4 none, ctlStat := 0, preempt := none, resumes := [], switched := none, steal := Steal.idle,
    icache := [], ops := [], banks := Bank.home 0 }

/-- The debugger's side at power-up. -/
def Dbg.reset : Dbg :=
  { stopped := false, byBp := false, bpCore := 0, bpSlot := 0, stopReq := none, stopTick := 0, tickSet := none,
    writes := [], atBp := [], pastBp := [], value := 0, status := 0, pendBit := false, stream := [] }

/-- The device right after power-up, on the full grade (R114; logs 1, 2, 6). -/
def State.reset : State :=
  { turns := [], curCore := 0, curSlot := 15, fresh := 0,
    cores := Vector.replicate 96 Core.reset, coresen := Vector.replicate 2 (BitVec.allOnes 48), tick := 0, tickWait := 0,
    pad := [], padBad := [], phys := [], hbmBad := [], tagBad := [], wordGood := [], l2 := Vector.replicate 2 [],
    pcache := Vector.replicate 12 [], tlb := Vector.replicate 16 [], metas := Vector.replicate 16 [],
    vecs := Vector.replicate 4 [0, 0, 0, 0], flights := [], stamps := [], hostLines := [], bisnp := [], collected := [], devQ := [], hostData := [],
    reins := [], stoppedGroups := [], saved := [], collSeq := [], ready := 0, failed := 0,
    clients := Vector.replicate 64 0, apBase := Vector.replicate 64 0, trapEnt := Vector.replicate 64 0,
    versions := Vector.replicate 1024 0, ctlRes := 0, resumeReqs := [], spillWrote := [], fltRing := 0, spillQ := 0, procBase := 0, ptBase := 0,
    aliasTab := Vector.replicate 256 0, cap := 800, clkStep := 0, therm := 0, pwrP := 0, pwrLow := 0, pwrHigh := 0, pwrTick := 0, thermTick := 0,
    hostWait := [], cxlOpen := [], cxlDone := 0, meas := none, measErr := false, measFull := false, attest := [], quote := none, qstat := 0,
    signed := none, openCount := 0, dbg := Dbg.reset, halted := false, errors := [], cxlioErrs := 0, retired := [], tandemCfg := 0,
    hostDown := false, peerSize := 0, peerOut := [], peerMsgs := [], peerCtrl := [], peerColl := [], peerSends := [], discardTick := none, tandemArmed := false }

end Sys2Proof.Machine
end

