-- ==== Sys2Proof/Machine/Mem.lean ====
section
/-! DEFINITION. Memory as a canonical list of cells, reads and writes of one byte and of byte runs, and the bit-field,
extension and byte-order helpers that every meaning uses (R3, R4). -/

namespace Sys2Proof.Machine

/-- The canonical form: addresses strictly rising, no byte 0 (log 1). -/
def Memory.wf : Mem → Bool
  | [] => true
  | (a, b) :: r => b != 0 && (match r with | [] => true | (a', _) :: _ => decide (a < a')) && Memory.wf r

/-- The byte at `x`: 0 where nothing is listed. -/
def memGet : Mem → Nat → Byte
  | [], _ => 0
  | (a, b) :: r, x => if a = x then b else if x < a then 0 else memGet r x

/-- The byte at `x` becomes `v`. -/
def memSet : Mem → Nat → Byte → Mem
  | [], x, v => if v = 0 then [] else [(x, v)]
  | (a, b) :: r, x, v =>
    if a = x then (if v = 0 then r else (a, v) :: r)
    else if x < a then (if v = 0 then (a, b) :: r else (x, v) :: (a, b) :: r)
    else (a, b) :: memSet r x v

/-- The `n` bytes from `a` on. -/
def memRead (m : Mem) (a : Nat) : Nat → List Byte
  | 0 => []
  | n + 1 => memGet m a :: memRead m (a + 1) n

/-- The bytes from `a` on become `bs`. -/
def memWrite (m : Mem) (a : Nat) : List Byte → Mem
  | [] => m
  | b :: bs => memWrite (memSet m a b) (a + 1) bs

/-- The bytes from `lo` up to `hi` (excluded) become 0. -/
def memClear (m : Mem) (lo hi : Nat) : Mem := m.filter fun c => decide (c.1 < lo) || decide (hi ≤ c.1)

/-- Entry `i` of a fixed array. -/
def vget {α : Type} {n : Nat} (v : Vector α n) (i : Nat) (d : α) : α := v[i]?.getD d

/-- Bits hi down to lo of `w`, as a number (R3). -/
def fld (w : Nat) (hi lo : Nat) : Nat := w / 2 ^ lo % 2 ^ (hi + 1 - lo)

/-- Bits hi down to lo of a word. -/
def wfld (w : Word) (hi lo : Nat) : Nat := fld w.toNat hi lo

/-- Bit `i` of a word. -/
def wbit (w : Word) (i : Nat) : Bool := w.getLsbD i

/-- A number placed at bit `lo`. -/
def put (v lo : Nat) : Nat := v * 2 ^ lo

/-- A Boolean as a bit. -/
def b2n (b : Bool) : Nat := if b then 1 else 0

/-- The low `n` bits of a word, sign-extended to 64 bits. -/
def sextW (n : Nat) (w : Word) : Word := (w.setWidth n).signExtend 64

/-- The low `n` bits of a word, zero-extended to 64 bits. -/
def zextW (n : Nat) (w : Word) : Word := (w.setWidth n).setWidth 64

/-- Little-endian bytes of a word, `n` of them (R4). -/
def wordBytes (n : Nat) (w : Word) : List Byte := natToBytes n w.toNat

/-- The word that little-endian bytes make, zero-extended (R4). -/
def bytesWord (bs : List Byte) : Word := BitVec.ofNat 64 (bytesToNat bs)

/-- A list's elements from `i` on replaced by `ys`, as far as they reach. -/
def splice {α : Type} (xs : List α) (i : Nat) (ys : List α) : List α :=
  xs.take i ++ ys.take (xs.length - i) ++ xs.drop (i + ys.length)

/-- The elements `i` to `i + n - 1`. -/
def slice {α : Type} (xs : List α) (i n : Nat) : List α := (xs.drop i).take n

/-- The first element that satisfies `p` becomes `f` of it. -/
def updFirst {α : Type} (p : α → Bool) (f : α → α) : List α → List α
  | [] => []
  | x :: xs => if p x then f x :: xs else x :: updFirst p f xs

end Sys2Proof.Machine
end

