-- ==== Sys2Proof/Machine/Base.lean ====
section
/-! DEFINITION. Reading and replacing the parts of the state: cores, contexts, banks; which core, die and paddock a number
names; the physical address map (R13, R20, R21, R110, R111). -/

namespace Sys2Proof.Machine

/-- Core `c`. -/
def State.core (s : State) (c : Nat) : Core := vget s.cores c Core.reset

/-- Core `c` becomes `k`. -/
def State.setCore (s : State) (c : Nat) (k : Core) : State := { s with cores := s.cores.setIfInBounds c k }

/-- The context in a slot: 0 to 9 h0 to h9, 15 the control context (R34). -/
def Core.ctx (k : Core) (slot : Nat) : Ctx := if slot = 15 then k.ctl else vget k.hs slot Ctx.reset

/-- The context in a slot becomes `x`. -/
def Core.setCtx (k : Core) (slot : Nat) (x : Ctx) : Core :=
  if slot = 15 then { k with ctl := x } else { k with hs := k.hs.setIfInBounds slot x }

/-- The context of core `c` in a slot. -/
def State.ctx (s : State) (c slot : Nat) : Ctx := (s.core c).ctx slot

/-- That context becomes `x`. -/
def State.setCtx (s : State) (c slot : Nat) (x : Ctx) : State := s.setCore c ((s.core c).setCtx slot x)

/-- The core that moves. -/
def State.me (s : State) : Core := s.core s.curCore

/-- The core that moves becomes `k`. -/
def State.setMe (s : State) (k : Core) : State := s.setCore s.curCore k

/-- The context that moves. -/
def State.cur (s : State) : Ctx := s.me.ctx s.curSlot

/-- The context that moves becomes `x`. -/
def State.setCur (s : State) (x : Ctx) : State := s.setMe (s.me.setCtx s.curSlot x)

/-- Event counter `i` of a core counts `n` more, up to 0xFFFF_FFFF (R399). -/
def State.bumpEv (s : State) (core i n : Nat) : State :=
  let k := s.core core
  s.setCore core { k with ev := k.ev.setIfInBounds i (min (vget k.ev i 0 + n) 0xFFFFFFFF) }

/-- Whether the context that moves is a helper. -/
def State.helper (s : State) : Bool := s.curSlot != 15

/-- Die of a core (R13). -/
def dieOf (core : Nat) : Nat := core / 48

/-- Paddock of a core, counted over both dies, 0 to 11 (R13). -/
def padOf (core : Nat) : Nat := core / 8

/-- Whether a core is enabled (R29). -/
def State.enabled (s : State) (core : Nat) : Bool :=
  decide (core < 96) && (vget s.coresen (dieOf core) 0).getLsbD (core % 48)

/-- CTXID (R34). -/
def ctxidWord (group vcore core pid slot : Nat) : Word :=
  BitVec.ofNat 64 (put (group % 65536) 32 + put (vcore % 256) 24 + put (core % 128) 10 + put (pid % 64) 4 + slot % 16)

/-- CTXID of the context of a core in a slot. -/
def State.ctxid (s : State) (c slot : Nat) : Word :=
  ctxidWord (s.ctx c slot).group (s.ctx c slot).vcore c (s.core c).pid slot

/-- The regions of the physical address map (R21). -/
inductive Region where
  | hbm | metadata | device | host | tandem | hole
  deriving DecidableEq, Repr

/-- First address of the metadata region (R21). -/
def metaBase : Nat := 0x47_B800_0000
/-- First address above HBM (R21). -/
def hbmEnd : Nat := 0x48_0000_0000
/-- First address of the device register space (R21). -/
def devBase : Nat := 0x1000_0000_0000
/-- First address of host memory (R21). -/
def hostBase : Nat := 0x2000_0000_0000
/-- First address of the Tandem window (R21). -/
def tandemBase : Nat := 0x3000_0000_0000

/-- Region of a physical address (R21). -/
def regionOf (pa : Nat) : Region :=
  if pa < metaBase then .hbm
  else if pa < hbmEnd then .metadata
  else if devBase ≤ pa ∧ pa < devBase + 0x4000_0000 then .device
  else if hostBase ≤ pa ∧ pa < tandemBase then .host
  else if tandemBase ≤ pa ∧ pa < 0x3800_0000_0000 then .tandem
  else .hole

/-- The controller that serves a physical address (R20). -/
def ctrlOf (pa : Nat) : Nat := (pa / 256 % 16) ^^^ (pa / 65536 % 16)

/-- The memory place of an address: its controller's die, the host, or the peer (R138). -/
def memPlace (pa : Nat) : Nat :=
  match regionOf pa with
  | .host => 2
  | .tandem => 3
  | _ => ctrlOf pa / 8

/-- The key of a pad byte: core that is its bank's home, local bank, byte within the bank. -/
def padKey (home bank off : Nat) : Nat := (home * 16 + bank) * 131072 + off

/-- The core that is home of the bank of a pad byte. -/
def keyHome (key : Nat) : Nat := key / 131072 / 16
/-- The local bank of a pad byte. -/
def keyBank (key : Nat) : Nat := key / 131072 % 16
/-- The byte within the bank. -/
def keyOff (key : Nat) : Nat := key % 131072

/-- A bank, by its home core and local number. -/
def State.bank (s : State) (home b : Nat) : Bank := vget (s.core home).banks b (Bank.init 0 0)

/-- A bank becomes `x`. -/
def State.setBank (s : State) (home b : Nat) (x : Bank) : State :=
  s.setCore home { s.core home with banks := (s.core home).banks.setIfInBounds b x }

/-- The pad byte a LOCAL address of a core names (R110). -/
def localKey (core a : Nat) : Nat := padKey core (a / 131072 % 16) (a % 131072)

/-- The pad byte a PADDOCK address names for a core: BLOCKED, or INTERLEAVED for core-select mode 1 (R111). -/
def paddockKey (core csel a : Nat) : Nat :=
  if csel = 1 then
    let o := a / 64 * 8 + a % 8
    padKey (padOf core * 8 + a / 8 % 8) (o / 131072 % 16) (o % 131072)
  else padKey (padOf core * 8 + a / 2097152 % 8) (a / 131072 % 16) (a % 131072)

/-- The pad byte that a LOCAL or PADDOCK address names (R110, R111). -/
def padOfAddr (core space csel : Nat) (a : Word) : Nat :=
  if space = 0 then localKey core a.toNat else paddockKey core csel a.toNat

/-- Whether a 64-bit address is a canonical 48-bit virtual address (R109). -/
def canonical (a : Word) : Bool := sextW 48 a == a

/-- The 48-bit virtual address of a canonical address. -/
def va48 (a : Word) : Nat := a.toNat % 2 ^ 48

/-- Virtual line number VA[47:7] (R122). -/
def vlnOf (va : Nat) : Nat := va / 128

/-- L2 home slice of a virtual line (R122). -/
def sliceOf (pid vln : Nat) : Nat := ((vln % 65536) ^^^ (vln / 65536 % 65536) ^^^ (vln / 2 ^ 32 % 512) ^^^ pid) % 48

/-- L2 set of a virtual line (R122). -/
def setOf (vln : Nat) : Nat := (vln % 512) ^^^ (vln / 2 ^ 32 % 512)

end Sys2Proof.Machine
end

