-- ==== Sys2Proof/Machine/Controller.lean ====
section
/-! DEFINITION. The memory controllers: line tags and their cache, compressed forms, reading and writing of HBM lines, and
what a failing sector or tag does (R130 to R134, R454, R456, R457). -/

namespace Sys2Proof.Machine

/-- Number of the metadata line (metadata address / 64) that holds the tag of line `l` (R134). -/
def metaLineOf (l : Nat) : Nat := (metaBase + l / 2) / 64

/-- The 128 tags of 64 metadata bytes, the even line's in the low nibble (R134). -/
def tagsOfBytes : List Byte → List Nat
  | [] => []
  | b :: bs => b.toNat % 16 :: b.toNat / 16 :: tagsOfBytes bs

/-- The bytes of tags, two a byte. -/
def bytesOfTags : List Nat → List Byte
  | [] => []
  | [t] => [BitVec.ofNat 8 t]
  | t :: u :: ts => BitVec.ofNat 8 (t + 16 * u) :: bytesOfTags ts

/-- Keep the old entries where the mask is false, take the new where it is true. -/
def mergeBy {α : Type} : List Bool → List α → List α → List α
  | c :: cs, n :: ns, o :: os => (if c then n else o) :: mergeBy cs ns os
  | _, _, os => os

/-- The metadata lines a controller holds. -/
def State.metaCache (s : State) (c : Nat) : List MetaLine := vget s.metas c []

/-- They become `m`. -/
def State.setMeta (s : State) (c : Nat) (m : List MetaLine) : State := { s with metas := s.metas.setIfInBounds c m }

/-- Write back the changed tags of a metadata line, and only those (R134, R408). -/
def metaWriteback (s : State) (m : MetaLine) : State :=
  let old := tagsOfBytes (memRead s.phys (m.line * 64) 64)
  { s with phys := memWrite s.phys (m.line * 64) (bytesOfTags (mergeBy m.dirty m.tags old)) }

/-- Evict metadata line `line` from controller `c`, written back if it was changed (R134). -/
def metaEvict (s : State) (c line : Nat) : State :=
  match (s.metaCache c).find? (·.line == line) with
  | none => s
  | some m =>
    let s := if m.dirty.any id then metaWriteback s m else s
    s.setMeta c ((s.metaCache c).filter (·.line != line))

/-- Metadata miss: the controller reads the metadata line; a full cache of 4,096 lines evicts its oldest (R134, log 13). -/
def metaLoad (s : State) (c line : Nat) : State :=
  if (s.metaCache c).any (·.line == line) then s
  else
    let s := match s.metaCache c with
      | m :: _ => if 4096 ≤ (s.metaCache c).length then metaEvict s c m.line else s
      | [] => s
    let m : MetaLine :=
      { line := line, tags := tagsOfBytes (memRead s.phys (line * 64) 64), dirty := List.replicate 128 false }
    s.setMeta c (s.metaCache c ++ [m])

/-- The tag of line `l`, through the metadata cache of the controller that serves it. -/
def tagRead (s : State) (l : Nat) : Nat × State :=
  let c := ctrlOf (l * 128)
  let s := metaLoad s c (metaLineOf l)
  match (s.metaCache c).find? (·.line == metaLineOf l) with
  | some m => (m.tags.getD (l % 128) 0, s)
  | none => (0, s)

/-- The tag of line `l` becomes `t`. -/
def tagWrite (s : State) (l t : Nat) : State :=
  let c := ctrlOf (l * 128)
  let s := metaLoad s c (metaLineOf l)
  s.setMeta c (updFirst (·.line == metaLineOf l)
    (fun m => { m with tags := m.tags.set (l % 128) t, dirty := m.dirty.set (l % 128) true }) (s.metaCache c))

/-- The base-and-delta forms: tag, element bytes, delta bytes (R130). -/
def deltaForms : List (Nat × Nat × Nat) := [(3, 8, 1), (4, 8, 2), (5, 8, 4), (6, 4, 1), (7, 4, 2), (8, 2, 1)]

/-- Sectors read for a tag (R130). -/
def tagSectors (t : Nat) : Nat := [4, 0, 1, 1, 2, 3, 2, 3, 3].getD t 4

/-- The elements of `n` bytes of a line, as numbers. -/
def elems (n : Nat) : Nat → List Byte → List Nat
  | 0, _ => []
  | k + 1, bs => bytesToNat (bs.take n) :: elems n k (bs.drop n)

/-- Whether an element's delta from the base fits in `d` bytes of two's complement (R130). -/
def deltaFits (s d base e : Nat) : Bool :=
  let m := 2 ^ (8 * s)
  let x := (e + m - base % m) % m
  decide (x < 2 ^ (8 * d - 1)) || decide (m - 2 ^ (8 * d - 1) ≤ x)

/-- Whether a line has the form of elements of `s` bytes and deltas of `d` bytes. -/
def formFits (s d : Nat) (line : List Byte) : Bool :=
  let es := elems s (128 / s) line
  es.all (deltaFits s d (es.headD 0))

/-- The stored bytes of a base-and-delta form. -/
def formStore (s d : Nat) (line : List Byte) : List Byte :=
  let es := elems s (128 / s) line
  let base := es.headD 0
  let m := 2 ^ (8 * s)
  natToBytes s base ++ (es.map fun e => natToBytes d ((e + m - base) % m)).flatten

/-- The line that a base-and-delta form holds. -/
def formExpand (s d : Nat) (stored : List Byte) : List Byte :=
  let base := bytesToNat (stored.take s)
  ((elems d (128 / s) (stored.drop s)).map fun x =>
    natToBytes s (base + if x < 2 ^ (8 * d - 1) then x else x + 2 ^ (8 * s) - 2 ^ (8 * d))).flatten

/-- Whether a line is 16 equal non-zero 8-byte elements (R130). -/
def isConst (line : List Byte) : Bool :=
  let es := elems 8 16 line
  es.all (fun e => e == es.headD 0) && es.headD 0 != 0

/-- The tag the controller chooses for a line on a page with bit C (R131): fewest sectors, ties to the lower tag. -/
def chooseTag (c : Bool) (line : List Byte) : Nat :=
  if !c then 0
  else if line.all (· == 0) then 1
  else
    let ok := (if isConst line then [2] else []) ++
      (deltaForms.filter fun f => formFits f.2.1 f.2.2 line).map (·.1)
    ok.foldl (fun best t => if best = 0 ∨ tagSectors t < tagSectors best then t else best) 0

/-- The stored bytes of a line under a tag (R130). -/
def storedBytes (t : Nat) (line : List Byte) : List Byte :=
  if t = 0 then line
  else if t = 1 then []
  else if t = 2 then line.take 8
  else match deltaForms.find? (·.1 == t) with
    | some f => formStore f.2.1 f.2.2 line
    | none => line

/-- The 128 bytes a tag and the slot's bytes stand for (R130, R132). -/
def expandLine (t : Nat) (slot : List Byte) : List Byte :=
  if t = 0 then slot
  else if t = 1 then List.replicate 128 0
  else if t = 2 then (List.replicate 16 (slot.take 8)).flatten
  else match deltaForms.find? (·.1 == t) with
    | some f => formExpand f.2.1 f.2.2 slot
    | none => slot

/-- A line as a controller delivers it: its bytes, which of its four sectors are good, and the source of R453 for the
others. -/
structure LineData where
  data : List Byte
  good : List Bool
  src : Nat
  deriving DecidableEq, Repr

/-- Whether sector `k` of line `l` fails. -/
def sectorBad (s : State) (l k : Nat) : Bool := s.hbmBad.contains (l * 128 + k * 32)

/-- A line whose bytes cannot be told: `src` is the source of R453, or 0 where the read must wait. -/
def LineData.none (src : Nat) : LineData := { data := List.replicate 128 0, good := List.replicate 4 false, src := src }

/-- Whether the tag of a line can be read now: its metadata line is held, or the controller that serves it is ready (R134,
R457). -/
def metaReady (s : State) (l : Nat) : Bool :=
  (s.metaCache (ctrlOf (l * 128))).any (·.line == metaLineOf l) || wbit s.ready (32 + ctrlOf (metaLineOf l * 64))

/-- CLASS 3 INDEX of the metadata-cache way that holds a line's tag: kind 2, the controller, the way (R428; log 13). -/
def metaIndex (l : Nat) : Nat := 2 * 65536 + ctrlOf (l * 128) * 256 + (Config.wayOf 2 (metaLineOf l)).toNat

/-- The tag of a line as it stands: in the cache of the controller that serves the line, the only one that keeps it valid, else
in the metadata region (R134, R408). -/
def tagNow (s : State) (l : Nat) : Nat :=
  match (s.metaCache (ctrlOf (l * 128))).find? (·.line == metaLineOf l) with
  | some m => m.tags.getD (l % 128) 0
  | none =>
    let b := (memGet s.phys (metaBase + l / 2)).toNat
    if l % 2 = 0 then b % 16 else b / 16

/-- A reserved tag makes its 8-byte unit, 16 tags, uncorrectable: all their lines fail, and one record is owed (R408, R457). -/
def tagUnitCheck (s : State) (l : Nat) : State :=
  let u := l / 16 * 16
  let ls := (List.range 16).map (u + ·)
  if ls.any fun x => decide (9 ≤ tagNow s x) && !s.tagBad.contains x then
    { s with tagBad := ls ++ s.tagBad.filter (fun x => !ls.contains x), devQ := s.devQ ++ [.unit 3 (metaIndex u) 2] }
  else s

/-- A line read by its tag and expanded, whether or not its controller is ready (R132, R454, R457). -/
def lineReadNow (s : State) (l : Nat) : LineData × State :=
  let (t, s) := tagRead s l
  let s := tagUnitCheck s l
  if s.tagBad.contains l then (LineData.none 2, s)
  else
    let raw := if t = 1 then [] else memRead s.phys (l * 128) 128
    let good :=
      if t = 0 then (List.range 4).map fun k => !sectorBad s l k
      else List.replicate 4 ((List.range (tagSectors t)).all fun k => !sectorBad s l k)
    ({ data := expandLine t raw, good := good, src := 1 }, s)

/-- CONTROLLER_LINE_READ: a read whose metadata line a controller that is not ready serves must wait (R132, R457). -/
def lineRead (s : State) (l : Nat) : LineData × State := if metaReady s l then lineReadNow s l else (LineData.none 0, s)

/-- No sector of line `l` fails any more. -/
def clearBad (s : State) (l : Nat) : State :=
  { s with hbmBad := s.hbmBad.filter (fun a => a / 128 != l), tagBad := s.tagBad.filter (· != l),
           wordGood := s.wordGood.filter fun a => a / 128 != l }

/-- CONTROLLER_LINE_WRITE: a whole line is written under the tag R131 chooses (R131). -/
def lineWrite (s : State) (l : Nat) (line : List Byte) (c : Bool) : State :=
  let t := chooseTag c line
  let s := clearBad (tagWrite s l t) l
  { s with phys := memWrite s.phys (l * 128) (storedBytes t line) }

/-- Whether every one of the 32 bytes of sector `k` is in the mask. -/
def sectorCovered (mask : List Bool) (k : Nat) : Bool := (slice mask (k * 32) 32).all id

/-- Words of line `l` that a write covers whole, by address. -/
def coveredWords (l : Nat) (mask : List Bool) : List Nat :=
  ((List.range 16).filter fun i => (slice mask (i * 8) 8).all id).map fun i => l * 128 + i * 8

/-- CONTROLLER_PARTIAL_MERGE: the bytes of `line` under `mask` are merged into line `l` in one step (R133); a failing
line is written with tag 0x0, its uncovered sectors still failing, but for the table entries written (R454, R456). -/
def lineMerge (s : State) (l : Nat) (mask : List Bool) (line : List Byte) (c : Bool) : State :=
  let (old, s) := lineReadNow s l
  if old.good.all id then lineWrite s l (mergeBy mask line old.data) c
  else
    let raw := mergeBy mask line old.data
    let bad := ((List.range 4).filter fun k => !(sectorCovered mask k)).map fun k => l * 128 + k * 32
    let words := coveredWords l mask ++ s.wordGood.filter fun a => a / 128 == l && !(coveredWords l mask).contains a
    let s := clearBad (tagWrite s l 0) l
    { s with phys := memWrite s.phys (l * 128) raw, hbmBad := bad ++ s.hbmBad,
             wordGood := words.filter (fun a => bad.contains (a / 32 * 32)) ++ s.wordGood }

/-- A mask over 128 bytes that is true on `n` bytes from `off`. -/
def rangeMask (off n : Nat) : List Bool :=
  (List.range 128).map fun i => decide (off ≤ i) && decide (i < off + n)

/-- A line with `bs` at byte `off`, the other bytes 0. -/
def lineWith (off : Nat) (bs : List Byte) : List Byte := splice (List.replicate 128 0) off bs

/-- Bytes of one line of HBM read at their controller, each with whether it is good; the source of R453 for those that are
not, 0 where the read must wait. -/
def hbmRead (s : State) (pa n : Nat) : (List (Byte × Bool) × Nat) × State :=
  let (d, s) := lineRead s (pa / 128)
  let off := pa % 128
  (((slice d.data off n).zipIdx.map fun x => (x.1, d.good.getD ((off + x.2) / 32) false), d.src), s)

/-- An 8-byte table entry read at its controller; a source of R453 where it fails, 0 where the read must wait. An entry
that was written since its sector failed is good (R126, R454). -/
def entryRead (s : State) (pa : Nat) : Except Nat Word × State :=
  let ((bs, src), s) := hbmRead s pa 8
  (if bs.all (·.2) || (src == 1 && s.wordGood.contains pa) then .ok (bytesWord (bs.map (·.1))) else .error src, s)

/-- HBM bytes within one line written at their controller. -/
def hbmWrite (s : State) (pa : Nat) (bs : List Byte) (c : Bool) : State :=
  if bs.length = 128 then lineWrite s (pa / 128) bs c
  else lineMerge s (pa / 128) (rangeMask (pa % 128) bs.length) (lineWith (pa % 128) bs) c

end Sys2Proof.Machine
end

