-- ==== Sys2Proof/Machine/Translate.lean ====
section
/-! DEFINITION. Translation: the page tables, the walk, the stations' TLBs, permissions (R125 to R129, R444, R445). -/

namespace Sys2Proof.Machine

/-- A memory fault of an access: CODE and INFO of R415, R444, R445, R453 or R482, how far the lowest failing byte lies
above the access's first byte, and CLASS and INDEX of R428 of the unit where uncorrectable data was met. -/
structure MemFault where
  code : Nat
  info : Nat
  off : Nat
  unit : Option (Nat × Nat)
  deriving DecidableEq, Repr

/-- FLT_XLATE with a REASON, and the level of the walk where one is named (R444). -/
def xlate (reason level : Nat) : MemFault := { code := 0x08, info := level * 256 + reason, off := 0, unit := none }

/-- FLT_PERM for memory, INFO[7:0] (R445). -/
def permFault (bits : Nat) : MemFault := { code := 0x09, info := bits, off := 0, unit := none }

/-- FLT_PERM 0x04: an access kind the target does not take (R433, R436). -/
def kindFault : MemFault := { code := 0x09, info := 0x0400, off := 0, unit := none }

/-- FLT_MEMUE with its source and its failing unit (R428, R453). -/
def ueFault (src off cls idx : Nat) : MemFault :=
  { code := 0x0E, info := src * 4096, off := off, unit := some (cls, idx) }

/-- FLT_XLATE 0x05: uncorrectable data in a table entry (R444). -/
def walkUe (level pa : Nat) : MemFault := { xlate 5 level with unit := some (5, pa / 65536) }

/-- What an access that must wait and be tried again comes to; no fault has CODE 0 (R415, R457). -/
def stall : MemFault := { code := 0, info := 0, off := 0, unit := none }

/-- The end of a walk at an entry that cannot be read: FLT_XLATE 0x05, or a wait (R444, R457). -/
def entryFault (src level pa : Nat) : MemFault := if src = 0 then stall else walkUe level pa

/-- FLT_LINK: 1 the host port, 2 Tandem (R482). -/
def linkFault (l : Nat) : MemFault := { code := 0x0F, info := l, off := 0, unit := none }

/-- The kinds of access that a leaf permits (R128). -/
inductive Acc where
  | load | store | atomic | fetch
  deriving DecidableEq, Repr

/-- The ACC code of R416. -/
def Acc.code : Acc → Nat
  | .load => 1
  | .store => 2
  | .atomic => 3
  | .fetch => 4

/-- The permission bits of R445 that the access needs and the leaf lacks. -/
def permLack (a : Acc) (leaf : Word) : Nat :=
  let rd := if wbit leaf 2 then 0 else 4
  let w := if wbit leaf 3 then 0 else 8
  let x := if wbit leaf 4 then 0 else 16
  match a with
  | .load => rd
  | .store => w
  | .atomic => rd + w
  | .fetch => x

/-- The station of a page on a die, counted over both dies (R127). -/
def stationOf (die pid va : Nat) : Nat := die * 8 + ((va / 65536 % 8) ^^^ (va / 2 ^ 19 % 8) ^^^ (pid % 8))

/-- Address of the table a non-leaf entry names: [45:16] and [15:8] (R126). -/
def nextTable (e : Word) : Nat := wfld e 45 8 * 256

/-- Whether a non-leaf entry of `level` is malformed: reserved bits, leaf-only bits, NEXTLO (R444). -/
def badNonLeaf (level : Nat) (e : Word) : Bool :=
  wfld e 63 46 != 0 || wbit e 7 || wbit e 6 || wbit e 5 || wbit e 4 || wbit e 3 || wbit e 2 ||
    (decide (level < 3) && wfld e 11 8 != 0) || level == 4

/-- Size of the page a leaf of `level` maps, as a power of two (R126). -/
def leafSize (level : Nat) : Nat := if level = 2 then 30 else if level = 3 then 21 else 16

/-- Whether a leaf of `level` is malformed (R444). -/
def badLeaf (level : Nat) (e : Word) : Bool :=
  level == 1 || wfld e 63 46 != 0 || wbit e 7 || wfld e 15 14 != 0 ||
    (wbit e 6 && level != 4) || (!wbit e 6 && wfld e 45 16 * 65536 % 2 ^ leafSize level != 0)

/-- Physical address of a virtual address under a leaf; of an alias leaf, the alias byte offset (R126, R135). -/
def leafAddr (leaf : Word) (size va : Nat) : Nat := wfld leaf 45 16 * 65536 + va % 2 ^ size

/-- Whether READY.TANDEM is 1. -/
def State.tandemUp (s : State) : Bool := wbit s.ready 6

/-- Whether a leaf's address lies outside the map, in the metadata region, or beyond the peer's exported window while
the link is up (R379, R444). -/
def leafHole (s : State) (pa : Nat) : Bool :=
  match regionOf pa with
  | .hole | .metadata => true
  | .tandem => s.tandemUp && decide (s.peerSize * 2 ^ 30 ≤ pa - tandemBase)
  | _ => false

/-- Byte index of the entry of a level that a virtual address selects (R126). -/
def walkIndex (level va : Nat) : Nat :=
  if level = 1 then va / 2 ^ 39 % 512 else if level = 2 then va / 2 ^ 30 % 512
  else if level = 3 then va / 2 ^ 21 % 512 else va / 2 ^ 16 % 32

/-- Levels 5 - n to 4 of a walk, from the table at `table`; where the leaf's address lies is looked at afterwards (R126,
R444). -/
def walkFrom (s : State) (va : Nat) : Nat → Nat → Except MemFault Trans × State
  | 0, _ => (.error (xlate 3 4), s)
  | n + 1, table =>
    let level := 4 - n
    if regionOf table ≠ .hbm then (.error (xlate 4 (level - 1)), s)
    else
      match entryRead s (table + 8 * walkIndex level va) with
      | (.error src, s) => (.error (entryFault src level (table + 8 * walkIndex level va)), s)
      | (.ok e, s) =>
        if !wbit e 0 then (.error (xlate 2 level), s)
        else if wbit e 1 then
          if badLeaf level e then (.error (xlate 3 level), s)
          else (.ok { pa := leafAddr e (leafSize level) va, leaf := e, size := leafSize level }, s)
        else if badNonLeaf level e then (.error (xlate 3 level), s)
        else walkFrom s va n (nextTable e)

/-- PAGE_WALK: the walk from the root entry of a PID (R125, R126, R444). -/
def walk (s : State) (pid va : Nat) : Except MemFault Trans × State :=
  let root := wfld s.ptBase 45 12 * 4096
  if regionOf root ≠ .hbm then (.error (xlate 4 0), s)
  else
    match entryRead s (root + 8 * pid) with
    | (.error src, s) => (.error (entryFault src 0 (root + 8 * pid)), s)
    | (.ok e, s) =>
      if !wbit e 0 then (.error (xlate 2 0), s)
      else if wfld e 63 46 != 0 || wfld e 11 1 != 0 then (.error (xlate 3 0), s)
      else walkFrom s va 4 (wfld e 45 12 * 4096)

/-- The TLB entries of a station. -/
def State.station (s : State) (k : Nat) : List TlbEnt := vget s.tlb k []

/-- They become `t`. -/
def State.setStation (s : State) (k : Nat) (t : List TlbEnt) : State := { s with tlb := s.tlb.setIfInBounds k t }

/-- Whether a TLB entry maps a virtual address of a PID. -/
def TlbEnt.hits (e : TlbEnt) (pid va : Nat) : Bool := e.pid == pid && e.page == va / 2 ^ e.size

/-- A station keeps a walk's result; a full TLB of 4,096 entries drops its oldest (R127, log 13). -/
def tlbAdd (s : State) (k pid va : Nat) (t : Trans) : State :=
  let e : TlbEnt := { pid := pid, page := va / 2 ^ t.size, size := t.size, leaf := t.leaf }
  let old := s.station k
  s.setStation k ((if 4096 ≤ old.length then old.drop 1 else old) ++ [e])

/-- Level of the entry that maps pages of a size (R126). -/
def sizeLevel (size : Nat) : Nat := if size = 30 then 2 else if size = 21 then 3 else 4

/-- Reason 0x04 of a translation: its address lies outside the map (R379, R444). -/
def transHole (s : State) (t : Trans) : Option MemFault :=
  if !wbit t.leaf 6 && leafHole s t.pa then some (xlate 4 (sizeLevel t.size)) else none

/-- The leaf of a page at its station on a die: from the TLB, or by a walk whose valid result it keeps (R127). Whether the
address lies in the map is not looked at. -/
def translateAny (s : State) (die pid va : Nat) : Except MemFault Trans × State :=
  let k := stationOf die pid va
  match (s.station k).find? (·.hits pid va) with
  | some e => (.ok { pa := leafAddr e.leaf e.size va, leaf := e.leaf, size := e.size }, s)
  | none =>
    match walk s pid va with
    | (.ok t, s) => (.ok t, if (transHole s t).isSome then s else tlbAdd s k pid va t)
    | (.error f, s) => (.error f, s)

/-- Translation at the station of the page on a die (R127, R379, R444). -/
def translate (s : State) (die pid va : Nat) : Except MemFault Trans × State :=
  match translateAny s die pid va with
  | (.ok t, s) => (match transHole s t with
    | some f => .error f
    | none => .ok t, s)
  | r => r

/-- Translation with the permission check of R128. -/
def translateFor (s : State) (die pid va : Nat) (a : Acc) : Except MemFault Trans × State :=
  match translate s die pid va with
  | (.ok t, s) =>
    let lack := permLack a t.leaf
    if lack = 0 then (.ok t, s) else (.error (permFault lack), s)
  | r => r

/-- Whether an XINV operand names a TLB entry (R129). -/
def xinvMatches (w : Word) (e : TlbEnt) : Bool :=
  e.pid == wfld w 55 50 &&
    (wbit w 63 ||
      (e.size == [16, 21, 30].getD (wfld w 49 48) 0 && e.page == wfld w 47 16 * 65536 / 2 ^ e.size))

/-- XINV_WRITE: every station of both dies drops the matching entries (R129). No walk outlasts a step of this model. -/
def xinv (s : State) (w : Word) : State := { s with tlb := s.tlb.map fun t => t.filter fun e => !xinvMatches w e }

end Sys2Proof.Machine
end

