-- ==== Sys2Proof/Machine/Cache.lean ====
section
/-! DEFINITION. The caches and the places: L2 with its remap filter and directory, paddock caches, instruction caches,
stamped writes and their causal delivery (R60, R62, R121 to R124, R153 to R160, R448, R452 to R456). -/

namespace Sys2Proof.Machine

/-- What an access came to: done, a fault, or it must wait and be tried again. -/
inductive Res (α : Type) where
  | ok (a : α) (s : State)
  | flt (f : MemFault) (s : State)
  | wait (s : State)

/-- Go on with the value of a done access. -/
def Res.bind {α β : Type} (r : Res α) (f : α → State → Res β) : Res β :=
  match r with
  | .ok a s => f a s
  | .flt e s => .flt e s
  | .wait s => .wait s

/-- An access that faults, or waits where the fault is only the stall of a controller whose READY.MC bit is not set: CODE 0
(R457). -/
def Res.fault {α : Type} (f : MemFault) (s : State) : Res α := if f.code = 0 then .wait s else .flt f s

/-- A fault or a value, as an access. -/
def Res.of {α : Type} (r : Except MemFault α × State) : Res α :=
  match r with
  | (.ok a, s) => .ok a s
  | (.error f, s) => .fault f s

/-- What something that may have to wait has done, and asked of others, though nothing waits for it. -/
def asked (r : Res Unit) : State :=
  match r with
  | .ok _ s => s
  | .flt _ s => s
  | .wait s => s

/-- The L2 lines of a die. -/
def State.l2Of (s : State) (die : Nat) : List L2Line := vget s.l2 die []

/-- They become `ls`. -/
def State.setL2 (s : State) (die : Nat) (ls : List L2Line) : State := { s with l2 := s.l2.setIfInBounds die ls }

/-- The line of a die that holds physical line `pln`, under its canonical name: the entry of the remap filter (R123). -/
def l2Phys (s : State) (die pln : Nat) : Option L2Line := (s.l2Of die).find? (·.pln == pln)

/-- CLASS 2 INDEX of the L2 way of a line: die, slice, way (R428; log 13). -/
def l2Index (die slice pln : Nat) : Nat := die * 768 + slice * 16 + (Config.wayOf die pln).toNat

/-- The slice of a die's remap filter that holds the entry of a physical line (R123). -/
def filterSlice (pln : Nat) : Nat := ((pln % 65536) ^^^ (pln / 65536 % 65536) ^^^ (pln / 2 ^ 32 % 128)) % 48

/-- FLT_MEMUE of a line: source 1 HBM data, 2 its tag, whose unit has a record of its own, 3 the L2 copy of a die; 0 is a wait
(R428, R453, R457). -/
def lineUe (s : State) (src off die pln : Nat) : MemFault :=
  if src = 3 then
    let sl := match l2Phys s die pln with
      | some l => sliceOf l.pid l.vln
      | none => 0
    ueFault 3 off 2 (l2Index die sl pln)
  else if src = 2 then { ueFault 2 off 3 (metaIndex pln) with unit := none }
  else if src = 0 then stall
  else ueFault 1 off 5 (pln * 128 / 65536)

/-- That line becomes `f` of it. -/
def l2Upd (s : State) (die pln : Nat) (f : L2Line → L2Line) : State :=
  s.setL2 die (updFirst (·.pln == pln) f (s.l2Of die))

/-- The lines of a paddock cache. -/
def State.pc (s : State) (pad : Nat) : List PLine := vget s.pcache pad []

/-- They become `ls`. -/
def State.setPc (s : State) (pad : Nat) (ls : List PLine) : State := { s with pcache := s.pcache.setIfInBounds pad ls }

/-- The banks of a paddock in WAY mode, each one way of its cache (R121). -/
def wayBanks (s : State) (pad : Nat) : List Nat :=
  (List.range 128).filter fun i => (vget (s.core (pad * 8 + i / 16)).banks (i % 16) (Bank.init 0 0)).mode == 2

/-- Number of banks of a paddock in WAY mode (R121). -/
def wayCount (s : State) (pad : Nat) : Nat := (wayBanks s pad).length

/-- A context's prefetches of physical line `pln` are dropped (R62, R167). -/
def Ctx.dropPre (c : Ctx) (pln : Nat) : Ctx :=
  if c.b.toList.any fun t => t.pre == some pln then
    { c with b := c.b.map fun t => if t.pre == some pln then { t with pre := none } else t }
  else c

/-- A core's byte and decoded-operation caches drop physical line `pln`, and its contexts their prefetches of it (R62,
R167). -/
def dropCode (k : Core) (pln : Nat) : Core :=
  { k with icache := k.icache.filter (·.pln != pln), ops := k.ops.filter fun o => !o.lines.contains pln, ctl := k.ctl.dropPre pln,
           hs := k.hs.map fun c => c.dropPre pln, parked := k.parked.map fun c => c.dropPre pln }

/-- Whether a core holds code of physical line `pln`. -/
def holdsCode (k : Core) (pln : Nat) : Bool :=
  k.icache.any (·.pln == pln) || k.ops.any (·.lines.contains pln) ||
    (k.ctl :: k.hs.toList ++ k.parked).any fun c => c.b.toList.any fun t => t.pre == some pln

/-- The instruction caches of the 48 cores of a die drop physical line `pln` (R62). -/
def dropCodeDie (s : State) (die pln : Nat) : State :=
  (List.range 48).foldl (fun s i =>
    let c := die * 48 + i
    if holdsCode (s.core c) pln then s.setCore c (dropCode (s.core c) pln) else s) s

/-- Whether a paddock cache holds physical line `pln`, under whichever name (R123). -/
def pcHolds (s : State) (pad pln : Nat) : Bool := (s.pc pad).any (·.pln == pln)

/-- Whether a die holds anything of a physical line: its L2, a paddock cache under any name, or the code of a core (R62, R123, R155,
R225; log 42). -/
def dieHolds (s : State) (die pln : Nat) : Bool :=
  (l2Phys s die pln).isSome || ((List.range 6).any fun i => pcHolds s (die * 6 + i) pln) ||
    (List.range 48).any fun i => holdsCode (s.core (die * 48 + i)) pln

/-- Whether a sharer of a die's line, by its identifier, still holds the line (R155). -/
def stillShares (s : State) (die pln id : Nat) : Bool :=
  if id < 6 then pcHolds s (die * 6 + id) pln
  else if id = 6 then dieHolds s (1 - die) pln
  else s.hostLines.contains pln

/-- Core whose h9 serves a die's slice (R28, R156): the slice's own core, or the next enabled core of its paddock. -/
def dirCore (s : State) (die slice : Nat) : Nat :=
  let base := die * 48 + slice / 8 * 8
  let cand := (List.range 8).map fun i => base + (slice % 8 + i) % 8
  (cand.find? fun c => s.enabled c).getD (die * 48 + slice)

/-- A request of a slice joins the queue of the handler (R156). -/
def dirAsk (s : State) (r : DirReq) : State :=
  let c := dirCore s r.die r.slice
  s.setCore c { s.core c with dirQ := (s.core c).dirQ ++ [r] }

/-- Whether the slices that serve a line are in broadcast mode (R463). -/
def dirBcast (s : State) (die pid vln : Nat) : Bool := (s.core (dirCore s die (sliceOf pid vln))).bcast

/-- Whether a line's handler request is outstanding, so that its requests wait at its slice (R156). -/
def dirBusy (s : State) (die pid vln : Nat) : Bool :=
  let k := s.core (dirCore s die (sliceOf pid vln))
  let m (r : DirReq) : Bool := r.die == die && r.pid == pid && r.vln == vln
  k.dirQ.any m || (match k.dirReq with | some r => m r | none => false)

/-- Whether the request of a line waits at its slice: the line's handler request, under its canonical name, is outstanding
(R123, R156). -/
def dirBusyLine (s : State) (die pid vln pln : Nat) : Bool :=
  match l2Phys s die pln with
  | some l => dirBusy s die l.pid l.vln
  | none => dirBusy s die pid vln

/-- A line with OVF set that no broadcast mode serves, whose overflow mask no write holds yet (R156, R463). -/
def needsMask (s : State) (die pln : Nat) : Option L2Line :=
  match l2Phys s die pln with
  | some l => if l.ovf && !dirBcast s die l.pid l.vln && !s.collected.any (fun x => x.1 == die && x.2.1 == pln) then some l else none
  | none => none

/-- Before a write reaches a line at a die: with OVF set the handler is asked for the overflow mask, once, and the write
waits (R156). -/
def collectFree (s : State) (die pln : Nat) : Res Unit :=
  match needsMask s die pln with
  | none => .ok () s
  | some l =>
    if dirBusy s die l.pid l.vln then .wait s
    else .wait (dirAsk s { reason := 1, sharer := 0, die := die, slice := sliceOf l.pid l.vln, pid := l.pid, vln := l.vln })

/-- The mask that the handler returned for a line, taken by the write that asked for it (R156, R321). -/
def takeMask (s : State) (die pln : Nat) : Nat × State :=
  match s.collected.find? fun x => x.1 == die && x.2.1 == pln with
  | some x => (x.2.2, { s with collected := s.collected.filter fun x => !(x.1 == die && x.2.1 == pln) })
  | none => (0, s)

/-- Whether a write to a line reaches a sharer: a pointer names it, the handler's mask does, or the line is treated as shared
by all eight, in broadcast mode and for h9's own writes (R156, R157, R463; log 42). -/
def reaches (s : State) (die pln mask : Nat) (all : Bool) (id : Nat) : Bool :=
  match l2Phys s die pln with
  | some l => all || l.sharers.contains id || mask / 2 ^ id % 2 == 1 || (l.ovf && dirBcast s die l.pid l.vln)
  | none => true

/-- The paddock caches that a write reaches drop the line, all but paddock `keep`'s, and their pointers are free (R153,
R155, R156). -/
def dropReached (s : State) (die pln mask : Nat) (all : Bool) (keep : Option Nat) : State :=
  let hit (i : Nat) : Bool := reaches s die pln mask all i && keep != some (die * 6 + i)
  let t := (List.range 6).foldl (fun s i =>
    let q := die * 6 + i
    if hit i then s.setPc q ((s.pc q).filter (·.pln != pln)) else s) s
  l2Upd t die pln fun l => { l with sharers := l.sharers.filter fun i => decide (6 ≤ i) || !hit i }

/-- The halves of a line, as physical addresses. -/
def halves (pln : Nat) : List Nat := [pln * 128, pln * 128 + 64]

/-- Before the device writes a line of HBM that the host caches: BISnp for both halves, and the write waits for both BIRsp
(R155, R367). -/
def hostFree (s : State) (pln : Nat) : Res Unit :=
  if s.hostLines.contains pln then
    if (halves pln).any s.bisnp.contains then .wait s else .wait { s with bisnp := s.bisnp ++ halves pln }
  else .ok () s

/-- A sharer is recorded at the line's home slice: a pointer while one of the four is free, else OVF and the handler. A mask
that was collected before is then no longer the line's (R155, R156, R463). -/
def addSharer (s : State) (die pln id : Nat) : State :=
  match l2Phys s die pln with
  | none => s
  | some ln =>
    if ln.sharers.contains id then s
    else if ln.sharers.length < 4 then l2Upd s die pln fun l => { l with sharers := l.sharers ++ [id] }
    else
      let s := l2Upd (takeMask s die pln).2 die pln fun l => { l with ovf := true }
      if dirBcast s die ln.pid ln.vln then s
      else dirAsk s { reason := 0, sharer := id, die := die, slice := sliceOf ln.pid ln.vln, pid := ln.pid, vln := ln.vln }

/-- A sharer that has given up a copy leaves the line, unless it holds the line under another name; with OVF set the handler is told
(R123, R156, R463). -/
def dropSharer (s : State) (die pln id : Nat) : State :=
  match l2Phys s die pln with
  | none => s
  | some ln =>
    if stillShares s die pln id then s
    else
      let s := l2Upd s die pln fun l => { l with sharers := l.sharers.filter (· != id) }
      if ln.ovf && !dirBcast s die ln.pid ln.vln then
        dirAsk s { reason := 2, sharer := id, die := die, slice := sliceOf ln.pid ln.vln, pid := ln.pid, vln := ln.vln }
      else s

/-- A die that holds a line of the other die's memory no more leaves it there (R155, R156). -/
def tellHome (s : State) (die pln : Nat) : State :=
  let mp := memPlace (pln * 128)
  if mp < 2 ∧ mp ≠ die then dropSharer s mp pln 6 else s

/-- Paddock cache `i` of a die has given up a copy of a line (R121, R123, R155). -/
def paddockLeft (s : State) (die pln i : Nat) : State := tellHome (dropSharer s die pln i) die pln

/-- Physical line `pln` leaves every paddock cache of a die that holds it, each of them a sharer that leaves: what an eviction does
(R153, R155, R156; log 42). -/
def dropPaddocks (s : State) (die pln : Nat) : State :=
  ((List.range 6).filter fun i => pcHolds s (die * 6 + i) pln).foldl (fun s i =>
    let q := die * 6 + i
    dropSharer (s.setPc q ((s.pc q).filter (·.pln != pln))) die pln i) s

/-! ### Stamps and deliveries (R158, R159) -/

/-- The vector of a place. -/
def State.vec (s : State) (p : Nat) : List Nat := vget s.vecs p [0, 0, 0, 0]

/-- It becomes `v`. -/
def State.setVec (s : State) (p : Nat) (v : List Nat) : State := { s with vecs := s.vecs.setIfInBounds p v }

/-- A place numbers a write it originates and gives it its stamp (R158). -/
def stampNext (s : State) (p : Nat) : List Nat × State :=
  let v := (s.vec p).set p ((s.vec p).getD p 0 + 1)
  (v, s.setVec p v)

/-- Whether every counter of `a` is at most that of `b`. -/
def stampLe (a b : List Nat) : Bool := (List.range 4).all fun i => decide (a.getD i 0 ≤ b.getD i 0)

/-- Whether the key of stamp `a` from origin `o` is greater than that of `b` from `q` (R159). -/
def keyGt (a : List Nat) (o : Nat) (b : List Nat) (q : Nat) : Bool :=
  decide (b.sum < a.sum) || (a.sum == b.sum && decide (q < o))

/-- Whether a place may apply a stamped write now (R158); while Tandem is down none waits for a place-3 counter (R483). -/
def stampReady (s : State) (d : Delivery) : Bool :=
  let v := s.vec d.dst
  (List.range 4).all fun i =>
    if i = 3 ∧ !s.tandemUp then true
    else if i = d.origin then d.stamp.getD i 0 == v.getD i 0 + 1 else decide (d.stamp.getD i 0 ≤ v.getD i 0)

/-- The stamp of the last image applied to a sector at a place becomes this one. -/
def setSectorStamp (s : State) (place sector : Nat) (stamp : List Nat) (origin : Nat) : State :=
  { s with stamps := { place := place, sector := sector, stamp := stamp, origin := origin } ::
      s.stamps.filter fun x => !(x.place == place && x.sector == sector) }

/-- SECTOR_IMAGE_COMPARE: whether a place takes an image (R159). -/
def imageTaken (s : State) (place sector : Nat) (stamp : List Nat) (origin : Nat) : Bool :=
  match s.stamps.find? fun x => x.place == place && x.sector == sector with
  | none => true
  | some x => stampLe x.stamp stamp || keyGt stamp origin x.stamp x.origin

/-- Bytes within one sector are written at a place that holds it: the L2 copy when there is one, else the memory whose place it
is; a failing sector of HBM that they do not cover keeps failing (R153, R158, R456). -/
def sectorApply (s : State) (place pa : Nat) (bs : List Byte) (c : Bool) : State :=
  let pln := pa / 128
  if place < 2 then
    let home := memPlace pa == place
    let o := pa % 128
    let m := rangeMask o bs.length
    let yes := List.replicate 128 true
    match l2Phys s place pln with
    | some _ =>
      l2Upd s place pln fun l =>
        { l with data := splice l.data o bs, valid := mergeBy m yes l.valid,
                 dirty := if home then mergeBy m yes l.dirty else l.dirty,
                 bad := l.bad.filter fun b => decide (b < o) || decide (o + bs.length ≤ b) }
    | none => if home then hbmWrite s pa bs c else s
  else if place = 2 && regionOf pa == .host then { s with phys := memWrite s.phys pa bs }
  else s

/-- The origin's copy of delivered bytes of another place's memory is clean (R158). -/
def cleanSector (s : State) (origin pa n : Nat) : State :=
  if s.flights.any fun d => d.origin == origin && (d.images ++ d.parts).any fun x => x.1 / 32 == pa / 32 then s
  else l2Upd s origin (pa / 128) fun l =>
    { l with dirty := mergeBy (rangeMask (pa % 128) n) (List.replicate 128 false) l.dirty }

/-- The line that a delivery's images belong to. -/
def Delivery.line (d : Delivery) : Option Nat := (d.images ++ d.parts).head?.map fun x => x.1 / 128

/-- The copies of a delivered line above a die's L2 are dropped, code among them; a die that held nothing else leaves the line
(R62, R153, R156). -/
def deliverDrop (s : State) (d : Delivery) : State :=
  match d.line with
  | some pln =>
    if d.dst < 2 ∧ dieHolds s d.dst pln then
      let (mask, s) := takeMask s d.dst pln
      tellHome (dropCodeDie (dropReached s d.dst pln mask false none) d.dst pln) d.dst pln
    else s
  | none => s

/-- A counter notice leaves for the peer, unless a write into its window carried the stamp already (R158, R377). -/
def noticePeer (s : State) (d : Delivery) : State :=
  if d.dst = 3 then
    if s.peerOut.any fun f => match f with
      | .write _ _ v => v == d.stamp
      | _ => false then s
    else { s with peerOut := s.peerOut ++ [.notice d.stamp] }
  else s

/-- A write of `n` bytes, not by the device itself, reaches the memory that holds them: the spill control blocks that it touches
start their PEAK again (R332). -/
def noteSpill (s : State) (pa n : Nat) : State :=
  let base := wfld s.spillQ 45 12 * 4096
  if wbit s.spillQ 63 && decide (base < pa + n) && decide (pa < base + 4096) then
    let hit (p : Nat) : Bool := decide (base + 64 * p < pa + n) && decide (pa < base + 64 * p + 64)
    { s with spillWrote := (List.range 64).filter fun p => hit p || s.spillWrote.contains p }
  else s

/-- One delivery is applied at its place (R158, R159). -/
def applyDelivery (s : State) (d : Delivery) : State :=
  let v := s.vec d.dst
  let s := noticePeer (deliverDrop (s.setVec d.dst (v.set d.origin (d.stamp.getD d.origin 0))) d) d
  (d.images ++ d.parts).foldl (fun s (a, bs) =>
    let sector := a / 32 * 32
    let s :=
      if imageTaken s d.dst sector d.stamp d.origin then
        let s := sectorApply (setSectorStamp s d.dst sector d.stamp d.origin) d.dst a bs d.comp
        if d.dst = memPlace a then noteSpill s a bs.length else s
      else s
    if d.dst = memPlace a ∧ d.origin < 2 then cleanSector s d.origin a bs.length else s) s

/-- Split off the first element that satisfies `p`. -/
def takeFirst {α : Type} (p : α → Bool) : List α → Option (α × List α)
  | [] => none
  | x :: xs =>
    if p x then some (x, xs)
    else match takeFirst p xs with
      | some (y, ys) => some (y, x :: ys)
      | none => none

/-- Whether a delivery must have the host give its line up first: it writes HBM that the host caches, and comes from another
agent (R155, R367). -/
def hostKeeps (s : State) (d : Delivery) (pln : Nat) : Bool :=
  d.origin != 2 && memPlace (pln * 128) == d.dst && s.hostLines.contains pln

/-- Whether a delivery to a die finds its line free: no overflow mask is to be collected first (R156), the host has given the
line up (R155), and where it writes HBM, the controller can tell the line's tag (R457). -/
def lineOpen (s : State) (d : Delivery) : Bool :=
  match d.line with
  | some pln =>
    decide (2 ≤ d.dst) ||
      ((needsMask s d.dst pln).isNone && !hostKeeps s d pln &&
        (memPlace (pln * 128) != d.dst || (l2Phys s d.dst pln).isSome || metaReady s pln))
  | none => true

/-- A place applies the oldest stamped write or notice that is ready (R158). -/
def applyNext (s : State) (place : Nat) : Option State :=
  match takeFirst (fun d => d.dst == place && stampReady s d && lineOpen s d) s.flights with
  | some (d, rest) => some (applyDelivery { s with flights := rest } d)
  | none => none

/-- What the deliveries to a place wait for is asked for: the host's copy back, and overflow masks (R155, R156). -/
def askMasks (s : State) (place : Nat) : State :=
  s.flights.foldl (fun s d =>
    match d.line with
    | some pln =>
      if d.dst = place ∧ place < 2 ∧ stampReady s d then
        match (if hostKeeps s d pln then hostFree s pln else .ok () s).bind fun _ s => collectFree s place pln with
        | .ok _ s => s
        | .flt _ s => s
        | .wait s => s
      else s
    | none => s) s

/-- STAMPED_WRITE_APPLY: a place applies one write, or asks for the mask that it needs first (R156, R158). -/
def applyOne (s : State) (place : Nat) : State := (applyNext s place).getD (askMasks s place)

/-- A place applies every write that is ready, `n` at most. -/
def drainN (s : State) (place : Nat) : Nat → State
  | 0 => s
  | n + 1 => match applyNext s place with
    | some t => drainN t place n
    | none => askMasks s place

/-- A place applies everything that can be applied. -/
def drainTo (s : State) (place : Nat) : State := drainN s place s.flights.length

/-- Both dies apply everything that can be applied (log 10). -/
def drainDies (s : State) : State := drainTo (drainTo s 0) 1

/-- What a die wrote to a line of another place is applied there, as far as it can be (log 10). -/
def settleHome (s : State) (die pln : Nat) : State :=
  if memPlace (pln * 128) = die then s
  else if memPlace (pln * 128) = 2 then drainTo (drainDies s) 2
  else drainDies s

/-- The images of a write, and of the sectors that the write leaves uncorrectable the bytes written alone (R159, R426). -/
structure Images where
  sectors : List (Nat × List Byte)
  parts : List (Nat × List Byte)
  deriving DecidableEq, Repr

/-- No image: a counter notice. -/
def Images.none : Images := ⟨[], []⟩

/-- The sectors that `n` bytes from `off` of a line touch. -/
def touched (off n : Nat) : List Nat := (List.range 4).filter fun k => decide (k * 32 < off + n) && decide (off < k * 32 + 32)

/-- The images of the sectors that a write of bytes from `off` touches, in a line whose bytes and their goodness are known. A
sector with an uncorrectable byte that the write leaves makes no image: such bytes never move (R159, R426). -/
def imagesIn (pln off : Nat) (bs : List Byte) (data : List Byte) (good : List Bool) : Images :=
  let line := splice data off bs
  let ok := splice good off (List.replicate bs.length true)
  let whole (k : Nat) : Bool := (slice ok (k * 32) 32).all id
  let ks := touched off bs.length
  let part (k : Nat) : Nat × List Byte :=
    let lo := max off (k * 32)
    (pln * 128 + lo, slice bs (lo - off) (k * 32 + 32 - lo))
  { sectors := (ks.filter whole).map fun k => (pln * 128 + k * 32, slice line (k * 32) 32),
    parts := (ks.filter fun k => !whole k).map part }

/-- Whether a byte lies in a failing sector of an L2 line. -/
def L2Line.badAt (l : L2Line) (i : Nat) : Bool := l.bad.any fun b => b / 32 == i / 32

/-- An image that cannot be made is reported: a TYPE 3 record of the unit that fails, an L2 line or HBM; that of a line whose tag
fails has been made (R426, R457). -/
def reportParts (s : State) (origin pln : Nat) (im : Images) : State :=
  match im.parts with
  | [] => s
  | (a, _) :: _ =>
    let fails (die : Nat) : Bool := decide (die < 2) && match l2Phys s die pln with
      | some l => l.badAt (a % 128)
      | none => false
    let at' (die : Nat) : State := match l2Phys s die pln with
      | some l => { s with devQ := s.devQ ++ [.unit 2 (l2Index die (sliceOf l.pid l.vln) pln) 3] }
      | none => s
    if fails origin then at' origin
    else if fails (memPlace (pln * 128)) then at' (memPlace (pln * 128))
    else if s.tagBad.contains pln then s
    else { s with devQ := s.devQ ++ [.unit 5 (a / 65536) 1] }

/-- The deliveries of one write of `origin`: each sector's image to the memory place and to every other place that holds
a copy of the line, in L2 or above it, a counter notice to every other place (R62, R153, R158). `far` says whether a write of the
memory die reaches the other die's copy, which its directory tells (R155). -/
def sendStamped (s : State) (origin pln : Nat) (stamp : List Nat) (im : Images) (c far : Bool) : State :=
  let mp := memPlace (pln * 128)
  let holds (p : Nat) : Bool := p == mp || (decide (p < 2) && dieHolds s p pln && (far || origin != mp))
  let sent (p : Nat) : List Delivery :=
    if p = origin then []
    else [{ dst := p, origin := origin, stamp := stamp, images := if holds p then im.sectors else [], comp := c,
            parts := if holds p then im.parts else [], owner := none }]
  let s := reportParts s origin pln im
  { s with flights := s.flights ++ (sent 0 ++ sent 1 ++ sent 2 ++ if s.tandemUp then sent 3 else []) }

/-- A write that enters at a place: its sectors take its stamp there, and its images leave (R158, R159). -/
def originate (s : State) (p pln : Nat) (stamp : List Nat) (im : Images) (c far : Bool) : State :=
  let s := (im.sectors ++ im.parts).foldl (fun s x => setSectorStamp s p (x.1 / 32 * 32) stamp p) s
  sendStamped s p pln stamp im c far

/-! ### L2 -/

/-- The sharers that hold a line as its home slice allocates it: the paddock caches that kept it under another name, and for the
die's own memory the other die, if it holds a copy of any kind, and the host (R123, R155, R225). -/
def holders (s : State) (die pln : Nat) : List Nat :=
  (List.range 8).filter fun i => (decide (i < 6) || memPlace (pln * 128) == die) && stillShares s die pln i

/-- A line just allocated: clean, with no sharer yet. -/
def L2Line.fresh (pid vln pln : Nat) (data : List Byte) (valid : List Bool) (c : Bool) : L2Line :=
  { pid := pid, vln := vln, pln := pln, data := data, valid := valid, dirty := List.replicate 128 false, comp := c,
    sharers := [], ovf := false, bad := [] }

/-- A line joins a die's L2, with the sharers that hold it already (R123, R155). -/
def l2Add (s : State) (die : Nat) (l : L2Line) : State :=
  (holders s die l.pln).foldl (fun s i => addSharer s die l.pln i) (s.setL2 die (s.l2Of die ++ [l]))

/-- Whether a write covers or a line holds every byte of a range. -/
def allValid (valid : List Bool) (off n : Nat) : Bool := (slice valid off n).all id

/-- Write the dirty bytes of an L2 line back: to the recorded physical line of the die's own memory, or, for another place's
memory, as the stamped writes that are on their way there (R122, R158, R448). A line with failing bytes is never written
back (R455), and none while its tag cannot be told (R457). -/
def l2Writeback (s : State) (die : Nat) (ln : L2Line) : State :=
  if ln.bad.isEmpty && ln.dirty.any id then
    if memPlace (ln.pln * 128) = die then
      if metaReady s ln.pln then
        let s := if ln.valid.all id then lineWrite s ln.pln ln.data ln.comp else lineMerge s ln.pln ln.valid ln.data ln.comp
        l2Upd s die ln.pln fun l => { l with dirty := List.replicate 128 false }
      else s
    else settleHome s die ln.pln
  else s

/-- Whether a line holds bytes that its memory has not: it may not leave yet. -/
def l2Held (s : State) (die : Nat) (l : L2Line) : Bool :=
  memPlace (l.pln * 128) == die && l.dirty.any id && !metaReady s l.pln

/-- A line leaves a die's L2, written back if it is dirty. What it wrote to another place's memory is on its way there, and its
next fill takes it in. It stays while its tag cannot be told (R122, R123, R457). -/
def l2Leave (s : State) (die : Nat) (ln : L2Line) : State :=
  let s := settleHome s die ln.pln
  if (l2Phys s die ln.pln).any (l2Held s die) then s
  else
    let s := match l2Phys s die ln.pln with
      | some l => l2Writeback s die l
      | none => s
    s.setL2 die ((s.l2Of die).filter (·.pln != ln.pln))

/-- A line is evicted from a die's L2. Copies above it go first, each paddock cache a sharer that leaves, code among them, which
changes timing only; then the die holds it no more (R62, R122, R153, R156). -/
def l2Evict (s : State) (die : Nat) (ln : L2Line) : State :=
  tellHome (l2Leave (dropCodeDie (dropPaddocks s die ln.pln) die ln.pln) die ln) die ln.pln

/-- Make room for one more line in its set of 16 ways: the oldest line that may leave goes (R122, R455, log 13). -/
def l2Room (s : State) (die pid vln : Nat) : State :=
  let same := (s.l2Of die).filter fun l => sliceOf l.pid l.vln == sliceOf pid vln && setOf l.vln == setOf vln
  if same.length < 16 then s
  else match same.find? (fun l => l.bad.isEmpty && !l2Held s die l) with
    | some l => l2Evict s die l
    | none => s

/-- A line's bytes as a place holds them: which are good, and for each sector the source of R453 of those that are not. -/
structure View where
  data : List Byte
  good : List Bool
  src : List Nat
  deriving DecidableEq, Repr

/-- The first of `n` bytes from `off` that is not good. -/
def View.firstBad (v : View) (off n : Nat) : Option Nat := (List.range n).find? fun i => !v.good.getD (off + i) false

/-- The source of a byte that is not good. -/
def View.srcAt (v : View) (i : Nat) : Nat := v.src.getD (i / 32) 1

/-- A line as its memory place holds it (R138): the memory die's L2 over HBM, or host memory. -/
def placeView (s : State) (pln : Nat) : View × State :=
  match regionOf (pln * 128) with
  | .host => ({ data := memRead s.phys (pln * 128) 128, good := List.replicate 128 true, src := List.replicate 4 1 }, s)
  | _ =>
    let (d, s) := lineRead s pln
    match l2Phys s (memPlace (pln * 128)) pln with
    | some l =>
      ({ data := mergeBy l.valid l.data d.data,
         good := (List.range 128).map fun i => !l.badAt i && (l.valid.getD i false || d.good.getD (i / 32) false),
         src := (List.range 4).map fun k => if l.badAt (k * 32) then 3 else d.src }, s)
    | none => ({ data := d.data, good := (List.range 128).map fun i => d.good.getD (i / 32) false, src := List.replicate 4 d.src }, s)

/-- Whether a delivery to another place is one that a die has applied, or made, itself. -/
def appliedAt (s : State) (die : Nat) (d : Delivery) : Bool :=
  d.origin == die || decide (d.stamp.getD d.origin 0 ≤ (s.vec die).getD d.origin 0)

/-- The deliveries of a line to its memory place that a die has made or applied already, and that place not yet. -/
def aheadOf (s : State) (die pln : Nat) : List Delivery :=
  s.flights.filter fun d => d.dst == memPlace (pln * 128) && d.line == some pln && appliedAt s die d

/-- An image, or the bytes written alone of a sector that makes none, taken into a view of a line, where the memory place's stamps
in `s` let it in; they become its own (R159). -/
def View.take (mp : Nat) (d : Delivery) (x : View × State) (im : Nat × List Byte) : View × State :=
  let (v, s) := x
  let sector := im.1 / 32 * 32
  if imageTaken s mp sector d.stamp d.origin then
    ({ v with data := splice v.data (im.1 % 128) im.2, good := splice v.good (im.1 % 128) (List.replicate im.2.length true) },
     setSectorStamp s mp sector d.stamp d.origin)
  else (v, s)

/-- The view of a line with the images that a die has made or applied and that are still on their way to its memory place, as
that place will have them once it has taken them all: for each sector the image of the greatest key (R151, R158, R159). -/
def overlay (s : State) (die pln : Nat) (v : View) : View :=
  ((aheadOf s die pln).foldl (fun x d => (d.images ++ d.parts).foldl (View.take (memPlace (pln * 128)) d) x) (v, s)).1

/-- The bytes of a line as a place that is not its memory's left them: those of its memory place, and the images that the place
has seen and that are still on their way there (R158, R159). -/
def portView (s : State) (origin pln : Nat) : View × State :=
  let (v, s) := placeView s pln
  (overlay s origin pln v, s)

/-- The stamp of a sector at a die rises to that of an image it takes (R159). -/
def raiseStamp (s : State) (die sector : Nat) (stamp : List Nat) (origin : Nat) : State :=
  if imageTaken s die sector stamp origin then setSectorStamp s die sector stamp origin else s

/-- A die that fills a line from another place takes the stamps of its sectors with it (R159). -/
def copyStamps (s : State) (die pln : Nat) : State :=
  let mp := memPlace (pln * 128)
  let s := (List.range 4).foldl (fun s k =>
    let a := pln * 128 + k * 32
    match s.stamps.find? fun x => x.place == mp && x.sector == a with
    | some x => raiseStamp s die a x.stamp x.origin
    | none => s) s
  (aheadOf s die pln).foldl (fun s d =>
    (d.images ++ d.parts).foldl (fun s x => raiseStamp s die (x.1 / 32 * 32) d.stamp d.origin) s) s

/-- Writes of a line that are on their way to its memory place and, as counter notices, to a die that now holds a copy go to the
copy too (R158). -/
def joinFlights (s : State) (die pln : Nat) : State :=
  let mp := memPlace (pln * 128)
  let same (d e : Delivery) : Bool := e.dst == mp && e.line == some pln && e.origin == d.origin && e.stamp == d.stamp
  { s with flights := s.flights.map fun d =>
      if d.dst = die ∧ d.line = none then
        match s.flights.find? (same d) with
        | some e => { d with images := e.images, parts := e.parts, comp := e.comp }
        | none => d
      else d }

/-- Whether a die has applied every write that the stamp of an image shows; while Tandem is down none waits for a place-3 counter
(R158, R483). -/
def seenAt (s : State) (die : Nat) (stamp : List Nat) : Bool :=
  (List.range 4).all fun i => (i == 3 && !s.tandemUp) || decide (stamp.getD i 0 ≤ (s.vec die).getD i 0)

/-- Whether a die has applied every write that the sectors of another place's line show there: its fill waits until it has
(R151, R158; log 10). -/
def causesSeen (s : State) (die pln : Nat) : Bool :=
  memPlace (pln * 128) == die ||
    s.stamps.all fun x => x.place != memPlace (pln * 128) || x.sector / 128 != pln || seenAt s die x.stamp

/-- Whether the memory place of a line answers a fill of a die now: the die has applied what the answer shows (log 10), the line's
handler request at its slice is not outstanding there (R156), and its controller can tell the line's tag (R457). h9, `quiet`, asks
no slice and waits for no delivery, which may wait for its own answer (R157; log 31). -/
def fillReady (s : State) (die pln : Nat) (quiet : Bool) : Bool :=
  let mp := memPlace (pln * 128)
  (quiet || causesSeen s die pln) &&
    (decide (2 ≤ mp) ||
      ((match l2Phys s mp pln with
        | some l => quiet || mp == die || !dirBusy s mp l.pid l.vln
        | none => true) &&
       (metaReady s pln || (match l2Phys s mp pln with
        | some l => l.valid.all id
        | none => false))))

/-- A view that must be waited for. -/
def View.stall : View := { data := List.replicate 128 0, good := List.replicate 128 false, src := List.replicate 4 0 }

/-- L2_LOAD_MISS_FILL: the bytes of a line that a die's L2 does not hold yet are fetched, once its memory place answers; the bytes
it holds take precedence (R122, R123). The line is canonical under this name when the die did not hold it. `quiet` is h9's way: it
registers no sharer (R157). It answers the sources of the bytes that are not good. -/
def l2Fill (s : State) (die pid vln pln : Nat) (c quiet : Bool) : View × State :=
  let mp := memPlace (pln * 128)
  let s := settleHome s die pln
  if !fillReady s die pln quiet then (View.stall, s)
  else
    let (v, s) := portView s die pln
    let s := if !quiet ∧ mp < 2 ∧ mp ≠ die then addSharer s mp pln 6 else s
    let s := if mp = die then s else joinFlights (copyStamps s die pln) die pln
    match l2Phys s die pln with
    | some _ =>
      (v, l2Upd s die pln fun l =>
        { l with data := mergeBy l.valid l.data v.data, valid := mergeBy l.valid l.valid v.good })
    | none => (v, l2Add (l2Room s die pid vln) die (L2Line.fresh pid vln pln v.data v.good c))

/-- A failing sector of a clean L2 line is dropped, to be fetched again (R454). -/
def l2Refetch (s : State) (die pln : Nat) : State :=
  match l2Phys s die pln with
  | some l =>
    if !l.bad.isEmpty && !l.dirty.any id then
      l2Upd s die pln fun l => { l with valid := (List.range 128).map fun i => l.valid.getD i false && !l.badAt i, bad := [] }
    else s
  | none => s

/-- Bytes of a line that a die's L2 holds: the lowest that fails, in L2 or where it was filled from, is reported, with
the unit that fails, which may be the memory die's L2 (R417, R425, R453 to R455). -/
def l2Bytes (s : State) (die pln off n : Nat) (v : View) : Res (List Byte) :=
  match l2Phys s die pln with
  | some l =>
    match (List.range n).find? fun i => l.badAt (off + i) || !l.valid.getD (off + i) false with
    | some i =>
      .fault (if l.badAt (off + i) then lineUe s 3 i die pln else lineUe s (v.srcAt (off + i)) i (memPlace (pln * 128)) pln) s
    | none => .ok (slice l.data off n) s
  | none => .fault (lineUe s (v.srcAt off) 0 (memPlace (pln * 128)) pln) s

/-- A view of which nothing is looked at. -/
def View.none : View := ⟨[], [], []⟩

/-- The bytes of a line at a die's L2, filled when they are not all valid (R122, R454). -/
def l2Read (s : State) (die pid vln pln off n : Nat) (c : Bool) : Res (List Byte) :=
  let s := l2Refetch s die pln
  match l2Phys s die pln with
  | some l =>
    if allValid l.valid off n then l2Bytes s die pln off n View.none
    else
      let (v, s) := l2Fill s die pid vln pln c false
      l2Bytes s die pln off n v
  | none =>
    let (v, s) := l2Fill s die pid vln pln c false
    l2Bytes s die pln off n v

/-- The set of a paddock cache that a name's line belongs to (R121). -/
def pcSet (pid vln : Nat) : Nat := (vln % 1024) ^^^ (pid * 16 % 1024)

/-- The paddock cache takes a line that its L2 now holds whole (R121): the first way that is free in its set, else that of
the set's oldest line, which goes (log 13). -/
def pcFill (s : State) (die pad pid vln pln : Nat) : State :=
  match l2Phys s die pln with
  | none => s
  | some l =>
    if l.valid.all id && l.bad.isEmpty then
      let same := (s.pc pad).filter fun q => pcSet q.pid q.vln == pcSet pid vln
      let free := (wayBanks s pad).find? fun b => !same.any fun q => q.bank == b
      let add (s : State) (bank : Nat) : State :=
        addSharer (s.setPc pad (s.pc pad ++ [{ bank := bank, pid := pid, vln := vln, pln := pln, data := l.data, bad := false }]))
          die pln (pad % 6)
      match free, same with
      | some b, _ => add s b
      | none, q :: _ =>
        add (paddockLeft (s.setPc pad ((s.pc pad).filter fun r => !(r.pid == q.pid && r.vln == q.vln))) die q.pln (pad % 6)) q.bank
      | none, [] => s
    else s

/-- Whether a paddock cache answers a read under a name (R121). -/
def pcHit (s : State) (pad pid vln : Nat) : Bool := (s.pc pad).any fun q => q.pid == pid && q.vln == vln && !q.bad

/-- Whether a die's L2 answers a request for `n` bytes of a line from `off`: it holds the line under this very name, canonical, and
every byte asked for (R122, R123, R452). A write needs none. -/
def l2Hit (s : State) (die pid vln pln off n : Nat) : Bool :=
  match l2Phys s die pln with
  | some l => l.pid == pid && l.vln == vln && allValid l.valid off n
  | none => false

/-- Whether a read for a requester in paddock `pad` goes past the paddock cache and misses L2: with ways, the paddock cache asks for
the whole line (R121, R399). -/
def readMisses (s : State) (die pad pid va n pln : Nat) (bypass : Bool) : Bool :=
  let vln := vlnOf va
  if bypass then !l2Hit s die pid vln pln (va % 128) n
  else !pcHit s pad pid vln &&
    (if 0 < wayCount s pad then !l2Hit s die pid vln pln 0 128 else !l2Hit s die pid vln pln (va % 128) n)

/-- A cacheable read of bytes within one line, for a requester in paddock `pad` of a die (R121 to R123). `bypass` is h9's
way past every allocation (R157). -/
def cacheRead (s : State) (die pad pid va n : Nat) (t : Trans) (bypass : Bool) : Res (List Byte) :=
  let vln := vlnOf va
  let pln := t.pa / 128
  let off := va % 128
  if bypass then
    let (v, s) := portView (settleHome s die pln) die pln
    match v.firstBad off n with
    | some i => .fault (lineUe s (v.srcAt (off + i)) i (memPlace (pln * 128)) pln) s
    | none => .ok (slice v.data off n) s
  else if dirBusyLine s die pid vln pln then .wait s
  else
    match (s.pc pad).find? (fun q => q.pid == pid && q.vln == vln && !q.bad) with
    | some q => .ok (slice q.data off n) s
    | none =>
      let s := s.setPc pad ((s.pc pad).filter fun q => !(q.pid == pid && q.vln == vln))
      let ways := decide (0 < wayCount s pad)
      let whole := match l2Phys s die pln with
        | some l => l.valid.all id
        | none => false
      let s := if ways && !whole then (l2Fill s die pid vln pln (wbit t.leaf 5) false).2 else s
      (l2Read s die pid vln pln off n (wbit t.leaf 5)).bind fun bs s =>
        .ok bs (if ways then pcFill s die pad pid vln pln else s)

/-- The images of a write that a die's L2 has taken, its sectors completed from memory where the line does not hold them yet
(R159, log 11). -/
def imagesOf (s : State) (die pid vln pln off n : Nat) (c quiet : Bool) : Images × State :=
  let whole := match l2Phys s die pln with
    | some l => (touched off n).all fun k => allValid l.valid (k * 32) 32
    | none => false
  let s := if whole then s else (l2Fill s die pid vln pln c quiet).2
  match l2Phys s die pln with
  | some l => (imagesIn pln off (slice l.data off n) l.data ((List.range 128).map fun i => l.valid.getD i false && !l.badAt i), s)
  | none => (Images.none, s)

/-- The home slice of a die takes bytes of a write, without reading memory (R122); a write of h9 (`quiet`) makes no room
for a line (R157). -/
def l2Take (s : State) (die pid vln pln off : Nat) (bs : List Byte) (c quiet : Bool) : State :=
  let s := match l2Phys s die pln with
    | some _ => s
    | none =>
      let l := L2Line.fresh pid vln pln (List.replicate 128 0) (List.replicate 128 false) c
      if quiet then s.setL2 die (s.l2Of die ++ [l]) else l2Add (l2Room s die pid vln) die l
  let m := rangeMask off bs.length
  l2Upd s die pln fun l =>
    { l with data := splice l.data off bs, valid := mergeBy m (List.replicate 128 true) l.valid,
             dirty := mergeBy m (List.replicate 128 true) l.dirty, comp := c,
             bad := l.bad.filter fun b => decide (b < off) || decide (off + bs.length ≤ b) }

/-- Whether the L2 of a die, with a write of `n` bytes from `off`, holds every sector of a line that the write touches. -/
def takesWhole (s : State) (die pln off n : Nat) : Bool :=
  let valid := match l2Phys s die pln with
    | some l => l.valid
    | none => List.replicate 128 false
  let after := mergeBy (rangeMask off n) (List.replicate 128 true) valid
  (touched off n).all fun k => allValid after (k * 32) 32

/-- Whether the images that a write at a die must send can be made now: nobody else needs any, the die will hold every byte of
them, or its line can be filled (R156, R158, R457). -/
def imagesReady (s : State) (die pln off n : Nat) (quiet : Bool) : Bool :=
  !(memPlace (pln * 128) != die || dieHolds s (1 - die) pln) || takesWhole s die pln off n || fillReady s die pln quiet

/-- The writer's own paddock cache takes bytes of a line it holds, under this name or another (R121, R129). -/
def ownUpdate (s : State) (own : Option Nat) (pid vln pln off : Nat) (bs : List Byte) : State :=
  match own with
  | some p => s.setPc p ((s.pc p).map fun q => if q.pln == pln || (q.pid == pid && q.vln == vln) then { q with data := splice q.data off bs } else q)
  | none => s

/-- A cacheable write of bytes within one line is performed at a die: the home slice takes it without reading memory, the
paddock caches that it reaches drop or update the line, code copies are dropped, and it leaves stamped for the other places
(R121, R122, R147, R153, R158). A write of h9 (`quiet`) leaves no new line in L2 (R157). -/
def cacheWrite (s : State) (die : Nat) (own : Option Nat) (quiet : Bool) (pid va : Nat) (bs : List Byte) (t : Trans) :
    State :=
  let vln := vlnOf va
  let pln := t.pa / 128
  let off := va % 128
  let n := bs.length
  let c := wbit t.leaf 5
  let had := (l2Phys s die pln).isSome
  let (mask, s) := takeMask s die pln
  let s := l2Take s die pid vln pln off bs c quiet
  let far := reaches s die pln mask quiet 6
  let s := ownUpdate (dropReached s die pln mask quiet own) own pid vln pln off bs
  let s := dropCodeDie s die pln
  let s := if memPlace (pln * 128) = die then noteSpill s (pln * 128 + off) n else s
  let (stamp, s) := stampNext s die
  let away := memPlace (pln * 128) != die || dieHolds s (1 - die) pln
  let (images, s) := if away then imagesOf s die pid vln pln off n c quiet else (Images.none, s)
  let s := (touched off n).foldl (fun s k => setSectorStamp s die (pln * 128 + k * 32) stamp die) s
  let s := sendStamped s die pln stamp images c far
  match quiet && !had, l2Phys s die pln with
  | true, some l => l2Leave s die l
  | _, _ => s

/-- A write by the device itself, by physical address within one line, seen at once by every holder (R424, R394): L2
copies of both dies take it, copies above and code are dropped, and the memory place is written. It comes through no leaf, so that
its C is 0 (R131; log 43). -/
def physStore (s : State) (pa : Nat) (bs : List Byte) : State :=
  let pln := pa / 128
  let off := pa % 128
  let upd (s : State) (die : Nat) : State :=
    let (mask, s) := takeMask s die pln
    let s := dropCodeDie (dropReached s die pln mask false none) die pln
    l2Upd s die pln fun l =>
      { l with data := splice l.data off bs, valid := mergeBy (rangeMask off bs.length) (List.replicate 128 true) l.valid,
               bad := l.bad.filter fun b => decide (b < off) || decide (off + bs.length ≤ b) }
  let s := upd (upd s 0) 1
  match regionOf pa with
  | .hbm => hbmWrite s pa bs false
  | .host => if s.hostDown then s else { s with phys := memWrite s.phys pa bs }
  | _ => s

/-- The bytes at a physical address within one line as its memory place holds them (R161, R490). -/
def physLoad (s : State) (pa n : Nat) : Res (List Byte) :=
  let (v, s) := placeView s (pa / 128)
  match v.firstBad (pa % 128) n with
  | some i =>
    .fault (lineUe s (v.srcAt (pa % 128 + i)) i (memPlace pa) (pa / 128)) s
  | none => .ok (slice v.data (pa % 128) n) s

/-- A write of any length by physical address, line by line. -/
def physStoreAll (s : State) (pa : Nat) : Nat → List Byte → State
  | 0, _ => s
  | _ + 1, [] => s
  | k + 1, bs =>
    let n := 128 - pa % 128
    physStoreAll (physStore s pa (bs.take n)) (pa + n) k (bs.drop n)

/-! ### Writes of the device itself (R155, R156, R367, R394, R424, R457) -/

/-- Before the device itself writes within a line: the host has given the line up, the masks of both dies' lines are
collected, the line's tag can be told. -/
def lineFree (s : State) (pa : Nat) : Res Unit :=
  if regionOf pa = .hbm then
    (hostFree s (pa / 128)).bind fun _ s =>
      (collectFree s 0 (pa / 128)).bind fun _ s =>
        (collectFree s 1 (pa / 128)).bind fun _ s => if metaReady s (pa / 128) then .ok () s else .wait s
  else .ok () s

/-- Whether a write of the device itself waits. -/
def DevOp.isWrite : DevOp → Bool
  | .write _ _ => true
  | _ => false

/-- A write of the device itself within one line is performed, or waits its turn behind those that wait already. -/
def devStore (s : State) (pa : Nat) (bs : List Byte) : State :=
  let later (s : State) : State := { s with devQ := s.devQ ++ [.write pa bs] }
  if s.devQ.any DevOp.isWrite then later s
  else match lineFree s pa with
    | .ok _ s => physStore s pa bs
    | .flt _ s => later s
    | .wait s => later s

/-- A write of the device itself of any length, line by line. -/
def devStoreAll (s : State) (pa : Nat) : Nat → List Byte → State
  | 0, _ => s
  | _ + 1, [] => s
  | k + 1, bs =>
    let n := 128 - pa % 128
    devStoreAll (devStore s pa (bs.take n)) (pa + n) k (bs.drop n)

/-- A word that no memory holds: its address lies in no region of the map, and the spec states no value (R21; log 33). -/
def holeWord (pa : Nat) : Word := bytesWord ((List.range 8).map fun i => Config.freeByte (2 ^ 128 + pa + i))

/-- A word whose content has failed: the device reads some value (R426; log 25). -/
def failedWord (pa : Nat) : Word := bytesWord ((List.range 8).map fun i => Config.freeByte (3 * 2 ^ 128 + pa + i))

/-- The write of an 8-byte word by the device itself that waits last. -/
def wordWaits (s : State) (pa : Nat) : Option (List Byte) :=
  (s.devQ.filterMap fun d => match d with
    | .write a bs => if a = pa ∧ bs.length = 8 then some bs else none
    | _ => none).getLast?

/-- An 8-byte word that the device keeps in memory: as the last write of it that waits leaves it, else as its memory place
holds it. A read that a controller not yet ready holds up gives what it gives once that is ready, and the
device waits for it in no other step (R457). -/
def physWord (s : State) (pa : Nat) : Word :=
  match wordWaits s pa with
  | some bs => bytesWord bs
  | none => if regionOf pa == .hole then holeWord pa else match physLoad { s with ready := BitVec.allOnes 64 } pa 8 with
    | .ok bs _ => bytesWord bs
    | _ => failedWord pa

/-- The unit, and the source of R453, of uncorrectable data that the device meets in `n` bytes that it keeps within a line of memory
(R428, R453). -/
def physUnit (s : State) (pa n : Nat) : Option (Nat × Nat × Nat) :=
  if (wordWaits s pa).isSome || regionOf pa != .hbm then none
  else match physLoad { s with ready := BitVec.allOnes 64 } pa n with
    | .flt f _ => f.unit.map fun u => (u.1, u.2, f.info / 4096)
    | _ => none

/-- The device has read `n` bytes that it keeps within a line of memory: where it met uncorrectable data, a TYPE 3 record of the unit
is owed (R426, R457). -/
def physNote (s : State) (pa n : Nat) : State :=
  if (wordWaits s pa).isSome || regionOf pa != .hbm then s
  else match physLoad { s with ready := BitVec.allOnes 64 } pa n with
    | .flt f t =>
      let owed := t.devQ.drop s.devQ.length ++ match f.unit with
        | some (c, i) => [DevOp.unit c i (f.info / 4096)]
        | none => []
      { s with tagBad := t.tagBad, devQ := s.devQ ++ owed.filter fun d => !s.devQ.contains d }
    | _ => s

/-- The writes of the device itself that wait are tried again, in order, up to the first that waits on. -/
def devWrites : List DevOp → State → State
  | [], s => s
  | .write pa bs :: r, s =>
    (match lineFree s pa with
      | .ok _ s => devWrites r (physStore s pa bs)
      | .flt _ s => { s with devQ := s.devQ ++ .write pa bs :: r }
      | .wait s => { s with devQ := s.devQ ++ .write pa bs :: r })
  | d :: r, s => devWrites r { s with devQ := s.devQ ++ [d] }

end Sys2Proof.Machine
end

