-- ==== Sys2Proof/Machine/Records.lean ====
section
/-! DEFINITION. What a trap reports and the fault records that tell the host (R416, R424, R425, R426, R465). -/

namespace Sys2Proof.Machine

/-- A fault as TRAPCAUSE and TRAPADDR report it (R416): CODE, INFO, ACC, address, and ENG and TC of a command fault. The
unit names where uncorrectable data was met (R428). -/
structure Trap where
  code : Nat
  info : Nat
  acc : Nat
  addr : Word
  eng : Bool
  tc : Nat
  unit : Option (Nat × Nat)
  deriving DecidableEq, Repr

/-- A fault with no access: ACC and TRAPADDR zero. -/
def Trap.plain (code info : Nat) : Trap :=
  { code := code, info := info, acc := 0, addr := 0, eng := false, tc := 0, unit := none }

/-- A fault of an access (R416, R433). -/
def Trap.at (code info acc : Nat) (addr : Word) : Trap := { Trap.plain code info with acc := acc, addr := addr }

/-- The trap of a memory fault: TRAPADDR is the lowest failing byte (R417). -/
def MemFault.trap (f : MemFault) (acc : Nat) (addr : Word) : Trap :=
  { Trap.plain f.code f.info with acc := acc, addr := addr + BitVec.ofNat 64 f.off, unit := f.unit }

/-- TRAPCAUSE (R416). -/
def causeWord (pt : Bool) (t : Trap) : Word :=
  BitVec.ofNat 64 (put (b2n pt) 63 + put (b2n t.eng) 62 + put (t.tc % 8) 59 + put (t.acc % 8) 56 +
    put (t.info % 65536) 16 + t.code % 256)

/-- BASE of the fault ring. -/
def State.ringBase (s : State) : Nat := wfld s.fltRing 45 12 * 4096

/-- COUNT of the fault ring (R424). -/
def ringCount (s : State) : Nat := (physWord s s.ringBase).toNat

/-- Word 1 of R425 for a unit: CLASS and INDEX. -/
def unitWord (cls idx : Nat) : Word := BitVec.ofNat 64 (put cls 56 + idx % 2 ^ 56)

/-- Words 1 to 5 of a record. -/
abbrev RecWords := Nat × List Word

/-- A record with its TYPE and words 1 to 5 goes into the ring as number `n` (R424, R425). -/
def ringPut (s : State) (n : Nat) (r : RecWords) : State :=
  let slots := 2 ^ (6 + wfld s.fltRing 55 52) - 1
  let w0 := BitVec.ofNat 64 (put r.1 56 + s.tick % 2 ^ 56)
  devStoreAll s (s.ringBase + 64 * (1 + n % slots)) 64 (((w0 :: r.2) ++ [0, 0]).map (wordBytes 8)).flatten

/-- The TYPE 3 record of a COUNT that the device cannot read as it writes a record (R424, R426). -/
def countUe (s : State) : List RecWords :=
  match physUnit s s.ringBase 8 with
  | some (c, i, src) => [(3, [unitWord c i, causeWord false (Trap.plain 0x0E (src * 4096)), 0, 0, 0])]
  | none => []

/-- FAULT_RECORD_WRITE: a record, then COUNT; a COUNT that cannot be read has a record of its own before it (R424 to R426). -/
def faultRecord (s : State) (type : Nat) (w1 w2 w3 w4 w5 : Word) : State :=
  if !wbit s.fltRing 63 then s
  else
    let n := ringCount s
    let rs := countUe s ++ [(type, [w1, w2, w3, w4, w5])]
    let s := (List.range rs.length).foldl (fun s i => ringPut s (n + i) (rs.getD i (0, []))) s
    devStoreAll s s.ringBase 8 (natToBytes 8 (n + rs.length))

/-- A TYPE 0 record of a context (R421, R425). -/
def contextRecord (s : State) (ctxid : Word) (cause pc addr w5 : Word) : State := faultRecord s 0 ctxid cause pc addr w5

/-- A TYPE 3 record where uncorrectable data was met: words 2 to 4 as the trap writes them, with TRAPCAUSE.PT (R425,
R426). -/
def ueRecord (s : State) (pt : Bool) (t : Trap) (pc : Word) : State :=
  match t.unit with
  | some (c, i) => faultRecord s 3 (unitWord c i) (causeWord pt t) pc t.addr 0
  | none => s

/-- The source of R453 that data of a class of unit has (R428, R453). -/
def classSource (cls : Nat) : Nat := if cls = 5 then 1 else if cls = 3 then 2 else if cls = 2 then 3 else 4

/-- A TYPE 3 record of a unit that no context's access met: words 2 to 4 are those of an FLT_MEMUE with its source, with no
access and no PC (R425, R452, R455, R459; log 43). -/
def unitRecord (s : State) (cls idx src : Nat) : State :=
  faultRecord s 3 (unitWord cls idx) (causeWord false (Trap.plain 0x0E (src * 4096))) 0 0 0

/-- The CTXID form of R465 for an entry that no context bears: SLOT 14. -/
def entryId (group vcore pcore pid : Nat) : Word := ctxidWord group vcore pcore pid 14

/-- A TYPE 0 record of a discarded entry (R465, R467, R484). -/
def entryRecord (s : State) (id : Word) (code info : Nat) (w5 : Word) : State :=
  faultRecord s 0 id (causeWord false (Trap.plain code info)) 0 0 w5

/-- The record of discards at a down link: one in 1,000 ticks at most (R482). -/
def discardRecord (s : State) (cls : Nat) : State :=
  let due := match s.discardTick with
    | some t => decide (t + 1000 ≤ s.tick)
    | none => true
  if due then { faultRecord s 2 (unitWord cls 0xFE) 0 0 0 0 with discardTick := some s.tick } else s

end Sys2Proof.Machine
end

