-- ==== Sys2Proof/Machine/Regs.lean ====
section
/-! DEFINITION. The device register space as reads see it (R29, R324, R368, R369, R372, R374, R380 to R382, R419, R424,
R472), and the read-only system registers computed from other state (R34, R41, R42, R113). -/

namespace Sys2Proof.Machine

/-- VERS (R324; STEP is log 7). -/
def versWord : Word := BitVec.ofNat 64 (put 1 24 + put Config.stepping.toNat 16 + put 3 8 + 2)

/-- POWERCAP (R374). -/
def powercapWord (s : State) : Word :=
  BitVec.ofNat 64 (put (s.therm % 4) 40 + put (s.clkStep % 16) 32 + s.cap % 65536)

/-- MSTAT (R381, R485). -/
def mstatWord (s : State) : Word :=
  BitVec.ofNat 64 (b2n s.meas.isSome + 2 * b2n s.measErr + 4 * b2n s.measFull)

/-- CORESEN of a die (R29). -/
def coresenWord (s : State) (die : Nat) : Word := (vget s.coresen die 0).setWidth 64

/-- Byte `i` of a word. -/
def byteOf (w : Word) (i : Nat) : Byte := BitVec.ofNat 8 (w.toNat / 2 ^ (8 * i))

/-- Whether an offset holds a register that the host writes as a command, or a window of R369, and that no rule gives a
value to read: MSTART, MEND, MDATA, QNONCE and the core control window (log 25). -/
def writeOnly (o : Nat) : Bool :=
  (decide (0x100 ≤ o) && decide (o < 0x110)) || (decide (0x140 ≤ o) && decide (o < 0x180)) ||
    (decide (0x200 ≤ o) && decide (o < 0x240)) || (decide (0x2000 ≤ o) && decide (o < 0x2008))

/-- The 8-byte registers below 0x3000 and the two tables at 0x1_0000 (R368), by the offset of their first byte. -/
def regWord (s : State) (o : Nat) : Word :=
  if o = 0x00 then s.ready
  else if o = 0x08 then versWord
  else if o = 0x10 then powercapWord s
  else if o = 0x18 then s.tandemCfg
  else if o = 0x20 then coresenWord s 0
  else if o = 0x28 then coresenWord s 1
  else if o = 0x30 then s.fltRing
  else if o = 0x38 then s.failed
  else if o = 0x110 then mstatWord s
  else if o = 0x240 then s.qstat
  else if 0x1000 ≤ o ∧ o < 0x1200 then vget s.clients ((o - 0x1000) / 8) 0
  else if 0x1200 ≤ o ∧ o < 0x1400 then vget s.apBase ((o - 0x1200) / 8) 0
  else if o = 0x2008 then s.ctlRes
  else if 0x2100 ≤ o ∧ o < 0x2400 then (s.core ((o - 0x2100) / 8)).ctlStat
  else if 0x1_0000 ≤ o ∧ o < 0x1_4000 then
    let e := vget s.versions ((o - 0x1_0000) / 16) 0
    if o / 8 % 2 = 0 then e.setWidth 64 else (e >>> 64).setWidth 64
  else if 0x1_4000 ≤ o ∧ o < 0x1_4200 then vget s.trapEnt ((o - 0x1_4000) / 8) 0
  else 0

/-- One byte of the device register space (R368; windows, ports and apertures read as zero, R369). -/
def regByte (s : State) (o : Nat) : Byte :=
  if 0x3000 ≤ o ∧ o < 0x3000 + 2592 then Config.identityKey (o - 0x3000)
  else if 0x4000 ≤ o ∧ o < 0x4000 + 4627 then
    match s.signed with
    | some d => Config.quoteSignature d (o - 0x4000)
    | none => 0
  else if 0x8000 ≤ o ∧ o < 0x1_0000 then Config.certificateChain (o - 0x8000)
  else if 0x80_0000 ≤ o ∧ o < 0x88_0000 then
    (s.attest.getD ((o - 0x80_0000) / 128) []).getD (o % 128) 0
  else if writeOnly o then Config.freeByte (s.fresh + o % 8)
  else byteOf (regWord s (o / 8 * 8)) (o % 8)

/-- A read of the device register space (R124, R368). A read that takes a free value makes the next one fresh (log 24). -/
def devRead (s : State) (o n : Nat) : List Byte × State :=
  ((List.range n).map fun i => regByte s (o + i), if writeOnly o then { s with fresh := s.fresh + 8 } else s)

/-- Grid width and height of the core's resident PID (R39). -/
def Core.gx (k : Core) : Nat := wfld k.grid 7 0 + 1
/-- Grid height. -/
def Core.gy (k : Core) : Nat := wfld k.grid 15 8 + 1

/-- GEOM of a virtual core; before the core has taken a process it is zero (R33, R41). -/
def geomWord (k : Core) (v : Nat) : Word :=
  if !k.resident then 0
  else
  let gx := k.gx
  let gy := k.gy
  let x := v % gx
  let y := v / gx
  BitVec.ofNat 64 (put (b2n (y + 1 == gy)) 51 + put (b2n (y == 0)) 50 + put (b2n (x + 1 == gx)) 49 +
    put (b2n (x == 0)) 48 + put (gy - 1) 40 + put (gx - 1) 32 + put (y % 256) 24 + put (x % 256) 16 + v % 256)

/-- First unit and count of a coordinate's share (R42). -/
def share (w g c : Nat) : Nat × Nat := (c * (w / g) + min c (w % g), w / g + if c < w % g then 1 else 0)

/-- GEOMSUB of a virtual core (R42). -/
def geomsubWord (k : Core) (v : Nat) : Word :=
  let x := share (wfld k.grid 47 32) k.gx (v % k.gx)
  let y := share (wfld k.grid 63 48) k.gy (v / k.gx)
  BitVec.ofNat 64 (put y.2 48 + put (y.1 % 65536) 32 + put x.2 16 + x.1 % 65536)

/-- A BANKMAP entry (R113). -/
def bankWord (b : Bank) : Word :=
  BitVec.ofNat 64 (put b.count 47 + put b.tail 33 + put b.head 19 + put b.esize 17 + put (b.pid % 64) 8 + b.mode % 8)

end Sys2Proof.Machine
end

