-- ==== Sys2Proof/Machine/Banks.lean ====
section
/-! DEFINITION. The banks of the paddock stores: pad bytes, physical tiles, mode switches and their content, FIFO queues
(R63, R113 to R120, R449 to R451, R454). -/

namespace Sys2Proof.Machine

/-- First key of a bank. -/
def bankKey (home b : Nat) : Nat := padKey home b 0

/-- Every byte of a bank becomes zero, and no word of it fails any more (R117, R454). -/
def clearBank (s : State) (home b : Nat) : State :=
  let lo := bankKey home b
  { s with pad := memClear s.pad lo (lo + 131072),
           padBad := s.padBad.filter fun k => decide (k < lo) || decide (lo + 131072 ≤ k) }

/-- Bytes are written in a bank; failing words that they cover whole are good again (R454). -/
def padWrite (s : State) (key : Nat) (bs : List Byte) : State :=
  { s with pad := memWrite s.pad key bs,
           padBad := s.padBad.filter fun k => decide (k < key) || decide (key + bs.length < k + 8) }

/-- CLASS and INDEX of a bank (R428). -/
def bankUnit (home b : Nat) : Nat × Nat := (1, dieOf home * 768 + home / 8 % 6 * 128 + home % 8 * 16 + b)

/-- FLT_MEMUE of a bank byte: source 4 (R453). -/
def padUe (home b off : Nat) : MemFault := ueFault 4 off (bankUnit home b).1 (bankUnit home b).2

/-- Bytes of a PAD bank: a failing word faults (R454). -/
def padRead (s : State) (key n : Nat) : Except MemFault (List Byte) :=
  match (List.range n).find? fun i => s.padBad.contains ((key + i) / 8 * 8) with
  | some i => .error (padUe (keyHome key) (keyBank key) i)
  | none => .ok (memRead s.pad key n)

/-- Whether a bank holds a valid directory overflow area of its core (R157, R461). -/
def isDirArea (s : State) (home b : Nat) : Bool :=
  let w := (s.core home).dirArea
  wbit w 63 && wfld w 20 17 == b

/-! ### Physical tiles (R63, R65, R118, R119) -/

/-- Whether a home bank counts as a source of free physical tiles: in TILE mode, with no switch out on its way. -/
def tileBankFree (k : Core) (b : Nat) : Bool :=
  let x := vget k.banks b (Bank.init 0 0)
  x.mode == 4 && x.switches.all (fun w => w.mode == 4)

/-- Whether a physical tile is mapped. -/
def physUsed (k : Core) (p : Nat) : Bool :=
  k.tiles.toList.any fun t => match t with
    | some t => t.phys == p
    | none => false

/-- The lowest free physical tile of a core; tile i of bank b is number 8 b + i (log 12). -/
def freePhys (k : Core) : Option Nat := (List.range 128).find? fun p => tileBankFree k (p / 8) && !physUsed k p

/-- Number of TILE banks of a core. -/
def tileBanks (k : Core) : Nat := (k.banks.toList.filter fun b => b.mode == 4).length

/-- Number of live tiles. -/
def liveTiles (k : Core) : Nat := (k.tiles.toList.filter Option.isSome).length

/-- BANK_TILE_COPY: the first mapped tile of bank `b` moves to a free physical tile of another TILE bank; none when no
tile of the bank is mapped, or none is free (R118). -/
def tileCopyOne (k : Core) (b : Nat) : Option Core :=
  match (List.range 16).find? fun i => match vget k.tiles i none with
    | some t => t.phys / 8 == b
    | none => false with
  | none => none
  | some i =>
    let free := (List.range 128).find? fun p => p / 8 != b && tileBankFree k (p / 8) && !physUsed k p
    match vget k.tiles i none, free with
    | some t, some p => some { k with tiles := k.tiles.setIfInBounds i (some { t with phys := p }) }
    | _, _ => none

/-- Every mapped tile of a bank moves out, `n` at most. -/
def tileCopyN (k : Core) (b : Nat) : Nat → Core
  | 0 => k
  | n + 1 => match tileCopyOne k b with
    | some k' => tileCopyN k' b n
    | none => k

/-! ### Switches (R115 to R117, R451) -/

/-- Whether a bank still holds a mapped tile. -/
def holdsTiles (k : Core) (b : Nat) : Bool :=
  k.tiles.toList.any fun t => match t with
    | some t => t.phys / 8 == b
    | none => false

/-- Whether a mapped tile of a bank has a failing word, which no copy may move (R426, R454). -/
def failingTile (k : Core) (b : Nat) : Bool :=
  k.tiles.toList.any fun t => match t with
    | some t => t.phys / 8 == b && !t.bad.isEmpty
    | none => false

/-- Bytes of a FIFO entry. -/
def Bank.entryBytes (b : Bank) : Nat := 8 * 2 ^ b.esize

/-- Entries that a queue holds. -/
def Bank.capacity (b : Bank) : Nat := 131072 / b.entryBytes

/-- Whether a posted store goes to a pad bank; a FENCE that its context has passed stands before every bank (R149). -/
def Posted.toBank (home b : Nat) (p : Posted) : Bool :=
  match p.dest with
  | .pad k => keyHome k == home && keyBank k == b
  | .glb _ => false
  | .fence _ _ => true

/-- The FIFO bank that an address reaches, if it does. -/
def fifoAt (s : State) (core space csel : Nat) (a : Word) : Option Bank :=
  if space < 2 then
    let k := padOfAddr core space csel a
    let b := s.bank (keyHome k) (keyBank k)
    if b.mode = 3 then some b else none
  else none

/-- The address of a copy's word: in a FIFO bank it stays at the first word (R287). -/
def copyAddr (s : State) (core space csel : Nat) (base : Word) (off : Nat) : Word :=
  if (fifoAt s core space csel base).isSome then base else base + BitVec.ofNat 64 off

/-- Whether a write of a copy waits, on the bank that its address reaches: the word it has read, which may lie in another bank than
the first, or its write pointer (R286, R287). -/
def Cmd.writeWaits (s : State) (core home b : Nat) (c : Cmd) : Bool :=
  let at' (space csel : Nat) (a : Word) : Bool :=
    decide (space < 2) && keyHome (padOfAddr core space csel a) == home && keyBank (padOfAddr core space csel a) == b
  match c.stage, c.op with
  | .chan _, .copy _ _ dsp dcs ptr =>
    (c.word.isSome && at' dsp dcs (copyAddr s core dsp dcs c.b c.off)) ||
      (match ptr with
        | some (sp, cs, a) =>
          decide (0 < c.off) && (c.off % 256 == 0 || c.off == c.len.toNat) && c.cellAt != c.off && at' sp cs a
        | none => false)
  | _, _ => false

/-- Whether a store waits on a queue that has no room for it: of a context, or of a copy (R117, R120, R287). -/
def storeWaits (s : State) (home b : Nat) : Bool :=
  let x := s.bank home b
  x.mode == 3 && (List.range 8).any fun i =>
    let core := padOf home * 8 + i
    (s.core core).posted.any (fun p => p.toBank home b && decide (x.capacity < x.count + p.bytes.length / x.entryBytes)) ||
      (decide (x.capacity ≤ x.count) && (s.core core).cmds.any (Cmd.writeWaits s core home b))

/-- Whether the rules of R115 and the FIFO rule of R117 hold at the bank at its switch point (R451). -/
def switchAllowed (s : State) (home b : Nat) (w : BankSwitch) : Bool :=
  let x := s.bank home b
  let k := s.core home
  let n := tileBanks k + (if w.mode = 4 then 1 else 0) - (if x.mode = 4 then 1 else 0)
  !x.retired && (x.mode == 0 || x.pid == w.pid) &&
    ((w.mode != 4 && x.mode != 4) || (decide (3 ≤ n) && decide (n ≤ 12) && w.core == home)) &&
    !(x.mode == 3 && w.mode != 3 && (!x.waiters.isEmpty || storeWaits s home b))

/-- Whether the copies of a switch out of TILE mode would move a failing word: the switch stops instead (R118, R426; log
43). -/
def copyStops (s : State) (home b : Nat) (w : BankSwitch) : Bool :=
  (s.bank home b).mode == 4 && w.mode != 4 && failingTile (s.core home) b

/-- The lines that a bank holds as a way leave its paddock cache (R117, R121). -/
def dropWay (s : State) (home b : Nat) : State :=
  let pad := padOf home
  let mine (l : PLine) : Bool := l.bank == home % 8 * 16 + b
  ((s.pc pad).filter mine).foldl (fun s l => paddockLeft s (dieOf home) l.pln (pad % 6))
    (s.setPc pad ((s.pc pad).filter fun l => !mine l))

/-- The content a switch leaves (R117): queues emptied, cache lines removed, bytes cleared, tiles moved out. -/
def switchEffect (s : State) (home b : Nat) (w : BankSwitch) : State :=
  let x := s.bank home b
  if x.mode = w.mode then s.setBank home b { x with pid := w.pid }
  else
    let s := if x.mode = 4 then s.setCore home (tileCopyN (s.core home) b 8) else s
    let s := if x.mode = 2 then dropWay s home b else s
    let s := clearBank s home b
    s.setBank home b
      { s.bank home b with mode := w.mode, pid := w.pid, esize := if w.mode = 3 then w.esize else 0, head := 0, tail := 0,
                           count := 0, clearing := w.mode == 1, waiters := [] }

/-- BANK_SWITCH_POINT: the oldest switch of a bank is performed, or refused without a fault (R116, R451). -/
def switchPoint (s : State) (home b : Nat) : State :=
  match (s.bank home b).switches with
  | [] => s
  | w :: rest =>
    let s := s.setBank home b { s.bank home b with switches := rest }
    if !switchAllowed s home b w then s
    else if copyStops s home b w then unitRecord s (bankUnit home b).1 (bankUnit home b).2 5
    else switchEffect s home b w

/-- The switches of a bank up to the last one that a core sent are performed. -/
def switchesOf (s : State) (home b core : Nat) : Nat → State
  | 0 => s
  | n + 1 =>
    if (s.bank home b).switches.any fun w => w.core == core then switchesOf (switchPoint s home b) home b core n else s

/-- BANK_CLEAR_DONE: the clearing of a bank ends (R117). -/
def clearDone (s : State) (home b : Nat) : State := s.setBank home b { s.bank home b with clearing := false }

/-- Before an access of a core reaches a bank, the core's own switches of it are performed and a clearing ends (R116,
R117). -/
def settleBank (s : State) (core home b : Nat) : State :=
  let s := switchesOf s home b core (s.bank home b).switches.length
  if (s.bank home b).clearing then clearDone s home b else s

/-! ### FIFO queues (R120) -/

/-- One entry is appended at TAIL. -/
def fifoPush (s : State) (home b : Nat) (bs : List Byte) : State :=
  let x := s.bank home b
  (padWrite s (padKey home b (x.tail * x.entryBytes)) bs).setBank home b
    { x with tail := (x.tail + 1) % x.capacity, count := x.count + 1 }

/-- The entry at HEAD is removed; a failing entry stays there (R120, R454). -/
def fifoPop (s : State) (home b : Nat) : Except MemFault (List Byte) × State :=
  let x := s.bank home b
  match padRead s (padKey home b (x.head * x.entryBytes)) x.entryBytes with
  | .error _ => (.error (padUe home b 0), s)
  | .ok bs => (.ok bs, s.setBank home b { x with head := (x.head + 1) % x.capacity, count := x.count - 1 })

/-- Entries removed one after another. -/
def fifoPopN (s : State) (home b : Nat) : Nat → Except MemFault (List Byte) × State
  | 0 => (.ok [], s)
  | n + 1 =>
    match fifoPop s home b with
    | (.error f, s) => (.error f, s)
    | (.ok x, s) =>
      match fifoPopN s home b n with
      | (.ok xs, s) => (.ok (x ++ xs), s)
      | r => r

/-- Entries of `n` bytes cut from a byte string are appended in order. -/
def fifoPushAll (s : State) (home b n : Nat) : Nat → List Byte → State
  | 0, _ => s
  | k + 1, bs => fifoPushAll (fifoPush s home b (bs.take n)) home b n k (bs.drop n)

/-- A context joins the accesses waiting on a queue, once (R120). -/
def fifoWait (s : State) (home b core slot : Nat) : State :=
  let x := s.bank home b
  let s := if x.waiters.contains (core, slot) then s else s.setBank home b { x with waiters := x.waiters ++ [(core, slot)] }
  s.setCtx core slot { s.ctx core slot with stall := some (home * 16 + b) }

/-- A context no longer waits on a queue. -/
def fifoLeave (s : State) (home b core slot : Nat) : State :=
  let x := s.bank home b
  let s := if x.waiters.contains (core, slot) then s.setBank home b { x with waiters := x.waiters.filter (· != (core, slot)) } else s
  if (s.ctx core slot).stall.isSome then s.setCtx core slot { s.ctx core slot with stall := none } else s

/-- A load of `n` entries: it takes its turn behind the accesses that wait already, and waits while the queue is short; the
256 entries of a tile copy move at once (R120; log 43). -/
def fifoLoad (s : State) (home b core slot n : Nat) : Res (List Byte) :=
  let x := s.bank home b
  let turn := match x.waiters with
    | [] => true
    | w :: _ => w == (core, slot)
  if turn && decide (n ≤ x.count) then
    match fifoPopN (fifoLeave s home b core slot) home b n with
    | (.ok bs, s) => .ok bs s
    | (.error f, s) => .flt f s
  else .wait (fifoWait s home b core slot)

/-- A store of `n` entries: it waits while the queue has no room for them all; the 256 of a tile copy move at once (R120; log
43). -/
def fifoStore (s : State) (home b n : Nat) (bs : List Byte) : Res Unit :=
  let x := s.bank home b
  if x.count + n ≤ x.capacity then .ok () (fifoPushAll s home b x.entryBytes n bs) else .wait s

end Sys2Proof.Machine
end

