-- ==== Sys2Proof/Machine/Num.lean ====
section
/-! DEFINITION. Numbers: the floating-point, integer, scale and plane formats, exact arithmetic on their values, and the
rounding step that ends each combination (R84 to R108). -/

namespace Sys2Proof.Machine

/-- A floating-point format (R86): widths of E and M, bias, and its special codes: 0 infinity and NaN, 1 the two NaN codes
of E4M3, 2 none. -/
structure FloatFmt where
  eb : Nat
  mb : Nat
  bias : Nat
  spec : Nat
  deriving DecidableEq, Repr

/-- FP32. -/
def fmtF32 : FloatFmt := ⟨8, 23, 127, 0⟩
/-- BF16. -/
def fmtB16 : FloatFmt := ⟨8, 7, 127, 0⟩
/-- FP16. -/
def fmtH16 : FloatFmt := ⟨5, 10, 15, 0⟩
/-- FP8 E5M2. -/
def fmtE5M2 : FloatFmt := ⟨5, 2, 15, 0⟩
/-- FP8 E4M3. -/
def fmtE4M3 : FloatFmt := ⟨4, 3, 7, 1⟩
/-- FP6 E3M2. -/
def fmtE3M2 : FloatFmt := ⟨3, 2, 3, 2⟩
/-- FP6 E2M3. -/
def fmtE2M3 : FloatFmt := ⟨2, 3, 1, 2⟩
/-- FP4 E2M1. -/
def fmtE2M1 : FloatFmt := ⟨2, 1, 1, 2⟩

/-- Bits of a code. -/
def FloatFmt.width (f : FloatFmt) : Nat := 1 + f.eb + f.mb

/-- The value of a code: NaN, an infinity, or (−1)^neg × mant × 2^exp (R86). -/
inductive FVal where
  | nan
  | inf (neg : Bool)
  | fin (neg : Bool) (mant : Nat) (exp : Int)
  deriving DecidableEq, Repr

/-- Zero of a sign. -/
def FVal.zero (neg : Bool) : FVal := .fin neg 0 0

/-- The value of a code of a format (R86). -/
def FloatFmt.decode (f : FloatFmt) (code : Nat) : FVal :=
  let s := code / 2 ^ (f.eb + f.mb) % 2 == 1
  let e := code / 2 ^ f.mb % 2 ^ f.eb
  let m := code % 2 ^ f.mb
  if f.spec = 0 ∧ e = 2 ^ f.eb - 1 then (if m = 0 then .inf s else .nan)
  else if f.spec = 1 ∧ e = 2 ^ f.eb - 1 ∧ m = 2 ^ f.mb - 1 then .nan
  else if e = 0 then .fin s m (1 - (f.bias : Int) - f.mb)
  else .fin s (2 ^ f.mb + m) ((e : Int) - f.bias - f.mb)

/-- The magnitude code of the largest finite value. -/
def FloatFmt.maxCode (f : FloatFmt) : Nat :=
  if f.spec = 0 then (2 ^ f.eb - 1) * 2 ^ f.mb - 1
  else if f.spec = 1 then 2 ^ (f.eb + f.mb) - 2
  else 2 ^ (f.eb + f.mb) - 1

/-- The canonical NaN (R88); E3M2, E2M3 and E2M1 have none, and a NaN becomes +0 (R92). -/
def FloatFmt.nanCode (f : FloatFmt) : Nat :=
  if f.spec = 0 then (2 ^ f.eb - 1) * 2 ^ f.mb + 2 ^ (f.mb - 1)
  else if f.spec = 1 then 2 ^ (f.eb + f.mb) - 1
  else 0

/-- The sign bit of a code. -/
def FloatFmt.sign (f : FloatFmt) (neg : Bool) : Nat := if neg then 2 ^ (f.eb + f.mb) else 0

/-- The code of an infinity; the largest finite value where the format has none (R92). -/
def FloatFmt.infCode (f : FloatFmt) (neg : Bool) : Nat :=
  f.sign neg + if f.spec = 0 then (2 ^ f.eb - 1) * 2 ^ f.mb else f.maxCode

/-- The rounding modes (R90). -/
inductive Rnd where
  | rne | rtz | rdn | rup | rmm | rto
  deriving DecidableEq, Repr

/-- The mode of a code; 6 and 7 are reserved and never reach here. -/
def Rnd.of (n : Nat) : Rnd :=
  if n = 1 then .rtz else if n = 2 then .rdn else if n = 3 then .rup else if n = 4 then .rmm
  else if n = 5 then .rto else .rne

/-- The magnitude m × 2^-k rounded to an integer by a mode, for a value of sign `neg` (R90). -/
def roundMag (r : Rnd) (neg : Bool) (m k : Nat) : Nat :=
  let q := m / 2 ^ k
  let rem := m % 2 ^ k
  if rem = 0 then q
  else match r with
    | .rne => if 2 * rem > 2 ^ k ∨ (2 * rem = 2 ^ k ∧ q % 2 = 1) then q + 1 else q
    | .rtz => q
    | .rdn => if neg then q + 1 else q
    | .rup => if neg then q else q + 1
    | .rmm => if 2 * rem ≥ 2 ^ k then q + 1 else q
    | .rto => if q % 2 = 0 then q + 1 else q

/-- The magnitude m × 2^e as a rounded integer. -/
def roundMagExp (r : Rnd) (neg : Bool) (m : Nat) (e : Int) : Nat :=
  if 0 ≤ e then m * 2 ^ e.toNat else roundMag r neg m (-e).toNat

/-- Overflow by format and mode (R91). -/
def FloatFmt.overflow (f : FloatFmt) (r : Rnd) (neg : Bool) : Nat :=
  if f.spec ≠ 0 then f.sign neg + f.maxCode
  else match r with
    | .rne | .rmm => f.infCode neg
    | .rtz | .rto => f.sign neg + f.maxCode
    | .rdn => if neg then f.infCode true else f.maxCode
    | .rup => if neg then f.sign true + f.maxCode else f.infCode false

/-- The code of the finite value (−1)^neg × m × 2^e, rounded once (R90, R91). -/
def FloatFmt.roundFin (f : FloatFmt) (r : Rnd) (neg : Bool) (m : Nat) (e : Int) : Nat :=
  if m = 0 then f.sign neg
  else
    let top := max ((Nat.log2 m : Int) + e) (1 - (f.bias : Int))
    let n := roundMagExp r neg m (e - (top - f.mb))
    let code := (top + f.bias - 1).toNat * 2 ^ f.mb + n
    if code > f.maxCode then f.overflow r neg else f.sign neg + code

/-- A value as a code of a format (R88, R90 to R92). -/
def FloatFmt.round (f : FloatFmt) (r : Rnd) : FVal → Nat
  | .nan => f.nanCode
  | .inf neg => f.infCode neg
  | .fin neg m e => f.roundFin r neg m e

/-- The signed mantissa of a finite value at an exponent not above its own. -/
def alignTo (neg : Bool) (m : Nat) (e lo : Int) : Int :=
  let n : Int := m * 2 ^ (e - lo).toNat
  if neg then -n else n

/-- Sign, mantissa and exponent of n × 2^e. -/
def FVal.ofInt (n : Int) (e : Int) : FVal := .fin (decide (n < 0)) n.natAbs e

/-- Exact sum; a zero sum is −0 only when both addends are −0 (R88, R268, R303). -/
def FVal.add : FVal → FVal → FVal
  | .nan, _ => .nan
  | _, .nan => .nan
  | .inf a, .inf b => if a = b then .inf a else .nan
  | .inf a, .fin _ _ _ => .inf a
  | .fin _ _ _, .inf b => .inf b
  | .fin sa ma ea, .fin sb mb eb =>
    let lo := min ea eb
    let n := alignTo sa ma ea lo + alignTo sb mb eb lo
    if n = 0 then .zero (decide (ma = 0) && decide (mb = 0) && sa && sb) else .ofInt n lo

/-- The value with its sign turned. -/
def FVal.neg : FVal → FVal
  | .nan => .nan
  | .inf s => .inf (!s)
  | .fin s m e => .fin (!s) m e

/-- Exact product; a zero keeps the product's sign (R88, R102). -/
def FVal.mul : FVal → FVal → FVal
  | .nan, _ => .nan
  | _, .nan => .nan
  | .inf a, .inf b => .inf (a != b)
  | .inf a, .fin b m _ => if m = 0 then .nan else .inf (a != b)
  | .fin a m _, .inf b => if m = 0 then .nan else .inf (a != b)
  | .fin a m e, .fin b n g => .fin (a != b) (m * n) (e + g)

/-- Whether a value is a zero. -/
def FVal.isZero : FVal → Bool
  | .fin _ m _ => m == 0
  | _ => false

/-- The sum of R87: an exact zero is +0. -/
def FVal.addPos (a b : FVal) : FVal :=
  match a.add b with
  | .fin s m e => if m = 0 then .zero false else .fin s m e
  | v => v

/-- Quotient of finite non-zero values, with a sticky bit below enough bits for one rounding to any format (R203). -/
def divFin (sa : Bool) (ma : Nat) (ea : Int) (sb : Bool) (mb : Nat) (eb : Int) : FVal :=
  let num := ma * 2 ^ (64 + Nat.log2 mb)
  let q := num / mb
  .fin (sa != sb) (2 * q + if num % mb = 0 then 0 else 1) (ea - eb - (64 + Nat.log2 mb : Nat) - 1)

/-- Quotient: x / 0 is an infinity, 0 / 0 and ∞ / ∞ are NaN (R203). -/
def FVal.div : FVal → FVal → FVal
  | .nan, _ => .nan
  | _, .nan => .nan
  | .inf _, .inf _ => .nan
  | .inf a, .fin b _ _ => .inf (a != b)
  | .fin a _ _, .inf b => .zero (a != b)
  | .fin a m e, .fin b n g =>
    if n = 0 then (if m = 0 then .nan else .inf (a != b))
    else if m = 0 then .zero (a != b)
    else divFin a m e b n g

/-- Integer square root by bits: `k` bits of the root of `n`, from the root `r` of its higher bits. -/
def isqrtLoop (n : Nat) : Nat → Nat → Nat
  | 0, r => r
  | k + 1, r =>
    let t := r + 2 ^ k
    isqrtLoop n k (if t * t ≤ n then t else r)

/-- Floor of the square root. -/
def isqrt (n : Nat) : Nat := isqrtLoop n (Nat.log2 n / 2 + 1) 0

/-- Square root, with a sticky bit; −0 gives −0, a negative value NaN (R203). -/
def FVal.sqrt : FVal → FVal
  | .nan => .nan
  | .inf s => if s then .nan else .inf false
  | .fin s m e =>
    if m = 0 then .zero s
    else if s then .nan
    else
      let n := if e % 2 = 0 then m * 2 ^ 128 else m * 2 ^ 129
      let h := if e % 2 = 0 then e - 128 else e - 129
      let r := isqrt n
      .fin false (2 * r + if r * r = n then 0 else 1) (h / 2 - 1)

/-- Whether a < b, as numbers with −0 below +0; neither is NaN (R105, R268). -/
def FVal.ltTotal : FVal → FVal → Bool
  | .nan, _ => false
  | _, .nan => false
  | .inf a, .inf b => a && !b
  | .inf a, .fin _ _ _ => a
  | .fin _ _ _, .inf b => !b
  | .fin sa ma ea, .fin sb mb eb =>
    let lo := min ea eb
    let d := alignTo sa ma ea lo - alignTo sb mb eb lo
    if d = 0 then (decide (ma = 0) && sa && !sb) else decide (d < 0)

/-- Minimum: NaN when either operand is NaN, −0 below +0 (R105, R202, R268). -/
def FVal.min (a b : FVal) : FVal :=
  match a, b with
  | .nan, _ => .nan
  | _, .nan => .nan
  | a, b => if b.ltTotal a then b else a

/-- Maximum, likewise. -/
def FVal.max (a b : FVal) : FVal :=
  match a, b with
  | .nan, _ => .nan
  | _, .nan => .nan
  | a, b => if a.ltTotal b then b else a

/-- Equality of numbers: +0 equals −0, NaN equals nothing (R206). -/
def FVal.eqNum (a b : FVal) : Bool :=
  match a, b with
  | .nan, _ => false
  | _, .nan => false
  | a, b => (!a.ltTotal b && !b.ltTotal a) || (a.isZero && b.isZero)

/-- a < b as numbers: −0 is not below +0, and NaN is below nothing (R206). -/
def FVal.ltNum (a b : FVal) : Bool := a.ltTotal b && !(a.isZero && b.isZero)

/-- Whether a value is NaN. -/
def FVal.isNan : FVal → Bool
  | .nan => true
  | _ => false

/-! ### Integers -/

/-- An integer clamped to a format of `w` bits (R85). -/
def satInt (signed : Bool) (w : Nat) (x : Int) : Int :=
  let lo : Int := if signed then -(2 ^ (w - 1)) else 0
  let hi : Int := if signed then 2 ^ (w - 1) - 1 else 2 ^ w - 1
  if x < lo then lo else if x > hi then hi else x

/-- The low `w` bits of an integer. -/
def wrapInt (w : Nat) (x : Int) : Nat := (x % (2 ^ w : Int)).toNat

/-- A code of `w` bits as an integer. -/
def intOf (signed : Bool) (w : Nat) (code : Nat) : Int :=
  let c := code % 2 ^ w
  if signed && decide (2 ^ (w - 1) ≤ c) then (c : Int) - 2 ^ w else c

/-- Rounded to an integer by a mode, then saturated (R93): the code of `w` bits. -/
def FVal.toInt (v : FVal) (r : Rnd) (signed : Bool) (w : Nat) : Nat :=
  match v with
  | .nan => 0
  | .inf s => wrapInt w (satInt signed w (if s then -(2 ^ 80) else 2 ^ 80))
  | .fin s m e =>
    let n : Int := roundMagExp r s m e
    wrapInt w (satInt signed w (if s then -n else n))

/-- An exact integer as a value; zero is +0. -/
def FVal.ofIntExact (n : Int) : FVal := .ofInt n 0

/-! ### FP32 codes -/

/-- Value of an FP32 code. -/
def f32 (x : Nat) : FVal := fmtF32.decode x

/-- FP32 code of a value, rounded to nearest even (R90). -/
def rneF32 (v : FVal) : Nat := fmtF32.round .rne v

/-! ### Scales, groups and the scale stage (R89, R100 to R102) -/

/-- Value of an E3M5 scale code (R89). -/
def scaleE3M5 (c : Nat) : FVal :=
  let e := c / 32 % 8
  let m := c % 32
  if e = 0 then .fin false m (-11) else .fin false (32 + m) ((e : Int) - 12)

/-- Value of an E8M0 scale code (R89). -/
def scaleE8M0 (c : Nat) : FVal := if c = 255 then .nan else .fin false 1 ((c : Int) - 127)

/-- Whether a value is an infinity of a sign. -/
def FVal.isInf (neg : Bool) : FVal → Bool
  | .inf s => s == neg
  | _ => false

/-- floor(log2) of the finite non-zero terms: the largest, if there is one. -/
def topExp : List FVal → Option Int
  | [] => none
  | .fin _ m e :: r =>
    if m = 0 then topExp r
    else match topExp r with
      | none => some ((Nat.log2 m : Int) + e)
      | some t => some (max ((Nat.log2 m : Int) + e) t)
  | _ :: r => topExp r

/-- Window sum and sticky bit of R100: weight `w` of the least significant bit. -/
def windowSum (w : Int) : List FVal → Int × Bool
  | [] => (0, false)
  | .fin s m e :: r =>
    let (sum, st) := windowSum w r
    let n := roundMagExp .rtz false m (e - w)
    let exact := if e ≥ w then true else m % 2 ^ (w - e).toNat == 0
    ((if s then sum - n else sum + n), st || !exact)
  | _ :: r => windowSum w r

/-- One group update (R100): the accumulator's value and the group's products. -/
def groupUpdate (terms : List FVal) : Nat :=
  if terms.any FVal.isNan || (terms.any (FVal.isInf true) && terms.any (FVal.isInf false)) then 0x7FC00000
  else if terms.any (FVal.isInf true) then 0xFF800000
  else if terms.any (FVal.isInf false) then 0x7F800000
  else match topExp terms with
    | none => if terms.all fun t => match t with | .fin s _ _ => s | _ => false then 0x80000000 else 0
    | some top =>
      let w := top - 58
      let (sum, st) := windowSum w terms
      if sum = 0 then 0
      else fmtF32.roundFin .rne (decide (sum < 0)) (2 * sum.natAbs + b2n st) (w - 1)

/-- One element of SCAC (R101): accumulator code, partial sum code, scales, q. -/
def scacElem (acc part : Nat) (sa sb : FVal) (q : Nat) : Nat :=
  let a := f32 acc
  match a, sa, sb with
  | .nan, _, _ => 0x7FC00000
  | _, .nan, _ => 0x7FC00000
  | _, _, .nan => 0x7FC00000
  | .inf _, _, _ => acc
  | a, sa, sb =>
    rneF32 (a.addPos (((FVal.ofIntExact (intOf true 32 part)).mul (sa.mul sb)).mul (.fin false 1 (-(q : Int)))))

/-- One element of SCAL (R102). -/
def scalElem (acc : Nat) (ba bb : FVal) : Nat := rneF32 (((f32 acc).mul ba).mul bb)

/-! ### The MX formats (R96, R107, R108) -/

/-- Element width of an MX format, by its code in ALIASTAB (R96, R135). -/
def mxWidth (f : Nat) : Nat := [4, 6, 6, 8, 8, 8].getD f 8

/-- Bytes of a block of 32 elements. -/
def mxBytes (f : Nat) : Nat := [16, 24, 24, 32, 32, 32].getD f 32

/-- The element format, none for MXINT8. -/
def mxFmt (f : Nat) : Option FloatFmt :=
  ([some fmtE2M1, some fmtE2M3, some fmtE3M2, some fmtE4M3, some fmtE5M2, none] : List (Option FloatFmt)).getD f none

/-- emax of an MX element format (R96). -/
def mxEmax (f : Nat) : Int := ([2, 2, 4, 8, 15, 0] : List Int).getD f 0

/-- Value of one element under a scale code: scale × element (R96, R107). -/
def mxValue (f scale code : Nat) : FVal :=
  let sc : FVal := scaleE8M0 scale
  match mxFmt f with
  | some fl => sc.mul (fl.decode code)
  | none => sc.mul ((FVal.ofIntExact (intOf true 8 code)).mul (.fin false 1 (-6)))

/-- BF16 code read for one element (R107). -/
def mxRead (f scale code : Nat) : Nat := fmtB16.round .rne (mxValue f scale code)

/-- floor(log2) of the largest magnitude of a block, if any is not zero. -/
def blockTop (vs : List FVal) : Option Int := topExp vs

/-- A block re-packed from 32 values: scale code and element codes, each rounded by the RNE column of R91, which gives an overflow of
E5M2 as an infinity (R91, R108; log 45). -/
def mxPack (f : Nat) (vs : List FVal) : Nat × List Nat :=
  if vs.any fun v => v.isNan || v.isInf true || v.isInf false then (255, vs.map fun _ => 0)
  else
    let x : Int := match blockTop vs with
      | none => -127
      | some t => max (-127) (min 127 (t - mxEmax f))
    let el (v : FVal) : Nat :=
      let y := v.mul (.fin false 1 (-x))
      match mxFmt f with
      | some fl => fl.round .rne y
      | none => (y.mul (.fin false 64 0)).toInt .rne true 8
    ((x + 127).toNat, vs.map el)

/-- Element `i` of a little-endian bit string of elements of `w` bits. -/
def bitElem (n w i : Nat) : Nat := n / 2 ^ (w * i) % 2 ^ w

/-- Elements of `w` bits packed into a number, element 0 lowest. -/
def packElems (w : Nat) : List Nat → Nat
  | [] => 0
  | c :: cs => c % 2 ^ w + 2 ^ w * packElems w cs

/-- The first `k` elements of `w` bits of a number. -/
def unpackElems (w : Nat) : Nat → Nat → List Nat
  | 0, _ => []
  | k + 1, n => n % 2 ^ w :: unpackElems w k (n / 2 ^ w)

/-- The 32 BF16 codes that a block's bytes and scale byte read as (R107). -/
def mxUnpack (f scale : Nat) (bs : List Byte) : List Nat :=
  (unpackElems (mxWidth f) 32 (bytesToNat bs)).map (mxRead f scale)

/-- The bytes of a block from its element codes. -/
def mxBlockBytes (f : Nat) (codes : List Nat) : List Byte := natToBytes (mxBytes f) (packElems (mxWidth f) codes)

/-! ### Plane codes (R97) -/

/-- The integer code of an element of a plane-mode format (0 .n1 to 8 .e3m2), from its stored bits (R97). -/
def planeCode (f bits : Nat) : Int :=
  let fl (g : FloatFmt) (fac : Nat) : Int :=
    match g.decode bits with
    | .fin s m e =>
      let n : Int := roundMagExp .rtz false (m * fac) e
      if s then -n else n
    | _ => 0
  if f = 0 then intOf false 1 bits
  else if f = 1 then intOf true 2 bits
  else if f = 2 then intOf true 4 bits
  else if f = 3 then intOf false 4 bits
  else if f = 4 then fl fmtE2M1 2
  else if f = 5 then fl fmtE2M3 8
  else if f = 6 then intOf true 8 bits
  else if f = 7 then intOf false 8 bits
  else fl fmtE3M2 16

end Sys2Proof.Machine
end

