-- ==== Sys2Proof/Machine/Access.lean ====
section
/-! DEFINITION. One memory access of a context or an engine: the checks of R109, R112, R128, R436, R449 and R458, where it
goes, and how loads, posted stores and atomics are performed (R107, R108, R110, R111, R124, R135 to R137, R143 to R148,
R154, R160, R161, R367, R379, R482, R491). -/

namespace Sys2Proof.Machine

/-- Who makes an access: its core, slot (16 and up an engine of the core) and process. -/
structure Who where
  core : Nat
  slot : Nat
  pid : Nat
  deriving DecidableEq, Repr

/-- The context that moves. -/
def State.who (s : State) : Who := ⟨s.curCore, s.curSlot, s.me.pid⟩

/-- Whether an effective address passes R109. -/
def spaceOk (space : Nat) (a : Word) : Bool :=
  if space = 0 then decide (a.toNat < 2 ^ 21) else if space = 1 then decide (a.toNat < 2 ^ 24) else canonical a

/-- Bytes from an address to the end of the piece that one access of the machine covers: an 8-byte word under INTERLEAVED, a
bank row, or 64 bytes of GLOBAL, half a line and one alias block (R80, R111, R136, R137, R377). -/
def pieceLen (space csel : Nat) (a : Nat) : Nat := if space = 1 ∧ csel = 1 then 8 - a % 8 else 64 - a % 64

/-- Before an access to a pad address, the switches that the core itself sent are performed (R116). -/
def settleFor (s : State) (w : Who) (space csel : Nat) (a : Word) : State :=
  if space < 2 ∧ spaceOk space a then
    let k := padOfAddr w.core space csel a
    settleBank s w.core (keyHome k) (keyBank k)
  else s

/-- FLT_ALIGN with log2 of the size required (R433). -/
def alignTrap (lg acc : Nat) (a : Word) : Trap := Trap.at 0x07 lg acc a

/-- Step 6 of R431 for one access: alignment, space, FIFO form, access kind (R436). The access kind of GLOBAL targets is
found with the leaf. -/
def check6 (s : State) (w : Who) (form : Form) (space csel : Nat) (a : Word) (n lgAlign acc : Nat) : Option Trap :=
  if a.toNat % 2 ^ lgAlign ≠ 0 then some (alignTrap lgAlign acc a)
  else if !spaceOk space a then some (Trap.at 0x08 0x0001 acc a)
  else if space < 2 then
    let k := padOfAddr w.core space csel a
    let b := s.bank (keyHome k) (keyBank k)
    if b.mode = 3 then
      match form with
      | .scalar => if b.entryBytes = n then none else some (alignTrap (3 + b.esize) acc a)
      | .tile full => if full && b.esize == 3 then none else some (alignTrap 6 acc a)
      | .vmem | .atomic => some (Trap.at 0x09 0x0400 acc a)
    else none
  else none

/-- Bank mode and PID (R449). -/
def padCheck (s : State) (w : Who) (home b : Nat) : Option MemFault :=
  let x := s.bank home b
  if x.mode ≠ 1 ∧ x.mode ≠ 3 then some { xlate 8 0 with info := put x.mode 8 + 8 }
  else if isDirArea s home b && w.slot == 9 && w.core == home then none
  else if x.pid ≠ w.pid then some (permFault 0x20)
  else if isDirArea s home b then some (permFault 0x40)
  else none

/-! ### The alias range (R107, R108, R135 to R137, R458, R459) -/

/-- Word `i` of an ALIASTAB descriptor. -/
def aliasWord (s : State) (d i : Nat) : Word := vget s.aliasTab (d * 4 + i) 0

/-- FMT of a descriptor. -/
def aliasFmt (s : State) (d : Nat) : Nat := wfld (aliasWord s d 2) 34 32

/-- Bytes of HBM read at their controllers, line by line, each with whether it is good; the source of R453 of those that are
not, 0 where the read must wait. -/
def rawRead (s : State) (pa : Nat) : Nat → Nat → (List (Byte × Bool) × Nat) × State
  | 0, _ => (([], 1), s)
  | _, 0 => (([], 1), s)
  | k + 1, n =>
    let m := min n (128 - pa % 128)
    let ((x, f), s) := hbmRead s pa m
    let ((y, g), s) := rawRead s (pa + m) k (n - m)
    ((x ++ y, if x.all (·.2) then g else if y.all (·.2) then f else min f g), s)

/-- Bytes of HBM written at their controllers, line by line. -/
def rawWrite (s : State) (pa : Nat) (c : Bool) : Nat → List Byte → State
  | 0, _ => s
  | _, [] => s
  | k + 1, bs =>
    let m := 128 - pa % 128
    rawWrite (hbmWrite (noteSpill s pa (min m bs.length)) pa (bs.take m) c) (pa + m) c k (bs.drop m)

/-- Address of the elements of block `b` of a descriptor (R136). EBASE and SBASE count as they are written, the low bits that R135
calls zero among them (log 45). -/
def aliasElems (s : State) (d b : Nat) : Nat := wfld (aliasWord s d 0) 45 0 + b * mxBytes (aliasFmt s d)

/-- Address of its scale byte. -/
def aliasScale (s : State) (d b : Nat) : Nat := wfld (aliasWord s d 1) 45 0 + b

/-- What a block's element and scale bytes read as. -/
structure AliasBlock where
  elems : List (Byte × Bool)
  scale : Byte × Bool
  /-- The source of R453 of the bytes that are not good; 0 where the read must wait. -/
  src : Nat
  deriving DecidableEq, Repr

/-- Whether every byte of a block is good. -/
def AliasBlock.good (x : AliasBlock) : Bool := x.elems.all (·.2) && x.scale.2

/-- The bytes of block `b` of a descriptor (R107, R136). -/
def aliasBlock (s : State) (d b : Nat) : AliasBlock × State :=
  let ((e, f), s) := rawRead s (aliasElems s d b) 4 (mxBytes (aliasFmt s d))
  let ((c, g), s) := rawRead s (aliasScale s d b) 2 1
  ({ elems := e, scale := c.headD (0, false), src := if e.all (·.2) then g else if (c.headD (0, false)).2 then f else min f g }, s)

/-- The 32 BF16 codes of a block (R107). -/
def AliasBlock.codes (x : AliasBlock) (f : Nat) : List Nat := mxUnpack f (bytesToNat [x.scale.1]) (x.elems.map (·.1))

/-- The 64 bytes that a block reads as. -/
def bf16Bytes (codes : List Nat) : List Byte := (codes.map (natToBytes 2)).flatten

/-- Whether byte `i` of the 64 that a block reads as rests on a failing byte: the scale, or a byte of its element. -/
def AliasBlock.badByte (x : AliasBlock) (f i : Nat) : Bool :=
  let w := mxWidth f
  !x.scale.2 || (List.range x.elems.length).any fun j =>
    !(x.elems.getD j (0, true)).2 && decide (i / 2 * w < 8 * (j + 1)) && decide (8 * j < (i / 2 + 1) * w)

/-- PA[45:16] of the lowest failing byte of a block: of its elements, else of its scale (R428, R459). -/
def AliasBlock.index (x : AliasBlock) (ea sc : Nat) : Nat :=
  match (List.range x.elems.length).find? fun j => !(x.elems.getD j (0, true)).2 with
  | some j => (ea + j) / 65536
  | none => sc / 65536

/-- ALIAS_READ: bytes of a block; a failing byte of the block faults at the lowest byte read that rests on it (R107, R417,
R459; log 43). -/
def aliasRead (s : State) (d b off n : Nat) : Res (List Byte) :=
  let (x, s) := aliasBlock s d b
  if x.good then .ok (slice (bf16Bytes (x.codes (aliasFmt s d))) off n) s
  else if x.src = 0 then .wait s
  else
    let at' := ((List.range n).find? fun i => x.badByte (aliasFmt s d) (off + i)).getD 0
    let f := ueFault x.src at' 5 (x.index (aliasElems s d b) (aliasScale s d b))
    .flt (if x.src = 2 then { f with unit := none } else f) s

/-- The lines of HBM that hold a block's elements and its scale (R136). -/
def aliasLines (s : State) (d b : Nat) : List Nat :=
  [aliasElems s d b / 128, (aliasElems s d b + mxBytes (aliasFmt s d) - 1) / 128, aliasScale s d b / 128]

/-- The instruction caches of both dies drop the lines that a block's update has written (R62). -/
def dropAliasCode (s : State) (d b : Nat) : State :=
  (aliasLines s d b).foldl (fun s l => dropCodeDie (dropCodeDie s 0 l) 1 l) s

/-- Before an alias write: the host has given up the lines of the block's bytes, and their tags can be told (R367, R457). -/
def aliasFree (s : State) (d b : Nat) : Res Unit :=
  let ls := aliasLines s d b
  (ls.foldl (fun (r : Res Unit) l => r.bind fun _ s => hostFree s l) (Res.ok () s)).bind fun _ s => if ls.all (metaReady s) then .ok () s else .wait s

/-- Writes into a block, which is packed again whole; a block that cannot be decoded keeps its content and is recorded (R62,
R108, R137, R459). The record's words 2 to 4 are those of a store's FLT_MEMUE (R425). Every write of the controller that comes through no
ordinary leaf has C = 0 (R131; log 43). -/
def aliasUpdate (s : State) (d b : Nat) (ws : List (Nat × List Byte)) (pt : Bool) (pc addr : Word) : State :=
  let f := aliasFmt s d
  let ea := aliasElems s d b
  let sc := aliasScale s d b
  let (x, s) := aliasBlock s d b
  if x.good then
    let bytes := ws.foldl (fun bs w => splice bs w.1 w.2) (bf16Bytes (x.codes f))
    let (scale, codes) := mxPack f ((unpackElems 16 32 (bytesToNat bytes)).map fmtB16.decode)
    dropAliasCode (rawWrite (rawWrite s ea false 4 (mxBlockBytes f codes)) sc false 2 (natToBytes 1 scale)) d b
  else faultRecord s 3 (unitWord 5 (x.index ea sc)) (causeWord pt (Trap.at 0x0E (x.src * 4096) 2 addr)) pc addr 0

/-- ALIAS_WRITE_REPACK: bytes written into a block (R108). -/
def aliasWrite (s : State) (d b off : Nat) (bs : List Byte) (pt : Bool) (pc addr : Word) : State :=
  aliasUpdate s d b [(off, bs)] pt pc addr

/-! ### GLOBAL targets -/

/-- Whether a leaf is an alias leaf. -/
def isAlias (leaf : Word) : Bool := wbit leaf 6

/-- Descriptor index of an alias leaf. -/
def aliasDesc (leaf : Word) : Nat := wfld leaf 13 8

/-- Whether the bytes of a block lie in HBM that system software has (R21, R135). -/
def aliasInside (s : State) (d b : Nat) : Bool :=
  decide (aliasElems s d b + mxBytes (aliasFmt s d) ≤ metaBase) && decide (aliasScale s d b < metaBase)

/-- The checks of an access to an alias page (R436, R458). Arrays outside HBM are an access outside the map, which the leaf
names: FLT_XLATE reason 0x04 (R21, R444; log 43). -/
def aliasCheck (s : State) (form : Form) (a : Acc) (t : Trans) (n : Nat) : Option MemFault :=
  let d := aliasDesc t.leaf
  if form = .vmem ∨ form = .atomic then some kindFault
  else if a = .store ∧ (n % 2 ≠ 0 ∨ t.pa % 2 ≠ 0) then some { kindFault with code := 0x07, info := 1 }
  else if !wbit (aliasWord s d 2) 35 || decide (6 ≤ aliasFmt s d) then some (xlate 6 0)
  else if wfld (aliasWord s d 2) 31 0 ≤ (t.pa + n - 1) / 64 then some (xlate 7 0)
  else if !(aliasInside s d (t.pa / 64) && aliasInside s d ((t.pa + n - 1) / 64)) then some (xlate 4 4)
  else none

/-- Whether an atomic is refused at a region: host memory, the Tandem window, the device register space (R436). -/
def atomicRefused (pa : Nat) : Bool := regionOf pa == .host || regionOf pa == .tandem || regionOf pa == .device

/-- A line that a die's L2 holds under the name of an access answers it, whatever the tables say now: the caches are tagged
by virtual address (R122, R129). -/
def remap (s : State) (die pid va : Nat) (t : Trans) : Trans :=
  match (s.l2Of die).find? fun (l : L2Line) => l.pid == pid && l.vln == vlnOf va with
  | some l => if l.pln = t.pa / 128 ∧ !isAlias t.leaf then t else { t with pa := l.pln * 128 + va % 128, leaf := t.leaf &&& ~~~0x40 }
  | none => t

/-- The kind that a GLOBAL access finds with the leaf, in step 6 of R431 (R436, R458). -/
def kindOf (form : Form) (t : Trans) : Option MemFault :=
  if isAlias t.leaf then (if form = .vmem ∨ form = .atomic then some kindFault else none)
  else if form = .atomic ∧ atomicRefused t.pa then some kindFault
  else none

/-- Translation of one GLOBAL access with every check that precedes its performance: kind, the map, alias, permission (R128,
R431, R436, R444, R446, R458). -/
def resolve (s : State) (w : Who) (form : Form) (a : Acc) (va n : Nat) : Except MemFault Trans × State :=
  match translateAny s (dieOf w.core) w.pid va with
  | (.error f, s) => (.error f, s)
  | (.ok t, s) =>
    let bad := (kindOf form t).or ((transHole s t).or (if isAlias t.leaf then aliasCheck s form a t n else none))
    let lack := permLack a t.leaf
    match bad with
    | some f => (.error f, s)
    | none => if lack = 0 then (.ok (remap s (dieOf w.core) w.pid va t), s) else (.error (permFault lack), s)

/-! ### Performing stores (R121, R124, R144, R153, R367, R491) -/

/-- Before a write of `n` bytes from `off` of a line reaches its holders: the back-invalidation of a line that the host caches,
the overflow mask of a line with OVF set, and the bytes that its images need (R156, R367, R457). A write of h9 (`quiet`) asks its
own handler for nothing, and leaves no line in L2 (R157). -/
def writeReady (s : State) (die pid vln pln off n : Nat) (quiet : Bool) : Res Unit :=
  (hostFree s pln).bind fun _ s =>
    (if quiet then
      (if memPlace (pln * 128) == die && (l2Phys s die pln).isNone && !metaReady s pln then .wait s else .ok () s)
     else if dirBusyLine s die pid vln pln then .wait s else collectFree s die pln).bind fun _ s =>
      let s := if imagesReady s die pln off n quiet then s else settleHome s die pln
      if imagesReady s die pln off n quiet then .ok () s else .wait s

/-- A counter notice of a write with no image: uncached writes (R158). -/
def stampNotice (s : State) (die : Nat) : State :=
  let (v, s) := stampNext s die
  sendStamped s die 0 v Images.none false false

/-- A write into the peer's window leaves the Tandem port, after the notices of every write before it, with its stamp (R158,
R161, R377). -/
def sendWindow (s : State) (die off : Nat) (bs : List Byte) : State :=
  let s := drainTo s 3
  let (v, s) := stampNext s die
  sendStamped { s with phys := memWrite s.phys (tandemBase + off) bs, peerOut := s.peerOut ++ [.write off bs v] } die 0 v
    Images.none false false

/-- The deliveries of the write that a die has just stamped are a context's own posted access (R145, R158). -/
def ownFlights (s : State) (w : Who) : State :=
  let die := dieOf w.core
  let n := (s.vec die).getD die 0
  { s with flights := s.flights.map fun d => if d.origin = die ∧ d.stamp.getD die 0 = n then { d with owner := some (w.core, w.slot) } else d }

/-- A GLOBAL write of a core that its die's L2 does not hold under its name is counted (R123, R399). -/
def countMiss (s : State) (core pid va pa : Nat) : State :=
  if l2Hit s (dieOf core) pid (vlnOf va) (pa / 128) 0 0 then s else s.bumpEv core 5 1

/-- A GLOBAL store whose address is translated is performed at its target. `also` are its other bytes of the same alias block;
`pt` and `pc` are those of the store, for a record of R459. -/
def performGlobal (s : State) (w : Who) (va : Nat) (t : Trans) (bs : List Byte) (also : List (Nat × List Byte)) (pt : Bool)
    (pc : Word) : Res Unit :=
  let die := dieOf w.core
  let quiet := w.slot == 9
  let cached (s : State) : Res Unit :=
    (writeReady s die w.pid (vlnOf va) (t.pa / 128) (t.pa % 128) bs.length quiet).bind fun _ s =>
      .ok () (ownFlights (cacheWrite (countMiss s w.core w.pid va t.pa) die (if quiet then none else some (padOf w.core)) quiet w.pid va bs t) w)
  if isAlias t.leaf then
    (aliasFree s (aliasDesc t.leaf) (t.pa / 64)).bind fun _ s =>
      .ok () (stampNotice (aliasUpdate s (aliasDesc t.leaf) (t.pa / 64) ((t.pa % 64, bs) :: also) pt pc (sextW 48 (BitVec.ofNat 64 va))) die)
  else match regionOf t.pa with
    | .device => .ok () s
    | .tandem => .ok () (if s.tandemUp then sendWindow s die (t.pa - tandemBase) bs else discardRecord s 8)
    | .host => if s.hostDown then .ok () (discardRecord s 7) else cached s
    | .hbm => cached s
    | _ => .ok () s

/-- The cause that a posted pad store now breaks (R436, R449, R491). -/
def lateFault (s : State) (w : Who) (form : Form) (key n : Nat) : Option (Nat × Nat) :=
  match padCheck s w (keyHome key) (keyBank key) with
  | some f => some (f.code, f.info)
  | none =>
    let b := s.bank (keyHome key) (keyBank key)
    if b.mode = 3 then
      match form with
      | .scalar => if b.entryBytes = n then none else some (0x07, 3 + b.esize)
      | .tile full => if full && n == 16384 && b.esize == 3 then none else some (0x07, 6)
      | .vmem | .atomic => some (0x09, 0x0400)
    else none

/-- Whether a posted store goes to a bank in FIFO mode (R120). -/
def Posted.isFifo (s : State) (p : Posted) : Bool :=
  match p.dest with
  | .pad k => (s.bank (keyHome k) (keyBank k)).mode == 3
  | _ => false

/-- Whether an entry is a FENCE of a context that holds back its younger stores (`store`), or its younger loads too (R149). -/
def Posted.fences (slot : Nat) (store : Bool) (p : Posted) : Bool :=
  match p.dest with
  | .fence _ full => p.slot == slot && (full || store)
  | _ => false

/-- Whether a posted store goes to an alias page (R137). -/
def Posted.onAlias (p : Posted) : Bool :=
  match p.dest with
  | .glb t => isAlias t.leaf
  | _ => false

/-- The addresses that the records of a discarded store name: one for each pad word that it writes (R491). -/
def Posted.words (p : Posted) : List Word :=
  match p.form with
  | .tile _ => (List.range (p.bytes.length / 8)).map fun i => p.addr + BitVec.ofNat 64 (8 * i)
  | _ => [p.addr]

/-- The stamped writes on their way to the places that a scope covers are applied there, as far as they can be: to the host
and the peer where a device or host address is their target, from paddock scope on (R147; log 10). -/
def settleFlights (s : State) (scope : Nat) : State :=
  let s := if 3 ≤ scope then drainDies s else s
  let s := if 1 ≤ scope then drainTo s 2 else s
  if 4 ≤ scope then drainTo s 3 else s

/-- Whether a stamped write has still to be performed at a scope (R147). -/
def flightsLeft (s : State) (scope : Nat) : Bool :=
  s.flights.any fun d =>
    (decide (d.dst < 2) && decide (3 ≤ scope)) || (d.dst == 2 && decide (1 ≤ scope) && d.line.isSome) || decide (4 ≤ scope)

/-- Whether a place holds back a delivery for a mask that the handler of a core has to return (R156, R157). -/
def ownBlocked (s : State) (core place : Nat) : Bool :=
  s.flights.any fun d => d.dst == place && stampReady s d && match d.line.bind (needsMask s place) with
    | some l => dirCore s place (sliceOf l.pid l.vln) == core
    | none => false

/-- Whether a stamped write has still to be performed at a scope for a context: h9 does not wait for a place that waits for its
own answer (R147, R157; log 31). -/
def scopeLeft (s : State) (core slot scope : Nat) : Bool :=
  if slot = 9 then flightsLeft { s with flights := s.flights.filter fun d => !ownBlocked s core d.dst } scope else flightsLeft s scope

/-- One posted store is performed, or discarded with a TYPE 5 record for each pad word (R491). A store that appends to a queue is
a release at paddock scope (R120, R150), and a FENCE is over once every older write is performed at its scope (R149). -/
def performStore (s : State) (core : Nat) (p : Posted) : Res Unit :=
  let w : Who := ⟨core, p.slot, p.pid⟩
  match p.dest with
  | .glb t => performGlobal s w (va48 p.addr) t p.bytes p.also p.pt p.pc
  | .fence scope _ =>
    let s := settleFlights s scope
    if scopeLeft s core p.slot scope then .wait s else .ok () s
  | .pad key =>
    let home := keyHome key
    let b := keyBank key
    let s := if (s.bank home b).clearing then clearDone s home b else s
    match lateFault s w p.form key p.bytes.length with
    | some (c, i) =>
      .ok () (p.words.foldl (fun s a => faultRecord s 5 p.ctxid (causeWord p.pt (Trap.at c i 2 a)) p.pc a 0) s)
    | none =>
      let x := s.bank home b
      if x.mode = 3 then
        let s := settleFlights s 1
        if flightsLeft s 1 then .wait s else fifoStore s home b (p.bytes.length / x.entryBytes) p.bytes
      else .ok () (padWrite s key p.bytes)

/-- The posted stores of a core become `q`. -/
def setPosted (s : State) (core : Nat) (q : List Posted) : State := s.setCore core { s.core core with posted := q }

/-- Whether two posted writes of a core take one path: to one bank, to one line, or to alias blocks, which the converter takes in
order. A write that waits at its slice holds up only its own line there (R137, R144, R155; log 9). -/
def Posted.samePath (y x : Posted) : Bool :=
  (y.onAlias && x.onAlias) || match y.dest, x.dest with
    | .pad k, .pad j => keyHome k == keyHome j && keyBank k == keyBank j
    | .glb t, .glb u => t.pa / 128 == u.pa / 128
    | _, _ => false

/-- Whether an entry is a FENCE. -/
def Posted.isFence (p : Posted) : Bool :=
  match p.dest with
  | .fence _ _ => true
  | _ => false

/-- Whether a store `x` that waits holds back a younger one `y` of the core: of any context, on the same path, in whose order the
stores left the core; of the same context, before or after a FENCE, or before an append to a queue, which is a release (R72, R120,
R137, R144, R149, R150). A write of h9 waits for its own context alone, since the other may wait for its answer (R157; log 31). -/
def holdsBack (s : State) (y x : Posted) : Bool :=
  ((y.slot == x.slot || y.slot != 9) && y.samePath x) ||
    (y.slot == x.slot && (y.isFifo s || y.isFence || x.isFence))

/-- The posted stores of a list that satisfy `p` are performed in order; those that wait are passed over, and `kept` are the
ones that stay, newest first (R120, R155). -/
def drainList (core : Nat) (p : Posted → Bool) : List Posted → List Posted → State → State
  | [], kept, s => setPosted s core kept.reverse
  | x :: xs, kept, s =>
    if p x && !kept.any (holdsBack s · x) then
      match performStore s core x with
      | .ok _ s => drainList core p xs kept s
      | .flt _ s => drainList core p xs (x :: kept) s
      | .wait s => drainList core p xs (x :: kept) s
    else drainList core p xs (x :: kept) s

/-- The posted stores of a core that satisfy `p` or `must` are performed, with those of any context that left the core before one of
them on its path, and before an append to a queue, or about a FENCE, its context's others; it waits while one that satisfies `must`
is left (R120, R144, R149, R150; log 9). -/
def drainFor (s : State) (core : Nat) (p must : Posted → Bool) : Res Unit :=
  let q := (s.core core).posted
  let due := q.filter fun x => p x || must x
  if due.isEmpty then .ok () s
  else
    let whole := (due.filter fun x => x.isFifo s || q.any (Posted.fences x.slot true)).map (·.slot)
    let first := q.filter fun x => p x || must x || whole.contains x.slot
    let s := drainList core (fun x => p x || must x || whole.contains x.slot || first.any (Posted.samePath · x)) q [] s
    if (s.core core).posted.any must then .wait s else .ok () s

/-- The posted stores of a core that satisfy `p` are performed, every one of them (log 9). -/
def drain (s : State) (core : Nat) (p : Posted → Bool) : Res Unit := drainFor s core p p

/-- Whether a posted store goes to a physical line and comes before an access to it by a context of its core: one of any context
travels the same path before it; h9 waits for its own alone (R144, R147, R149, R157). -/
def Posted.toLine (slot pln : Nat) (p : Posted) : Bool :=
  match p.dest with
  | .glb t => (p.slot == slot || slot != 9) && t.pa / 128 == pln
  | _ => false

/-- Whether a posted store goes to an L2 slice by its name, or to an uncached target (R124, R144). -/
def Posted.toSlice (pid va : Nat) (p : Posted) : Bool :=
  match p.dest with
  | .pad _ | .fence _ _ => false
  | .glb t => (p.pid == pid && sliceOf p.pid (vlnOf (va48 p.addr)) == sliceOf pid (vlnOf va)) ||
      isAlias t.leaf || regionOf t.pa == .tandem || regionOf t.pa == .device

/-- Whether a posted store counts in PADCNT (R145). -/
def Posted.isPad (p : Posted) : Bool :=
  match p.dest with
  | .pad _ => true
  | _ => false

/-- Whether a posted store counts in GLBCNT (R145). -/
def Posted.isGlb (p : Posted) : Bool :=
  match p.dest with
  | .glb _ => true
  | _ => false

/-- Every older write is performed at a scope: every posted store of the core that need not wait, those of the moving context
among them, and every stamped write at the places the scope covers (R147, R148; logs 9, 10). h9 does not wait for a place that
waits for h9's own answer (R157; log 31). -/
def settleScope (s : State) (core scope : Nat) : Res Unit :=
  (drainFor s core (fun _ => true) fun p => p.slot == s.curSlot || core != s.curCore).bind fun _ s =>
    let s := settleFlights s scope
    if scopeLeft s s.curCore s.curSlot scope then .wait s else .ok () s

/-- The wait of R146: the older accesses of the context in the named classes are performed, GLOBAL ones at die scope. -/
def settleWait (s : State) (w : Who) (wait : Nat) : Res Unit :=
  (drain s w.core fun p => p.slot == w.slot && ((wait % 2 == 1 && p.isPad) || (decide (2 ≤ wait) && p.isGlb))).bind fun _ s =>
    let s := if 2 ≤ wait then settleFlights s 2 else s
    if 2 ≤ wait ∧ flightsLeft s 2 then .wait s else .ok () s

/-! ### Loads -/

/-- What an access that is not to be tried again leaves, changed. -/
def Res.tap {α : Type} (r : Res α) (f : State → State) : Res α :=
  match r with
  | .ok a s => .ok a (f s)
  | .flt e s => .flt e (f s)
  | .wait s => .wait s

/-- A request of a core for a cacheable line that missed L2, counted once it is served (R399). -/
def countedMiss {α : Type} (missed : Bool) (core : Nat) (r : Res α) : Res α :=
  r.tap fun t => if missed then t.bumpEv core 5 1 else t

/-- A load from a translated GLOBAL address (R121 to R124, R137, R157, R161, R379, R482). -/
def loadGlobal (s : State) (w : Who) (va n : Nat) (t : Trans) : Res (List Byte) :=
  let cached : Res (List Byte) :=
    let die := dieOf w.core
    let pad := padOf w.core
    let quiet := w.slot == 9
    countedMiss (readMisses s die pad w.pid va n (t.pa / 128) quiet) w.core (cacheRead s die pad w.pid va n t quiet)
  if isAlias t.leaf then aliasRead s (aliasDesc t.leaf) (t.pa / 64) (t.pa % 64) n
  else match regionOf t.pa with
    | .device =>
      let (bs, s) := devRead s (t.pa - devBase) n
      .ok bs s
    | .tandem => if s.tandemUp then .ok (memRead s.phys t.pa n) s else .flt (linkFault 2) s
    | .host => if s.hostDown then .flt (linkFault 1) s else cached
    | _ => cached

/-- Before a GLOBAL load, the core's stores on the same path are performed; it waits for those to its line, whichever name they
used, and for a FULL FENCE that the context has passed. So a load by another name of a byte never passes its context's older store,
after any FENCE or none (R144, R147, R149). -/
def drainSlice (s : State) (w : Who) (va : Nat) (t : Trans) : Res Unit :=
  drainFor s w.core (fun p => p.toSlice w.pid va || p.fences w.slot false) fun p => p.toLine w.slot (t.pa / 128) || p.fences w.slot false

/-- Whether a pad access waits for a posted store: one to its bank, at a queue one of the same context, since another may wait
there for the access, and a FENCE that the context has passed and that holds the access back (R72, R120, R144, R149). -/
def Posted.before (s : State) (w : Who) (home b : Nat) (store : Bool) (p : Posted) : Bool :=
  match p.dest with
  | .fence _ _ => p.fences w.slot store
  | _ => p.toBank home b && ((s.bank home b).mode != 3 || p.slot == w.slot)

/-- Before a pad access, the core's posted stores to its bank are performed, as far as a queue lets them, and it waits for those that
come before it (R72, R120, R144, R149). -/
def drainBank (s : State) (w : Who) (home b : Nat) (store : Bool) : Res Unit :=
  drainFor s w.core (·.toBank home b) (Posted.before s w home b store)

/-- One load within one piece, after step 6 of R431: the bytes, a fault of step 7, or a wait. A FIFO load removes the
entries its bytes fill (R120). -/
def loadPiece (s : State) (w : Who) (form : Form) (space csel : Nat) (a : Word) (n : Nat) : Res (List Byte) :=
  if space < 2 then
    let key := padOfAddr w.core space csel a
    let home := keyHome key
    let b := keyBank key
    let s := settleBank s w.core home b
    match padCheck s w home b with
    | some f => .flt f s
    | none =>
      (drainBank s w home b false).bind fun _ s =>
        let x := s.bank home b
        if x.mode = 3 then fifoLoad s home b w.core w.slot (n / x.entryBytes)
        else match padRead s key n with
          | .ok bs => .ok bs s
          | .error f => .flt f s
  else
    let va := va48 a
    (Res.of (resolve s w form .load va n)).bind fun t s =>
      (drainSlice s w va t).bind fun _ s => loadGlobal s w va n t

/-- A load of `n` bytes, piece by piece in increasing address. -/
def loadRange (s : State) (w : Who) (form : Form) (space csel : Nat) (a : Word) : Nat → Nat → Res (List Byte)
  | 0, _ => .ok [] s
  | _, 0 => .ok [] s
  | k + 1, n =>
    let m := min n (pieceLen space csel a.toNat)
    match loadPiece s w form space csel a m with
    | .ok bs s =>
      match loadRange s w form space csel (a + BitVec.ofNat 64 m) k (n - m) with
      | .ok cs s => .ok (bs ++ cs) s
      | .flt f s => .flt { f with off := f.off + m } s
      | .wait s => .wait s
    | .flt f s => .flt f s
    | .wait s => .wait s

/-! ### Stores -/

/-- Where a store of one piece goes, with every check that precedes its retirement (R446, R491). -/
def storePlace (s : State) (w : Who) (form : Form) (space csel : Nat) (a : Word) (n : Nat) : Except MemFault Dest × State :=
  if space < 2 then
    let key := padOfAddr w.core space csel a
    let s := settleBank s w.core (keyHome key) (keyBank key)
    match padCheck s w (keyHome key) (keyBank key) with
    | some f => (.error f, s)
    | none => (.ok (.pad key), s)
  else
    match resolve s w form .store (va48 a) n with
    | (.ok t, s) => (.ok (.glb t), s)
    | (.error f, s) => (.error f, s)

/-- A piece of a store on its way: form, address, bytes, place, and the other bytes of an alias block that it writes. -/
structure Piece where
  form : Form
  addr : Word
  bytes : List Byte
  dest : Dest
  also : List (Nat × List Byte)
  deriving DecidableEq, Repr

/-- The alias block that a piece goes to. -/
def Piece.block (p : Piece) : Option (Nat × Nat) :=
  match p.dest with
  | .glb t => if isAlias t.leaf then some (aliasDesc t.leaf, t.pa / 64) else none
  | _ => none

/-- The byte of its alias block at which a piece begins. -/
def Piece.blockOff (p : Piece) : Nat :=
  match p.dest with
  | .glb t => t.pa % 64
  | _ => 0

/-- A block among others, in rising order, each once. -/
def insertBlock (b : Nat × Nat) : List (Nat × Nat) → List (Nat × Nat)
  | [] => [b]
  | c :: cs =>
    if b = c then c :: cs
    else if b.1 < c.1 ∨ (b.1 = c.1 ∧ b.2 < c.2) then b :: c :: cs
    else c :: insertBlock b cs

/-- The alias blocks that some pieces go to, in rising order (R137). -/
def blocksOf (ps : List Piece) : List (Nat × Nat) := (ps.filterMap Piece.block).foldl (fun bs b => insertBlock b bs) []

/-- The pieces that go to one alias block are one write of it (R108, R137, R142). -/
def mergeBlock (ps : List Piece) (b : Nat × Nat) : Option Piece :=
  match ps.filter fun p => p.block == some b with
  | [] => none
  | p :: qs => some { p with also := qs.map fun q => (q.blockOff, q.bytes) }

/-- The pieces of a store, those of each alias block made one, blocks in rising order (R108, R137, R142, R265). -/
def mergeBlocks (ps : List Piece) : List Piece :=
  (ps.filter fun p => p.block.isNone) ++ (blocksOf ps).filterMap (mergeBlock ps)

/-- The pieces of a store of `bs` at an address, each checked (R446, R491). -/
def storePieces (s : State) (w : Who) (form : Form) (space csel : Nat) (a : Word) :
    Nat → Nat → List Byte → Except MemFault (List Piece) × State
  | 0, _, _ => (.ok [], s)
  | _, _, [] => (.ok [], s)
  | k + 1, off, bs =>
    let m := min bs.length (pieceLen space csel a.toNat)
    match storePlace s w form space csel a m with
    | (.error f, s) => (.error { f with off := off + f.off }, s)
    | (.ok d, s) =>
      match storePieces s w form space csel (a + BitVec.ofNat 64 m) k (off + m) (bs.drop m) with
      | (.ok ps, s) => (.ok ({ form := form, addr := a, bytes := bs.take m, dest := d, also := [] } :: ps), s)
      | r => r

/-- The posted store of a piece. -/
def Piece.posted (p : Piece) (w : Who) (pt : Bool) (ctxid pc : Word) (space born : Nat) : Posted :=
  { slot := w.slot, pt := pt, form := p.form, born := born, ctxid := ctxid, pid := w.pid, pc := pc, space := space, addr := p.addr, bytes := p.bytes, dest := p.dest, also := p.also }

/-- A checked piece is performed at once: LOCAL stores (R143), engines. -/
def performPiece (s : State) (w : Who) (pt : Bool) (ctxid pc : Word) (space : Nat) (p : Piece) : Res Unit :=
  performStore s w.core (p.posted w pt ctxid pc space s.tick)

/-- Whether a piece is performed at once when it leaves: a LOCAL one, but to a queue, where it may have to wait, or after a FENCE
that its context has passed (R120, R143, R149). -/
def Piece.now (s : State) (w : Who) (space : Nat) (p : Piece) : Bool :=
  space == 0 && !(s.core w.core).posted.any (Posted.fences w.slot true) && match p.dest with
    | .pad k => (s.bank (keyHome k) (keyBank k)).mode != 3
    | _ => true

/-- Checked pieces of a context's store leave the core: LOCAL pieces are performed in program order at once, after the
core's posted stores to the same bank; the others are posted, and the core's own copies of code of the line go (R62, R120,
R143, R144). -/
def sendPieces (s : State) (w : Who) (ctxid pc : Word) (space : Nat) : List Piece → Res Unit
  | [] => .ok () s
  | p :: ps =>
    let pt := (s.ctx w.core w.slot).tv.isSome
    if p.now s w space then
      (match p.dest with
        | .pad k => drainBank s w (keyHome k) (keyBank k) true
        | _ => .ok () s).bind fun _ s =>
      (performPiece s w pt ctxid pc space p).bind fun _ s => sendPieces s w ctxid pc space ps
    else
      let k := match p.dest with
        | .glb t => dropCode (s.core w.core) (t.pa / 128)
        | _ => s.core w.core
      sendPieces (s.setCore w.core { k with posted := k.posted ++ [p.posted w pt ctxid pc space s.tick] }) w ctxid pc space ps

/-- Before a piece of an engine's write, what left the core before it on its path is performed (R144). -/
def clearPath (s : State) (w : Who) (p : Piece) : Res Unit :=
  match p.dest with
  | .pad k => drainBank s w (keyHome k) (keyBank k) true
  | .glb t =>
    let before (x : Posted) : Bool := x.toLine w.slot (t.pa / 128) || (isAlias t.leaf && x.onAlias)
    drainFor s w.core before before
  | .fence _ _ => .ok () s

/-- A store of an engine, performed at once, piece by piece. -/
def engineStore (s : State) (w : Who) (ctxid pc : Word) (space csel : Nat) (a : Word) (bs : List Byte) : Res Unit :=
  match storePieces s w .scalar space csel a (bs.length + 1) 0 bs with
  | (.error f, s) => .fault f s
  | (.ok ps, s) => ps.foldl (fun r p => r.bind fun _ s => (clearPath s w p).bind fun _ s => performPiece s w false ctxid pc space p) (.ok () s)

/-! ### Atomics (R154, R160, R221) -/

/-- An atomic on a pad word. -/
def padAtomic (s : State) (w : Who) (space csel : Nat) (a : Word) (n : Nat) (f : Nat → Option Nat) : Res Nat :=
  let key := padOfAddr w.core space csel a
  let home := keyHome key
  let b := keyBank key
  let s := settleBank s w.core home b
  match padCheck s w home b with
  | some e => .flt e s
  | none =>
    (drainBank s w home b true).bind fun _ s =>
      match padRead s key n with
      | .error e => .flt e s
      | .ok bs =>
        let old := bytesToNat bs
        .ok old (match f old with
          | some v => padWrite s key (natToBytes n v)
          | none => s)

/-- The bytes that an atomic of a line's memory die reads: h9 takes them past L2 (R157). -/
def atomicRead (s : State) (md pid va n : Nat) (t : Trans) (quiet : Bool) : Res (List Byte) :=
  if quiet then cacheRead s md 0 pid va n t true else l2Read s md pid (vlnOf va) (t.pa / 128) (va % 128) n (wbit t.leaf 5)

/-- An atomic of a core at a translated HBM address, performed at the home slice on the line's memory die with every stamped write
between the dies delivered (R160, log 10); both dies' copies of the line can take its write. One that writes nothing gives back the
overflow mask (R156). `quiet` is h9's way (R157). -/
def hbmAtomic (s : State) (core pid va n : Nat) (t : Trans) (quiet : Bool) (f : Nat → Option Nat) : Res Nat :=
  let md := memPlace t.pa
  let pln := t.pa / 128
  let s := drainDies s
  (writeReady s md pid (vlnOf va) pln (t.pa % 128) n quiet).bind fun _ s =>
    (if quiet then .ok () s else collectFree s (1 - md) pln).bind fun _ s =>
      if !quiet ∧ s.flights.any (fun d => decide (d.dst < 2)) then .wait s
      else
        (countedMiss (!l2Hit s md pid (vlnOf va) pln (va % 128) n) core (atomicRead s md pid va n t quiet)).bind fun bs s =>
          let old := bytesToNat bs
          .ok old (match f old with
            | some v => drainDies (cacheWrite s md none quiet pid va (natToBytes n v) t)
            | none => (takeMask (takeMask s md pln).2 (1 - md) pln).2)

/-- An atomic of `n` bytes, after step 6 of R431; `f` gives the value it writes, if it writes. Every older store of its context
has been performed before it, and every store to its line that left the core before it (R74, R144, log 9). -/
def atomicAt (s : State) (w : Who) (space csel : Nat) (a : Word) (n : Nat) (f : Nat → Option Nat) : Res Nat :=
  if space < 2 then padAtomic s w space csel a n f
  else
    (Res.of (resolve s w .atomic .atomic (va48 a) n)).bind fun t s =>
      (drainFor s w.core (fun _ => true) fun p => p.slot == w.slot || p.toLine w.slot (t.pa / 128)).bind fun _ s =>
        hbmAtomic s w.core w.pid (va48 a) n t (w.slot == 9) f

end Sys2Proof.Machine
end

