-- ==== Sys2Proof/Machine/Groups.lean ====
section
/-! DEFINITION. Launch groups: rein lines, completion cells, the end of a context, spill quotas and the stop of a group
(R38, R47, R56, R57, R331 to R334, R421, R463 to R466, R476, R493). -/

namespace Sys2Proof.Machine

/-- Whether a context is LIVE, WAITING or PARKED (R476). -/
def Ctx.held? (c : Ctx) : Bool := c.st == .live || c.st == .waiting || c.st == .parked

/-- The contexts of a core that belong to launch groups, parked helpers included; h9 serves the device (R57, R156). -/
def Core.contexts (k : Core) : List Ctx := k.ctl :: k.hs.toList.take 9 ++ k.parked

/-- Whether the box holds a context of a group (R476). -/
def groupAlive (s : State) (pid group : Nat) : Bool :=
  s.saved.any (fun x => x.pid == pid && (x.groups.contains group || x.parked.any (·.group == group))) ||
    s.cores.toList.any fun k => k.pid == pid && k.contexts.any fun c => c.held? && c.group == group

/-- A rein line is raised; a raise while no context of the group is held has no effect (R476). -/
def raiseRein (s : State) (pid group : Nat) : State :=
  if groupAlive s pid group && !s.reins.contains (pid, group) then { s with reins := (pid, group) :: s.reins } else s

/-- REIN_LINE_LOWER: lines of groups of which no context is held are lowered, and their stops end (R57, R476). -/
def lowerReins (s : State) : State :=
  { s with reins := s.reins.filter fun x => groupAlive s x.1 x.2,
           stoppedGroups := s.stoppedGroups.filter fun x => groupAlive s x.1 x.2.1 }

/-- A raise that the peer is told (R56, R377). -/
def tellPeer (s : State) (pid group : Nat) : State :=
  if s.tandemUp then { s with peerOut := s.peerOut ++ [.rein pid group] } else s

/-- The release of the device itself for something that has ended: the posted stores of a core are performed, as many as can be, and
it waits while one of `slots` is left, or a stamped write at the places that the scope covers (R147, R148; log 31). -/
def released (s : State) (core : Nat) (slots : List Nat) (scope : Nat) : Res Unit :=
  (drainFor s core (fun _ => true) fun p => slots.contains p.slot).bind fun _ s =>
    let s := settleFlights s scope
    if flightsLeft s scope then .wait s else .ok () s

/-- A cell's add is dropped, and recorded (R426, R493). -/
def dropDec (s : State) (id a : Word) (t : Trap) : State := faultRecord (ueRecord s false t 0) 0 id (causeWord false t) 0 a 0

/-- An atomic add of −1 to a cell; an add that the cell cannot take is dropped and recorded (R493). It waits while the line
does (R155, R156, R457). -/
def decTry (s : State) (core pid : Nat) (id a : Word) : Res Unit :=
  match check6 s ⟨core, 16, pid⟩ .atomic 2 0 a 8 3 3 with
  | some t => .ok () (dropDec s id a t)
  | none =>
    match resolve s ⟨core, 16, pid⟩ .atomic .atomic (va48 a) 8 with
    | (.error f, s) => if f.code = 0 then .wait s else .ok () (dropDec s id a (f.trap 3 a))
    | (.ok t, s) =>
      match hbmAtomic s core pid (va48 a) 8 t false fun old => some ((old + 2 ^ 64 - 1) % 2 ^ 64) with
      | .ok _ s => .ok () s
      | .flt f s => .ok () (dropDec s id a (f.trap 3 a))
      | .wait s => .wait s

/-- The decrement of a cell is made with its release, or waits among the device's own writes (R38, R47, R421, R493). -/
def decCell (s : State) (core pid : Nat) (slots : List Nat) (scope : Nat) (id a : Word) : State :=
  match (released s core slots scope).bind fun _ s => decTry s core pid id a with
  | .ok _ s => s
  | .flt _ s => s
  | .wait s => { s with devQ := s.devQ ++ [.dec core pid slots scope id a] }

/-- A group's rein line is raised with the release of R56, or the raise waits among the device's own writes (R56, R421, R466). -/
def reinLine (s : State) (core : Nat) (slots : List Nat) (pid group : Nat) : State :=
  match released s core slots 4 with
  | .ok _ s => tellPeer (raiseRein s pid group) pid group
  | .flt _ s => s
  | .wait s => { s with devQ := s.devQ ++ [.rein core slots pid group] }

/-- One write of the device itself that waits, other than plain bytes, is tried again. -/
def devTry (s : State) : DevOp → State
  | .write pa bs => { s with devQ := s.devQ ++ [.write pa bs] }
  | .dec core pid slots scope id a => decCell s core pid slots scope id a
  | .rein core slots pid group => reinLine s core slots pid group
  | .unit cls idx src => unitRecord s cls idx src

/-- The device's own writes that wait are tried again (R155, R156, R457). -/
def devRun (s : State) : State :=
  let s := devWrites s.devQ { s with devQ := [] }
  (s.devQ.filter fun d => !d.isWrite).foldl devTry { s with devQ := s.devQ.filter DevOp.isWrite }

/-- Scope of a stealing domain (R49). -/
def domainScope (d : Nat) : Nat := d % 4

/-- The decrement the end of a process's context performs: of a DONE cell with release at system scope, of a join cell at the domain's;
`slots` are those in which the context stored (R38, R47). -/
def endCellOf (s : State) (core pid slot : Nat) (slots : List Nat) (c : Ctx) : State :=
  if c.cell = 0 then s
  else decCell s core pid slots (if c.cellDone then 4 else domainScope c.domain) (ctxidWord c.group c.vcore core pid slot) c.cell

/-- The decrement that the end of a context of a core performs. -/
def endCell (s : State) (core slot : Nat) (c : Ctx) : State := endCellOf s core (s.core core).pid slot [slot] c

/-- The registers of a context that has ended: IDLE, its transfers, windows and inline code gone (R311, R421). -/
def Ctx.ended (c : Ctx) : Ctx :=
  { c with st := .idle, tv := none, held := none, pend := [], inHandler := false, code := [], wait := .none, given := none,
           stall := none, cell := 0 }

/-- A core whose control context has ended: its tiles are dead (R311, R421). -/
def Core.tilesDead (k : Core) : Core := { k with tiles := Vector.replicate 16 none }

/-- CTLSTAT and CTLRES (R472). -/
def ctlWord (feature pid op cause reason status : Nat) : Word :=
  BitVec.ofNat 64 (put (feature % 256) 48 + put (pid % 64) 42 + put (op % 4) 40 + put (cause % 256) 8 +
    put (reason % 16) 4 + status % 16)

/-- OP of R472 for a pre-emption. -/
def PreWhy.op : PreWhy → Nat
  | .request => 1
  | _ => 3

/-- The pre-emption of a core whose control context has ended is discarded (R335). -/
def dropPreempt (k : Core) : Core :=
  match k.preempt with
  | some p => { k with preempt := none, ctlStat := ctlWord 0 k.pid p.why.op 0 0 3 }
  | none => k

/-- Whether a context of a core other than h9 runs a trap handler (R335). -/
def inHandlers (k : Core) : Bool := k.ctl.inHandler || (k.hs.toList.take 9).any (·.inHandler)

/-- The accesses of a core that have issued and wait on a queue: slot and PC (R336). -/
def issuedNow (k : Core) : List (Nat × Word) :=
  ([15, 0, 1, 2, 3, 4, 5, 6, 7, 8].filter fun i => (k.ctx i).stall.isSome).map fun i => (i, (k.ctx i).pc)

/-- A held pre-emption begins once no handler runs (R335). -/
def releasePreempt (k : Core) (tick : Nat) : Core :=
  match k.preempt with
  | some p =>
    if p.held && !inHandlers k then
      { k with preempt := some { p with held := false, start := tick, expired := false, issued := issuedNow k } }
    else k
  | none => k

/-- A context of a slot ends: IDLE, tiles dead, off every queue. -/
def endSlot (s : State) (core slot : Nat) : State :=
  let s := match (s.ctx core slot).stall with
    | some b => fifoLeave s (b / 16) (b % 16) core slot
    | none => s
  let s := s.setCtx core slot (s.ctx core slot).ended
  lowerReins (s.setCore core (if slot = 15 then dropPreempt (s.core core).tilesDead else releasePreempt (s.core core) s.tick))

/-- The slices an h9 serves go to broadcast mode, and its request ends as if answered with every sharer (R463). -/
def dirBroadcast (s : State) (core : Nat) : State :=
  let k := s.core core
  let s := match k.dirReq with
    | some r =>
      match (s.l2Of r.die).find? fun (l : L2Line) => l.pid == r.pid && l.vln == r.vln with
      | some l =>
        let s := l2Upd s r.die l.pln fun x => { x with ovf := true }
        if r.reason = 1 then { s with collected := (r.die, l.pln, 0xFF) :: s.collected } else s
      | none => s
    | none => s
  s.setCore core { s.core core with dirReq := none, dirQ := [], bcast := true }

/-- CONTEXT_END_BY_FAULT: cell decremented, rein line raised, a TYPE 0 record, the context IDLE (R421, R463). `cause` is
TRAPCAUSE as the trap would write it. -/
def endByFault (s : State) (core slot : Nat) (cause pc addr : Word) : State :=
  let c := s.ctx core slot
  let id := s.ctxid core slot
  let served := if c.inHandler then c.trapCause else 0
  if slot = 9 then
    endSlot (dirBroadcast (contextRecord s id cause pc addr served) core) core 9
  else
    let s := endCell s core slot c
    let s := reinLine s core [slot] (s.core core).pid c.group
    endSlot (contextRecord s id cause pc addr served) core slot

/-! ### Spill quotas (R331 to R334, R464) -/

/-- Address of a PID's spill control block (R332). -/
def spillBlock (s : State) (pid : Nat) : Nat := wfld s.spillQ 45 12 * 4096 + pid * 64

/-- Whether spilling is enabled for a PID (R331, R332). -/
def spillOn (s : State) (pid : Nat) : Bool := wbit s.spillQ 63 && wbit (physWord s (spillBlock s pid)) 63

/-- USED of a PID, as the block holds it, also where software wrote it (R332; log 45). -/
def spillUsed (s : State) (pid : Nat) : Nat := wfld (physWord s (spillBlock s pid + 16)) 31 0

/-- PEAK of a PID: the greatest USED since its block was last written, USED itself just after (R332; log 44). -/
def spillPeak (s : State) (pid : Nat) : Nat :=
  if s.spillWrote.contains pid then spillUsed s pid else wfld (physWord s (spillBlock s pid + 16)) 63 32

/-- USED, and PEAK with it, of a PID. -/
def setUsed (s : State) (pid n : Nat) : State :=
  let s := devStoreAll s (spillBlock s pid + 16) 8 (natToBytes 8 (put (max n (spillPeak s pid)) 32 + n % 2 ^ 32))
  { s with spillWrote := s.spillWrote.filter (· != pid) }

/-- PEAK starts again in the valid blocks that were written (R332). -/
def spillRestart (s : State) : State :=
  { s.spillWrote.foldl (fun s p => if spillOn s p then setUsed s p (spillUsed s p) else s) s with spillWrote := [] }

/-- The words of a PID's block are read (R426). -/
def spillNote (s : State) (pid : Nat) : State :=
  if wbit s.spillQ 63 then physNote s (spillBlock s pid) 24 else s

/-- A spill takes units of a PID's quota, or breaches it: INFO[4] of R464 (R334). -/
def spillTake (s : State) (pid n : Nat) : Except Nat State :=
  if !spillOn s pid then .error 16
  else
    let used := spillUsed s pid + n
    if wfld (physWord s (spillBlock s pid + 8)) 63 32 < used then .error 0 else .ok (setUsed (spillNote s pid) pid used)

/-- Units returned to USED. -/
def spillGive (s : State) (pid n : Nat) : State := if n = 0 then s else setUsed (spillNote s pid) pid (spillUsed s pid - n)

/-- Units of a message: its flits (R50, R333). -/
def Msg.units (m : Msg) : Nat := if m.kind = 2 then 1 + (m.code.length + 15) / 16 else 1

/-! ### Stopping a group (R465, R466) -/

/-- Whether a group is stopped (R466). -/
def groupStopped (s : State) (pid group : Nat) : Bool := s.stoppedGroups.any fun x => x.1 == pid && x.2.1 == group

/-- INFO of the breach that stopped a group. -/
def stopInfo (s : State) (pid group : Nat) : Nat :=
  match s.stoppedGroups.find? fun x => x.1 == pid && x.2.1 == group with
  | some x => x.2.2
  | none => 0

/-- The decrements that a discarded task owes (R465, R466). -/
def dropTask (s : State) (core : Nat) (t : Task) : State :=
  if t.join = 0 then s
  else decCell s core t.pid [] (domainScope t.domain) (entryId t.group t.vcore core t.pid) t.join

/-- The decrement that a discarded launch owes (R465, R466, R486). -/
def dropLaunch (s : State) (core : Nat) (l : Launch) : State :=
  if l.done = 0 then s else decCell s core l.pid [] 4 (entryId l.group l.vcore core l.pid) l.done

/-- The entries of a group leave the queues of a core and its spilled queues, their units returned (R466). -/
def purgeCore (s : State) (core pid g : Nat) : State :=
  let k := s.core core
  let mt (t : Task) : Bool := t.pid == pid && t.group == g
  let ml (l : Launch) : Bool := l.pid == pid && l.group == g
  let mm (m : Msg) : Bool := m.pid == pid && m.group == g
  let units := (k.spTasks.filter mt).length + (k.spLaunch.filter ml).length + (k.spBacklog.filter mm).length +
    ((k.spInbox.filter mm).map Msg.units).sum
  let s' := s.setCore core
    { k with deque := k.deque.filter fun t => !mt t, spTasks := k.spTasks.filter fun t => !mt t,
             inbox := k.inbox.filter fun m => !mm m, spInbox := k.spInbox.filter fun m => !mm m,
             backlog := k.backlog.filter fun m => !mm m, spBacklog := k.spBacklog.filter fun m => !mm m,
             launchQ := k.launchQ.filter fun l => !ml l, spLaunch := k.spLaunch.filter fun l => !ml l }
  let s' := ((k.deque ++ k.spTasks).filter mt).foldl (fun s t => dropTask s core t) s'
  let s' := ((k.launchQ ++ k.spLaunch).filter ml).foldl (fun s l => dropLaunch s core l) s'
  spillGive s' pid units

/-- The cause that ends a context of a stopped group (R416, R466). -/
def quotaCause (c : Ctx) (info : Nat) : Word := causeWord c.tv.isSome (Trap.plain 0x0B info)

/-- A parked helper of a process, which may have stored in any slot, ends by fault; one that runs its trap handler names the cause that it served (R425, R466). -/
def endParked (core pid info : Nat) (s : State) (c : Ctx) : State :=
  let s := endCellOf s core pid 14 (List.range 10) c
  contextRecord (spillGive s pid 256) (ctxidWord c.group c.vcore core pid 14) (quotaCause c info) c.pc 0 (if c.inHandler then c.trapCause else 0)

/-- The waiting contexts and the parked helpers of a group on a core end by fault (R466). -/
def endWaiting (s : State) (core pid g info : Nat) : State :=
  if (s.core core).pid ≠ pid then s
  else
    let gone := (s.core core).parked.filter (·.group == g)
    let s := s.setCore core { s.core core with parked := (s.core core).parked.filter (·.group != g) }
    let s := gone.foldl (endParked core pid info) s
    ([15, 0, 1, 2, 3, 4, 5, 6, 7, 8].filter fun i => (s.ctx core i).st == .waiting && (s.ctx core i).group == g).foldl
      (fun s i => endByFault s core i (quotaCause (s.ctx core i) info) (s.ctx core i).pc 0) s

/-- Messages diverted for the SAVED contexts of a PID leave with the group, their units returned, and parked helpers of the group
end by fault (R339, R466). -/
def purgeSaved (s : State) (pid g info : Nat) : State :=
  let mm (m : Msg) : Bool := m.pid == pid && m.group == g
  let mine := s.saved.filter (·.pid == pid)
  let units := (s.saved.map fun x => ((x.diverted.filter mm).map Msg.units).sum).sum
  let kept (x : Saved) : Saved :=
    { x with diverted := x.diverted.filter fun m => !mm m,
             parked := if x.pid = pid then x.parked.filter (·.group != g) else x.parked }
  mine.foldl (fun s x => (x.parked.filter (·.group == g)).foldl (endParked x.core pid info) s)
    (spillGive { s with saved := s.saved.map kept } pid units)

/-- GROUP_STOP: the group's line is raised, its queued entries are discarded, its waiting contexts end (R466). -/
def stopGroup (s : State) (core pid g info : Nat) : State :=
  if groupStopped s pid g then s
  else
    let s := reinLine s core [] pid g
    let s := { s with stoppedGroups := (pid, g, info) :: s.stoppedGroups }
    let s := purgeSaved ((List.range 96).foldl (fun s c => purgeCore s c pid g) s) pid g info
    lowerReins ((List.range 96).foldl (fun s c => endWaiting s c pid g info) s)

/-- A breach by an entry that arrives from elsewhere: its record, then the stop of its group (R465). `queue` is QUEUE and
`off` OFF of R464. -/
def breach (s : State) (core pid group vcore queue off : Nat) : State :=
  stopGroup (entryRecord s (entryId group vcore core pid) 0x0B (off + queue) 0) core pid group (off + queue)

end Sys2Proof.Machine
end

