-- ==== Sys2Proof/Machine/Ops.lean ====
section
/-! DEFINITION. The operations that every meaning is written with: registers and latches, lookahead windows, retirement and
transfers, the checks of context and position, the trap path and the return from a trap (R8, R31, R75, R76, R79, R185,
R213, R316, R319, R416 to R421, R431 to R435). -/

namespace Sys2Proof.Machine

/-! ### Registers -/

/-- Scalar register `n`: s0 reads as zero (R8). -/
def Ctx.sreg (c : Ctx) (n : Nat) : Word := if n = 0 then 0 else vget c.s n 0

/-- Scalar register `n` becomes `w`; a write of s0 is discarded (R8). -/
def Ctx.setS (c : Ctx) (n : Nat) (w : Word) : Ctx :=
  if n = 0 then c else { c with s := c.s.setIfInBounds n w, sw := c.sw.setIfInBounds n c.now }

/-- A source field that a latch serves: a register, la (0x30) or lb (0x31) (R79). -/
def Ctx.src (c : Ctx) (n : Nat) : Word := if n = 0x30 then c.la else if n = 0x31 then c.lb else c.sreg n

/-- The latches after an instruction that reads field a as `x` and field b as `y`: a field that names a register loads
its latch, one that names a latch leaves it (R79). -/
def Ctx.latched (c : Ctx) (x y : Option Nat) : Ctx :=
  let ld (f : Option Nat) (old : Word) : Word :=
    match f with
    | some n => if n = 0x30 ∨ n = 0x31 then old else c.sreg n
    | none => old
  { c with la := ld x c.la, lb := ld y c.lb }

/-- Run vector `n`. -/
def Ctx.vreg (c : Ctx) (n : Nat) : List Run := vget c.v n []

/-- Run vector `n` becomes `r`. -/
def Ctx.setV (c : Ctx) (n : Nat) (r : List Run) : Ctx := { c with v := c.v.setIfInBounds n r, vw := c.vw.setIfInBounds n c.now }

/-- Mask `n` becomes `r`; a write of k0 is discarded (R228). -/
def Ctx.setK (c : Ctx) (n : Nat) (r : List KRun) : Ctx :=
  if n = 0 then c else { c with k := c.k.setIfInBounds n r, kw := c.kw.setIfInBounds n c.now }

/-- Guard `n`. -/
def Ctx.guard (c : Ctx) (n : Nat) : Bool := vget c.g n false

/-- Guard `n` becomes `v`: its current instance is a new one, resolved where the compare completes, which is in the step
that renames it (R8, R70; log 4). -/
def Ctx.setG (c : Ctx) (n : Nat) (v : Bool) : Ctx :=
  { c with g := c.g.setIfInBounds n v, gres := c.gres.setIfInBounds n true, gw := c.gw.setIfInBounds n c.now }

/-- A scalar result placed `n` instructions later; with `n` zero, where this instruction retires (R75). The count takes in
the retirement of the instruction itself. With `n` zero the write falls where the window of an older instruction on the same register
may close, and is made after it, as the older write comes first (R75; log 45). -/
def Ctx.place (c : Ctx) (n d : Nat) (w : Word) : Ctx :=
  { c with pend := c.pend ++ [{ isVec := false, reg := d, word := w, runs := [], count := n + 1, outer := false }] }

/-- A vector result placed `n` instructions later (R75). -/
def Ctx.placeV (c : Ctx) (n d : Nat) (r : List Run) : Ctx :=
  { c with pend := c.pend ++ [{ isVec := true, reg := d, word := 0, runs := r, count := n + 1, outer := false }] }

/-- A placed write is made. -/
def Ctx.placed (c : Ctx) (p : Pend) : Ctx := if p.isVec then c.setV p.reg p.runs else c.setS p.reg p.word

/-- Whether the context runs privileged (R316). -/
def State.privileged (s : State) : Bool := s.cur.inHandler || s.curSlot == 9 || s.cur.priv

/-! ### Retirement (R75, R76, R213) -/

/-- The open windows count one retired instruction; those that close make their writes, older first (R75, R76). -/
def Ctx.tickPend (c : Ctx) : Ctx :=
  let counted := c.pend.map fun p => if p.outer then p else { p with count := p.count - 1 }
  let c' := (counted.filter fun p => !p.outer && p.count == 0).foldl Ctx.placed c
  { c' with pend := counted.filter fun p => p.outer || p.count != 0 }

/-- The context goes on: to the destination of the transfer whose slot this was, else past the instruction's words
(R213). -/
def Ctx.advance (c : Ctx) (words : Nat) : Ctx :=
  match c.tv with
  | some d => { c with pc := d, tv := none }
  | none => { c with pc := c.pc + BitVec.ofNat 64 (4 * words) }

/-- Whether an address lies in the inline-code range (R54). -/
def inInline (pc : Word) : Bool := decide (0xFFFF_FFFF_FFFF_FF00 ≤ pc.toNat)

/-- The inline-code buffer is freed when the first instruction outside its range retires; a trap handler's instructions
leave it allotted (R54, R418). -/
def Ctx.leaveCode (c : Ctx) (pc : Word) : Ctx := if inInline pc || c.inHandler then c else { c with code := [] }

/-- An instruction of `words` words retires. -/
def Ctx.retire (c : Ctx) (words : Nat) : Ctx := (c.tickPend.advance words).leaveCode c.pc

/-- The moving core counts one more retired instruction (R399). -/
def State.countRetired (s : State) : State := s.bumpEv s.curCore 0 1

/-- An instruction of the moving context retires. -/
def State.retire (s : State) (words : Nat) : State := (s.setCur (s.cur.retire words)).countRetired

/-! ### Traps (R416 to R421) -/

/-- The handler's entry for a PID (R419). -/
def State.trapEntry (s : State) (pid : Nat) : Word := vget s.trapEnt pid 0

/-- Whether a fault of the context in a slot enters its handler (R421). -/
def State.entersHandler (s : State) (core slot : Nat) : Bool :=
  wbit (s.trapEntry (s.core core).pid) 63 && !(s.ctx core slot).inHandler && slot != 9

/-- TRAP_ENTRY: the trap registers are written, the pending transfer and the open windows are held, and the context goes
on at the handler's entry, privileged (R416 to R418). `pc` is what TRAPPC receives. -/
def Ctx.trapEnter (c : Ctx) (entry : Word) (t : Trap) (pc : Word) : Ctx :=
  { c with trapCause := causeWord c.tv.isSome t, trapPc := pc, trapAddr := t.addr, held := c.tv, tv := none,
           pend := c.pend.map fun p => { p with outer := true }, inHandler := true, pc := sextW 48 entry,
           st := .live, wait := .none, given := none }

/-- A fault of the context in a slot: its handler, or its end; uncorrectable data is recorded (R418, R421, R426). CODE 0 is no
fault: the instruction waits and is tried again (R415, R457). -/
def faultOf (s : State) (core slot : Nat) (t : Trap) (pc : Word) : State :=
  if t.code = 0 then s
  else
    let s := ueRecord s (s.ctx core slot).tv.isSome t pc
    if s.entersHandler core slot then
      s.setCtx core slot ((s.ctx core slot).trapEnter (s.trapEntry (s.core core).pid) t pc)
    else endByFault s core slot (causeWord (s.ctx core slot).tv.isSome t) pc t.addr

/-- A fault of the instruction at the moving context's PC. -/
def State.fault (s : State) (t : Trap) : State := faultOf s s.curCore s.curSlot t s.cur.pc

/-- ERET: the handler's own open windows make their writes, the context returns to its level and goes on at TRAPPC with
the transfer and the windows that the trap held; ISYNC drops its prefetches (R76, R226, R319, R420). -/
def Ctx.eret (c : Ctx) : Ctx :=
  let c := (c.pend.filter fun p => !p.outer).foldl Ctx.placed c
  { c with pend := (c.pend.filter (·.outer)).map fun p => { p with outer := false }, inHandler := false, tv := c.held,
           held := none, pc := c.trapPc, b := c.b.map fun t => { t with pre := none } }

/-! ### Issue (R431 to R435) -/

/-- What R185, R433 and R435 say of an instruction: whether only a control context may execute it, whether it may stand
in a transfer's slot, whether it needs a running handler, and the minor version that added it. -/
structure Cls where
  ctlOnly : Bool
  noSlot : Bool
  handlerOnly : Bool
  since : Nat
  deriving DecidableEq, Repr

/-- An instruction with no such rule. -/
def Cls.base : Cls := ⟨false, false, false, 0⟩
/-- A tile instruction, or START (R435). -/
def Cls.ctl : Cls := ⟨true, false, false, 0⟩
/-- A transfer, or TRAP (R213, R435). -/
def Cls.transfer : Cls := ⟨false, true, false, 0⟩
/-- ERET (R435). -/
def Cls.eret : Cls := ⟨false, true, true, 0⟩
/-- An encoding that Maelzeg 3.n added (R185). -/
def Cls.since3 (n : Nat) : Cls := ⟨false, false, false, n⟩

/-- The class of the encodings of a major and minor (R185, R433, R435). -/
def Cls.of (major minor : Nat) : Cls :=
  if (0x24 ≤ major ∧ major ≤ 0x28) ∨ (major = 0x2E ∧ minor = 2) then .ctl
  else if major = 0x10 ∧ minor ≤ 4 then .transfer
  else if major = 0x2F ∧ minor = 2 then .transfer
  else if major = 0x2F ∧ minor = 3 then .eret
  else if (major = 0x01 ∧ (minor = 0x11 ∨ minor = 0x12)) ∨ (major = 0x22 ∧ 6 ≤ minor ∧ minor ≤ 8) then .since3 1
  else if (major = 0x1D ∧ minor = 0x0A) ∨ (major = 0x2F ∧ minor = 8) then .since3 2
  else .base

/-- FLT_ILLEGAL with a reason (R433). -/
def illegal (r : Nat) : Trap := Trap.plain 0x01 r

/-- Steps 1 and 2 of R431 for an assigned encoding: its version, then the reasons 1 to 3 of R433. -/
def Cls.trap (k : Cls) (s : State) : Option Trap :=
  let c := s.cur
  if c.minor < k.since then some (illegal 0)
  else if k.ctlOnly && s.helper then some (illegal 1)
  else if k.noSlot && c.tv.isSome then some (illegal 2)
  else if k.handlerOnly && !c.inHandler then some (illegal 3)
  else none

/-- What an instruction's own effect came to, before it retires. -/
inductive Out where
  | ok (s : State)
  | trap (t : Trap) (s : State)
  | wait (s : State)

/-- Go on with an access: its faults are those of an access of this ACC at this address. -/
def Res.run {α : Type} (r : Res α) (acc : Nat) (addr : Word) (f : α → State → Out) : Out :=
  match r with
  | .ok a s => f a s
  | .flt e s => .trap (e.trap acc addr) s
  | .wait s => .wait s

/-- The first fault of a list of checks decides (R431). -/
def Out.first (s : State) (cs : List (Option Trap)) (f : Out) : Out :=
  match cs.findSome? id with
  | some t => .trap t s
  | none => f

/-- A check. -/
def trapIf (b : Bool) (t : Trap) : Option Trap := if b then some t else none

/-- FLT_RESERVED on a register value: the field that names the register, at flat bit `lo` (R433). -/
def regTrap (lo : Nat) : Trap := Trap.plain 0x02 (0x8000 + put (lo / 32) 8 + lo % 32)

/-- FLT_RESERVED on a field of the encoding, at flat bit `lo` (R433). -/
def fieldTrap (lo : Nat) : Trap := Trap.plain 0x02 (put (lo / 32) 8 + lo % 32)

/-- FLT_PERM with INFO[15:8] and INFO[7:0] (R433). -/
def permTrap (hi lo : Nat) : Trap := Trap.plain 0x09 (put hi 8 + lo)

/-- FLT_TARGET 1 or 2: an address that no fetch can take (R433). -/
def targetTrap (a : Word) : Option Trap :=
  if !canonical a then some (Trap.at 0x03 1 4 a)
  else if a.toNat % 4 ≠ 0 then some (Trap.at 0x03 2 4 a)
  else none

/-- Whether a guarded instruction is discarded (R71, R432). -/
def guardFalse (s : State) (x : Ext) : Bool := x.g && (s.cur.guard x.gslot == x.ginv)

/-- An instruction of `words` words issues: steps 1 and 2 of R431, its effect, its retirement. -/
def issue (s : State) (k : Cls) (words : Nat) (body : State → Out) : Host.Outcome State Fault Refusal :=
  match k.trap s with
  | some t => .next (s.fault t)
  | none => match body s with
    | .ok s => .next (s.retire words)
    | .trap t s => .next (s.fault t)
    | .wait s => .next s

/-- An instruction whose effect sets where the context goes, or ends it: it is not retired here. -/
def issueAs (s : State) (k : Cls) (body : State → Out) : Host.Outcome State Fault Refusal :=
  match k.trap s with
  | some t => .next (s.fault t)
  | none => match body s with
    | .ok s => .next s
    | .trap t s => .next (s.fault t)
    | .wait s => .next s

/-- A guarded instruction: discarded, it retires and does nothing else (R71, R432). -/
def issueG (s : State) (k : Cls) (words : Nat) (x : Ext) (body : State → Out) : Host.Outcome State Fault Refusal :=
  issue s k words fun s => if guardFalse s x then .ok s else body s

/-- An agent's step: the state it leaves (R95 of the steps; log 18 for a step with nothing to do). -/
def agent (s : State) : Host.Outcome State Fault Refusal := .next s

end Sys2Proof.Machine
end

