-- ==== Sys2Proof/Machine/Fetch.lean ====
section
/-! DEFINITION. Fetching the words of an instruction: inline code, the byte instruction cache, GLOBAL memory (R54, R60,
R62, R128, R157, R166, R213, R420, R434). -/

namespace Sys2Proof.Machine

/-- A fetch that cannot be made: its trap, with ACC 4 and the address of the word (R418). -/
inductive Fetched where
  | ok (w : List Nat) (s : State)
  | trap (t : Trap) (s : State)
  | wait (s : State)

/-- The instruction-cache lines of a core become `ls`. -/
def setICache (s : State) (core : Nat) (ls : List ILine) : State := s.setCore core { s.core core with icache := ls }

/-- A line joins the instruction cache; a full cache of 512 lines drops its oldest (R60, log 13). -/
def icacheAdd (s : State) (core : Nat) (l : ILine) : State :=
  let ls := (s.core core).icache.filter fun x => !(x.pid == l.pid && x.vln == l.vln)
  setICache s core ((if 512 ≤ ls.length then ls.drop 1 else ls) ++ [l])

/-- The word at an address of a decoded operation that serves a context: its tags match, and it lies in a line that the
address is translated to (R60). -/
def DOp.word (o : DOp) (pid slot : Nat) (c : Ctx) (va pln : Nat) : Option Nat :=
  let i := (va - va48 o.pc) / 4
  if o.pid == pid && o.slot == slot && o.major == c.major && o.minor == c.minor && o.lines.contains pln &&
      decide (va48 o.pc ≤ va) then o.words[i]? else none

/-- The four bytes at a translated address: from the decoded-operation cache, from the byte instruction cache, or by a GLOBAL
read that fills it when the region is cacheable and the reader is not h9 (R60, R157). -/
def fetchLine (s : State) (core slot : Nat) (va : Nat) (t : Trans) : Res (List Byte) :=
  let w : Who := ⟨core, slot, (s.core core).pid⟩
  let vln := vlnOf va
  let hit := (s.core core).icache.find? fun (l : ILine) => l.pid == w.pid && l.vln == vln && l.pln == t.pa / 128
  let op := if slot = 9 then none else (s.core core).ops.findSome? (·.word w.pid slot (s.ctx core slot) va (t.pa / 128))
  match op, hit with
  | some x, _ => .ok (natToBytes 4 x) s
  | none, some l => .ok (slice l.data (va % 128) 4) s
  | none, none =>
    let cacheable := !isAlias t.leaf && (regionOf t.pa == .hbm || regionOf t.pa == .host) && slot != 9
    if cacheable then
      match loadGlobal s w (vln * 128) 128 { t with pa := t.pa / 128 * 128 } with
      | .ok bs s =>
        .ok (slice bs (va % 128) 4) (icacheAdd s core { pid := w.pid, vln := vln, pln := t.pa / 128, data := bs })
      | .flt _ s => loadGlobal s w va 4 t
      | .wait s => .wait s
    else loadGlobal s w va 4 t

/-- Physical lines of `n` words from an address on, as the instruction cache holds them (R60). -/
def codeLines (k : Core) (pc : Word) (n : Nat) : List Nat :=
  (List.range n).filterMap fun i =>
    (k.icache.find? fun (l : ILine) => l.pid == k.pid && l.vln == vlnOf (va48 (pc + BitVec.ofNat 64 (4 * i)))).map (·.pln)

/-- The operation of an instruction joins the decoded-operation cache; a full cache of 4,096 drops its oldest. An instruction is one
operation, and those of h9 are kept out (R60, R157; logs 13, 43). Operations of inline code are those of the words in the inbox
buffer and go with it (R62). -/
def keepOp (s : State) (core slot : Nat) (pc : Word) (words : List Nat) : State :=
  let k := s.core core
  let c := k.ctx slot
  let lines := codeLines k pc words.length
  let o : DOp := { pid := k.pid, slot := slot, major := c.major, minor := c.minor, pc := pc, lines := lines, words := words }
  if slot = 9 || (inInline pc && !c.code.isEmpty) || k.ops.contains o || lines.length != words.length then s
  else
    let old := k.ops.filter fun x => !(x.slot == slot && x.pc == pc)
    s.setCore core { k with ops := (if 4096 ≤ old.length then old.drop 1 else old) ++ [o] }

/-- The checks of a fetch at an address that are not its translation's (R420, R434). -/
def fetchTrap (pc : Word) : Option Trap := targetTrap pc

/-- One instruction word at an address, for a context (R54, R128, R434). -/
def fetchWord (s : State) (core slot : Nat) (pc : Word) : Fetched :=
  let c := s.ctx core slot
  match fetchTrap pc with
  | some t => .trap t s
  | none =>
    if inInline pc && !c.code.isEmpty then
      .ok [(c.code.getD ((pc.toNat - 0xFFFF_FFFF_FFFF_FF00) / 4) 0).toNat] s
    else
      match translateFor s (dieOf core) (s.core core).pid (va48 pc) .fetch with
      | (.error f, s) => .trap (f.trap 4 pc) s
      | (.ok t, s) =>
        let t := remap s (dieOf core) (s.core core).pid (va48 pc) t
        let bad := if isAlias t.leaf then aliasCheck s .scalar .load t 4 else none
        match bad with
        | some f => .trap (f.trap 4 pc) s
        | none => match fetchLine s core slot (va48 pc) t with
          | .ok bs s => .ok [bytesToNat bs] s
          | .flt f s => .trap (f.trap 4 pc) s
          | .wait s => .wait s

/-- Whether a word of inline code lies past its last one (R434). -/
def pastCode (c : Ctx) (pc : Word) : Bool :=
  inInline pc && !c.code.isEmpty && decide (c.code.length ≤ (pc.toNat - 0xFFFF_FFFF_FFFF_FF00) / 4)

/-- `n` words from an address on; an instruction none of whose words may lie past the last one of its inline code (R434). -/
def fetchWords (s : State) (core slot : Nat) (pc : Word) : Nat → Fetched
  | 0 => .ok [] s
  | n + 1 =>
    if pastCode (s.ctx core slot) pc then .trap (illegal 0) s
    else match fetchWord s core slot pc with
    | .ok w s =>
      match fetchWords s core slot (pc + 4) n with
      | .ok ws s => .ok (w ++ ws) s
      | r => r
    | r => r

/-- The number that words make, the first the least significant. -/
def wordsToNat : List Nat → Nat
  | [] => 0
  | w :: ws => w + 2 ^ 32 * wordsToNat ws

/-- The address of the first word after the slot of a transfer at the moving context's PC, read from the slot's first word
(R212, R213). Every fault of that fetch is the transfer's, those that R213 does not name among them: an address no fetch can take, a
link that is down (log 43). -/
def slotNext (s : State) : Fetched × Word :=
  let pc := s.cur.pc + 4
  match fetchWord s s.curCore s.curSlot pc with
  | .ok w s => (.ok w s, pc + BitVec.ofNat 64 (4 * lenOf (w.headD 0)))
  | r => (r, pc)

end Sys2Proof.Machine
end

