-- ==== Sys2Proof/Machine/Operands.lean ====
section
/-! DEFINITION. The operand forms: immediates and displacements of base words (R175), effective addresses (R179, R217,
R220), and the shapes in which scalar instructions read registers and write results (R79, R192, R193, R195). -/

namespace Sys2Proof.Machine

/-- A 12-bit immediate, sign-extended (R175). -/
def immI (i : BitVec 12) : Word := i.signExtend 64

/-- A 32-bit literal, sign-extended (R175). -/
def immL (i : BitVec 32) : Word := i.signExtend 64

/-- sext(imm20 × 4096, 32) (R175). -/
def immU (i : BitVec 20) : Word := ((i.setWidth 32) <<< 12).signExtend 64

/-- The target of a PREP at `pc` (R175). -/
def prepTarget (pc : Word) (d : BitVec 20) : Word := pc + (d.signExtend 64) * 4

/-- The effective address of a format M access of `size` bytes (R175). -/
def eaM (base : Word) (imm : BitVec 8) (size : Nat) : Word := base + (imm.signExtend 64) * BitVec.ofNat 64 size

/-- The offset of an extended memory form (R179). -/
def offValue : Off → Word
  | .disp d => d.signExtend 64
  | .lit l => l

/-- Length in words of an extended memory form (R178). -/
def offWords : Off → Nat
  | .disp _ => 3
  | .lit _ => 5

/-- The effective address of a MEMX load: base, scaled index, offset (R179). -/
def eaX (base idx : Word) (iscale : Nat) (o : Off) : Word := base + (idx <<< iscale) + offValue o

/-- A scalar instruction of two sources: both are read through the latches, the result goes to d (R79, R195). -/
def binOp (f : Word → Word → Word) (k : Cls) (d a b : Nat) (s : State) : Host.Outcome State Fault Refusal :=
  issue s k 1 fun s =>
    let c := s.cur
    .ok (s.setCur ((c.latched (some a) (some b)).setS d (f (c.src a) (c.src b))))

/-- As `binOp`, with d read as a third source that no latch serves (R193). -/
def triOp (f : Word → Word → Word → Word) (d a b : Nat) (s : State) : Host.Outcome State Fault Refusal :=
  issue s .base 1 fun s =>
    let c := s.cur
    .ok (s.setCur ((c.latched (some a) (some b)).setS d (f (c.src a) (c.src b) (c.sreg d))))

/-- A scalar instruction of one source (R195). -/
def unOp (f : Word → Word) (words d a : Nat) (s : State) : Host.Outcome State Fault Refusal :=
  issue s .base words fun s =>
    let c := s.cur
    .ok (s.setCur ((c.latched (some a) none).setS d (f (c.src a))))

/-- A long-latency instruction of two sources: its result is placed by its lookahead field (R75, R180). -/
def longOp (f : Word → Word → Word) (ahead d a b : Nat) (s : State) : Host.Outcome State Fault Refusal :=
  issue s .base 1 fun s =>
    let c := s.cur
    .ok (s.setCur ((c.latched (some a) (some b)).place ahead d (f (c.src a) (c.src b))))

/-- A scalar instruction with no register source. -/
def nulOp (f : Ctx → Word) (d : Nat) (s : State) : Host.Outcome State Fault Refusal :=
  issue s .base 1 fun s => .ok (s.setCur (s.cur.setS d (f s.cur)))

end Sys2Proof.Machine
end

