-- ==== Sys2Proof/Machine/Flags.lean ====
section
/-! DEFINITION. The flag computations: the conditions that guards and masks take (R204 to R208, R238), and the shape of an
instruction that writes a guard (R70). -/

namespace Sys2Proof.Machine

/-- The conditions of R204, by code, on integers of `w` bits. -/
def condHolds {w : Nat} (code : Nat) (a b : BitVec w) : Bool :=
  if code = 0 then a == b
  else if code = 1 then a != b
  else if code = 2 then a.slt b
  else if code = 3 then a.ult b
  else if code = 4 then !a.slt b
  else if code = 5 then !a.ult b
  else if code = 6 then a &&& b != 0
  else a &&& b == 0

/-- The immediate of a CMPI: sign-extended for the conditions 0, 1, 2 and 4, else zero-extended (R205). -/
def immC (cond : Nat) (i : BitVec 8) : Word :=
  if cond = 0 ∨ cond = 1 ∨ cond = 2 ∨ cond = 4 then i.signExtend 64 else i.setWidth 64

/-- The floating-point conditions of R206, by code: eq, ne, lt, le, un. -/
def fcondHolds (code : Nat) (a b : FVal) : Bool :=
  if code = 0 then a.eqNum b
  else if code = 1 then !a.eqNum b
  else if code = 2 then a.ltNum b
  else if code = 3 then a.ltNum b || a.eqNum b
  else a.isNan || b.isNan

/-- A compare of two scalar registers writes guard `g` (R70, R204). -/
def cmpOp (f : Word → Word → Bool) (g a b : Nat) (s : State) : Host.Outcome State Fault Refusal :=
  issue s .base 1 fun s =>
    let c := s.cur
    .ok (s.setCur ((c.latched (some a) (some b)).setG g (f (c.src a) (c.src b))))

/-- The FP32 operand in bits [31:0] of a register (R192). -/
def f32Of (w : Word) : FVal := f32 (wfld w 31 0)

/-- A guard-logic instruction writes guard `d` from two guards (R207, R208). -/
def guardOp (f : Bool → Bool → Bool) (d a b : Nat) (s : State) : Host.Outcome State Fault Refusal :=
  issue s .base 1 fun s => .ok (s.setCur (s.cur.setG d (f (s.cur.guard a) (s.cur.guard b))))

end Sys2Proof.Machine
end

