-- ==== Sys2Proof/Machine/Control.lean ====
section
/-! DEFINITION. Prepare and transfer, fences, waits, flushes and ISYNC: majors 0x0F to 0x11 (R209 to R213, R222 to
R226). -/

namespace Sys2Proof.Machine

/-! ### Prepare (R209 to R211) -/

/-- The prefetch of an address for a context: the physical line that it holds for the target, none where a translation fails,
the target is inline code or is not cacheable; it never faults (R62, R210). -/
def prefetchAt (s : State) (core slot : Nat) (a : Word) : Option Nat × State :=
  if (targetTrap a).isSome || (inInline a && !(s.ctx core slot).code.isEmpty) then (none, s)
  else match translateFor s (dieOf core) (s.core core).pid (va48 a) .fetch with
    | (.ok t, s) =>
      let t := remap s (dieOf core) (s.core core).pid (va48 a) t
      let cached := !isAlias t.leaf && (regionOf t.pa == .hbm || regionOf t.pa == .host)
      if cached then
        match fetchLine s core slot (va48 a) t with
        | .ok _ s => (some (t.pa / 128), s)
        | .flt _ s => (none, s)
        | .wait s => (none, s)
      else (none, s)
    | (.error _, s) => (none, s)

/-- The prefetch of an address for the moving context. -/
def prefetch (s : State) (a : Word) : Option Nat × State := prefetchAt s s.curCore s.curSlot a

/-- Branch-target register `t` of a context takes an address, with the tags of the context and of its code version (R209). -/
def Ctx.setB (c : Ctx) (slot t : Nat) (a : Word) (pre : Option Nat) : Ctx :=
  { c with b := c.b.setIfInBounds t { addr := a, valid := true, slot := slot, major := c.major, minor := c.minor, pre := pre } }

/-- The moving context prepares register `t` for an address, and its prefetch starts (R210). -/
def prepare (s : State) (t : Nat) (a : Word) : State :=
  let (pre, s) := prefetch s a
  s.setCur (s.cur.setB s.curSlot t a pre)

/-- PREP with a displacement (R175, R210). -/
def execPrep (disp : BitVec 20) (t : Nat) (s : State) : Host.Outcome State Fault Refusal :=
  issue s .base 1 fun s => .ok (prepare s t (prepTarget s.cur.pc disp))

/-- PREP with a literal, which must be canonical and aligned (R210, R437). -/
def execPrepLit64 (lit : BitVec 64) (t : Nat) (s : State) : Host.Outcome State Fault Refusal :=
  issue s .base 3 fun s => Out.first s [targetTrap lit] (.ok (prepare s t lit))

/-- PREPR (R211). -/
def execPrepr (a t : Nat) (s : State) : Host.Outcome State Fault Refusal :=
  issue s .base 1 fun s =>
    let x := s.cur.src a
    Out.first s [targetTrap x] (.ok (prepare (s.setCur (s.cur.latched (some a) none)) t x))

/-! ### Transfer (R212, R213) -/

/-- A transfer retires: the slot is next, and `dest` after it (R213). -/
def Ctx.transfer (c : Ctx) (dest : Word) : Ctx :=
  ({ c.tickPend with pc := c.pc + 4, tv := some dest }).leaveCode c.pc

/-- A transfer through register `t`; CALL writes b7 with the address after the slot (R212, R213). -/
def transferOp (t : Nat) (taken : Ctx → Bool) (link : Bool) (s : State) : Host.Outcome State Fault Refusal :=
  issueAs s .transfer fun s =>
    let bt := vget s.cur.b t BTarget.clear
    if !bt.valid then .trap (Trap.plain 0x03 0) s
    else match slotNext s with
      | (.trap f s, _) => .trap f s
      | (.wait s, _) => .wait s
      | (.ok _ s, next) =>
        let dest := if taken s.cur then bt.addr else next
        let s := if link then prepare s 7 next else s
        .ok (s.setCur (s.cur.transfer dest)).countRetired

/-- JMP (R212). -/
def execJmp (t : Nat) (s : State) : Host.Outcome State Fault Refusal :=
  transferOp t (fun _ => true) false s

/-- JMPT (R212). -/
def execJmpt (g t : Nat) (s : State) : Host.Outcome State Fault Refusal :=
  transferOp t (fun c => c.guard g) false s

/-- JMPF (R212). -/
def execJmpf (g t : Nat) (s : State) : Host.Outcome State Fault Refusal :=
  transferOp t (fun c => !c.guard g) false s

/-- CALL (R212, R215). -/
def execCall (t : Nat) (s : State) : Host.Outcome State Fault Refusal :=
  transferOp t (fun _ => true) true s

/-- RET: through b7 (R212). -/
def execRet  (s : State) : Host.Outcome State Fault Refusal :=
  transferOp 7 (fun _ => true) false s

/-! ### Fences, waits, ISYNC (R222 to R224, R226) -/

/-- Go on when every older write of the moving context's core is performed at a scope. -/
def afterScope (s : State) (scope : Nat) (f : State → Out) : Out :=
  (settleScope s s.curCore scope).run 2 0 fun _ s => f s

/-- A FENCE that its context passes while older writes are not yet performed: it stands among the posted stores, and holds back
the younger ones, and for FULL the younger loads (R149, R223). -/
def fencePosted (s : State) (scope : Nat) (full : Bool) : Posted :=
  { slot := s.curSlot, pt := false, form := .scalar, born := s.tick, ctxid := s.ctxid s.curCore s.curSlot, pid := s.me.pid,
    pc := s.cur.pc, space := 0, addr := 0, bytes := [], dest := .fence scope full, also := [] }

/-- FENCE: REL and FULL stand after every older access at the scope, and the context proceeds past them; ACQ has nothing to wait
for, since older loads have their values, and a load waits for older stores to its line under any name (R74, R149, R223). -/
def execFence (scope kind : Nat) (s : State) : Host.Outcome State Fault Refusal :=
  issue s .base 1 fun s =>
    match settleScope s s.curCore (if kind = 1 then 0 else scope) with
    | .ok _ t => .ok t
    | .flt _ t => .ok t
    | .wait t =>
      .ok (if kind = 1 then t else t.setMe { t.me with posted := t.me.posted ++ [fencePosted t scope (kind == 3)] })

/-- ISYNC: older stores are performed at die scope, and the prefetches of b0 to b7 are dropped (R226). -/
def execIsync (s : State) : Host.Outcome State Fault Refusal :=
  issue s .base 1 fun s => afterScope s 2 fun s =>
    .ok (s.setCur { s.cur with b := s.cur.b.map fun t => { t with pre := none } })

/-- WAIT (R146, R224). -/
def execWait (code : Nat) (s : State) : Host.Outcome State Fault Refusal :=
  issue s .base 1 fun s => (settleWait s s.who code).run 2 0 fun _ s => .ok s

/-! ### FLUSH (R225, R437, R448, R455) -/

/-- A line of a die's L2 is flushed: written back, and removed unless it is kept; a failing line that is removed is
recorded. Copies under other names and code copies stay (R225, R455). -/
def flushLine (s : State) (die : Nat) (keep : Bool) (l : L2Line) : State :=
  if keep then l2Writeback s die l
  else
    let s := tellHome (l2Leave s die l) die l.pln
    if l.bad.isEmpty then s else unitRecord s 2 (l2Index die (sliceOf l.pid l.vln) l.pln) 3

/-- The lines of a die's L2 under tags of a PID from virtual line `lo` to `hi`. -/
def flushed (s : State) (die pid lo hi : Nat) : List L2Line :=
  (s.l2Of die).filter fun (l : L2Line) => l.pid == pid && decide (lo ≤ l.vln) && decide (l.vln ≤ hi)

/-- The lines of a PID from virtual line `lo` to `hi` are flushed on a die. -/
def flushDie (s : State) (die pid lo hi : Nat) (keep : Bool) : State :=
  let hit (p v : Nat) : Bool := p == pid && decide (lo ≤ v) && decide (v ≤ hi)
  let s := (List.range 6).foldl (fun s i =>
    let q := die * 6 + i
    ((s.pc q).filter fun (l : PLine) => hit l.pid l.vln).foldl (fun s l => paddockLeft s die l.pln i)
      (s.setPc q ((s.pc q).filter fun (l : PLine) => !hit l.pid l.vln))) s
  (flushed s die pid lo hi).foldl (fun s l => flushLine s die keep l) s

/-- Whether a line that FLUSH has taken on a die is not done: it could not leave, or be written back, yet (R225, R457). -/
def flushWaits (s : State) (die pid lo hi : Nat) (keep : Bool) : Bool :=
  (flushed s die pid lo hi).any fun l => !keep || (l.dirty.any id && l.bad.isEmpty)

/-- FLUSH and FLUSH.keep: it retires when every line is done (R225, R437). -/
def execFlush (keep : Bool) (a b : Nat) (s : State) : Host.Outcome State Fault Refusal :=
  issue s .base 1 fun s =>
    let c := s.cur
    let x := c.src a
    let n := c.src b
    let done (s : State) : Out := .ok (s.setCur (s.cur.latched (some a) (some b)))
    if n = 0 then afterScope s 3 done
    else
      let y := x + n - 1
      let out (e : Word) : Option Trap := trapIf (!canonical e) (Trap.at 0x08 0x0001 7 e)
      Out.first s [trapIf (decide (2 ^ 64 ≤ x.toNat + n.toNat - 1)) (regTrap 8), out x, out y]
        (afterScope s 3 fun s =>
          let lo := vlnOf (va48 x)
          let hi := vlnOf (va48 y)
          let go (s : State) (die : Nat) : State := flushDie s die s.me.pid lo hi keep
          let t := go (go s 0) 1
          if flushWaits t 0 t.me.pid lo hi keep || flushWaits t 1 t.me.pid lo hi keep then .wait t else done t)

end Sys2Proof.Machine
end

