-- ==== Sys2Proof/Machine/ScalarMem.lean ====
section
/-! DEFINITION. Scalar loads and stores: majors 0x12 to 0x1B and MEMX (R146, R148, R216 to R219). -/

namespace Sys2Proof.Machine

/-- A scalar load of `n` = 2^lg bytes at an address: its checks, its access, and what is done with the bytes (R218). -/
def scalarLoad (s : State) (space csel : Nat) (ea : Word) (lg : Nat) (f : List Byte → State → Out) : Out :=
  let s := settleFor s s.who space csel ea
  Out.first s [check6 s s.who .scalar space csel ea (2 ^ lg) lg 1]
    ((loadPiece s s.who .scalar space csel ea (2 ^ lg)).run 1 ea f)

/-- A scalar store of 2^lg bytes at an address (R218). -/
def scalarStore (s : State) (space csel : Nat) (ea : Word) (lg : Nat) (w : Word) (f : State → Out) : Out :=
  let s := settleFor s s.who space csel ea
  Out.first s [check6 s s.who .scalar space csel ea (2 ^ lg) lg 2]
    (match storePieces s s.who .scalar space csel ea 2 0 (wordBytes (2 ^ lg) w) with
      | (.error e, s) => .trap (e.trap 2 ea) s
      | (.ok ps, s) =>
        (sendPieces s s.who (s.ctxid s.curCore s.curSlot) s.cur.pc space ps).run 2 ea fun _ s => f s)

/-- The value of a load: the bytes extended by sign or by zeros (R216, R217). -/
def loadValue (signed : Bool) (bs : List Byte) : Word :=
  if signed then sextW (8 * bs.length) (bytesWord bs) else bytesWord bs

/-- A format M load (R216). -/
def loadM (space lg : Nat) (signed : Bool) (imm : BitVec 8) (ahead a d : Nat) (s : State) :
    Host.Outcome State Fault Refusal :=
  issue s .base 1 fun s =>
    scalarLoad s space 0 (eaM (s.cur.src a) imm (2 ^ lg)) lg fun bs s =>
      .ok (s.setCur ((s.cur.latched (some a) none).place ahead d (loadValue signed bs)))

/-- A format M store; its data register counts as field b (R79, R216). -/
def storeM (space lg : Nat) (imm : BitVec 8) (a d : Nat) (s : State) : Host.Outcome State Fault Refusal :=
  issue s .base 1 fun s =>
    scalarStore s space 0 (eaM (s.cur.src a) imm (2 ^ lg)) lg (s.cur.src d) fun s =>
      .ok (s.setCur (s.cur.latched (some a) (some d)))

/-- What an access's ordering fields require before it is performed: the wait of R146, and for a release every older write
at its scope (R148). -/
def ordered (s : State) (x : Ext) (release : Bool) (f : State → Out) : Out :=
  (settleWait s s.who x.wait).run 2 0 fun _ s => if release then afterScope s x.scope f else f s

/-- A MEMX load (R217, R219). -/
def loadX (lg : Nat) (signed : Bool) (d a b iscale : Nat) (m : Addr) (x : Ext) (s : State) :
    Host.Outcome State Fault Refusal :=
  issueG s .base (offWords m.off) x fun s =>
    ordered s x false fun s =>
      scalarLoad s m.space m.csel (eaX (s.cur.src a) (s.cur.src b) iscale m.off) lg fun bs s =>
        .ok (s.setCur ((s.cur.latched (some a) (some b)).place x.ahead d (loadValue signed bs)))

/-- A MEMX store (R217, R219). -/
def storeX (lg : Nat) (a b : Nat) (m : Addr) (x : Ext) (s : State) : Host.Outcome State Fault Refusal :=
  issueG s .base (offWords m.off) x fun s =>
    ordered s x (x.ord == 2) fun s =>
      scalarStore s m.space m.csel (eaX (s.cur.src a) 0 0 m.off) lg (s.cur.src b) fun s =>
        .ok (s.setCur (s.cur.latched (some a) (some b)))

/-- LD.i64 from LOCAL (R216). -/
def execLdl64 (imm : BitVec 8) (ahead a d : Nat) (s : State) : Host.Outcome State Fault Refusal :=
  loadM 0 3 false imm ahead a d s

/-- LD.i32 from LOCAL (R216). -/
def execLdli32 (imm : BitVec 8) (ahead a d : Nat) (s : State) : Host.Outcome State Fault Refusal :=
  loadM 0 2 true imm ahead a d s

/-- LD.n32 from LOCAL (R216). -/
def execLdln32 (imm : BitVec 8) (ahead a d : Nat) (s : State) : Host.Outcome State Fault Refusal :=
  loadM 0 2 false imm ahead a d s

/-- ST.i64 to LOCAL (R216). -/
def execStl64 (imm : BitVec 8) (a d : Nat) (s : State) : Host.Outcome State Fault Refusal :=
  storeM 0 3 imm a d s

/-- ST.i32 to LOCAL (R216). -/
def execStl32 (imm : BitVec 8) (a d : Nat) (s : State) : Host.Outcome State Fault Refusal :=
  storeM 0 2 imm a d s

/-- LD.i64 from GLOBAL (R216). -/
def execLdg64 (imm : BitVec 8) (ahead a d : Nat) (s : State) : Host.Outcome State Fault Refusal :=
  loadM 2 3 false imm ahead a d s

/-- LD.i32 from GLOBAL (R216). -/
def execLdgi32 (imm : BitVec 8) (ahead a d : Nat) (s : State) : Host.Outcome State Fault Refusal :=
  loadM 2 2 true imm ahead a d s

/-- LD.n32 from GLOBAL (R216). -/
def execLdgn32 (imm : BitVec 8) (ahead a d : Nat) (s : State) : Host.Outcome State Fault Refusal :=
  loadM 2 2 false imm ahead a d s

/-- ST.i64 to GLOBAL (R216). -/
def execStg64 (imm : BitVec 8) (a d : Nat) (s : State) : Host.Outcome State Fault Refusal :=
  storeM 2 3 imm a d s

/-- ST.i32 to GLOBAL (R216). -/
def execStg32 (imm : BitVec 8) (a d : Nat) (s : State) : Host.Outcome State Fault Refusal :=
  storeM 2 2 imm a d s

/-- MEMX LD.i8 (R217). -/
def execMemxLdI8 (d a b iscale : Nat) (m : Addr) (x : Ext) (s : State) : Host.Outcome State Fault Refusal :=
  loadX 0 true d a b iscale m x s

/-- MEMX LD.n8 (R217). -/
def execMemxLdN8 (d a b iscale : Nat) (m : Addr) (x : Ext) (s : State) : Host.Outcome State Fault Refusal :=
  loadX 0 false d a b iscale m x s

/-- MEMX LD.i16 (R217). -/
def execMemxLdI16 (d a b iscale : Nat) (m : Addr) (x : Ext) (s : State) : Host.Outcome State Fault Refusal :=
  loadX 1 true d a b iscale m x s

/-- MEMX LD.n16 (R217). -/
def execMemxLdN16 (d a b iscale : Nat) (m : Addr) (x : Ext) (s : State) : Host.Outcome State Fault Refusal :=
  loadX 1 false d a b iscale m x s

/-- MEMX LD.i32 (R217). -/
def execMemxLdI32 (d a b iscale : Nat) (m : Addr) (x : Ext) (s : State) : Host.Outcome State Fault Refusal :=
  loadX 2 true d a b iscale m x s

/-- MEMX LD.n32 (R217). -/
def execMemxLdN32 (d a b iscale : Nat) (m : Addr) (x : Ext) (s : State) : Host.Outcome State Fault Refusal :=
  loadX 2 false d a b iscale m x s

/-- MEMX LD.i64 (R217). -/
def execMemxLdI64 (d a b iscale : Nat) (m : Addr) (x : Ext) (s : State) : Host.Outcome State Fault Refusal :=
  loadX 3 false d a b iscale m x s

/-- MEMX ST.i8 (R217). -/
def execMemxStI8 (a b : Nat) (m : Addr) (x : Ext) (s : State) : Host.Outcome State Fault Refusal :=
  storeX 0 a b m x s

/-- MEMX ST.i16 (R217). -/
def execMemxStI16 (a b : Nat) (m : Addr) (x : Ext) (s : State) : Host.Outcome State Fault Refusal :=
  storeX 1 a b m x s

/-- MEMX ST.i32 (R217). -/
def execMemxStI32 (a b : Nat) (m : Addr) (x : Ext) (s : State) : Host.Outcome State Fault Refusal :=
  storeX 2 a b m x s

/-- MEMX ST.i64 (R217). -/
def execMemxStI64 (a b : Nat) (m : Addr) (x : Ext) (s : State) : Host.Outcome State Fault Refusal :=
  storeX 3 a b m x s

end Sys2Proof.Machine
end

