-- ==== Sys2Proof/Machine/Atomics.lean ====
section
/-! DEFINITION. Atomics: major 0x1D (R141, R148, R220, R221). -/

namespace Sys2Proof.Machine

/-- Bytes of an atomic. -/
def atomBytes (sz : Bool) : Nat := if sz then 8 else 4

/-- Bits [w-1:0] of an operand register (R220). -/
def atomVal (sz : Bool) (w : Word) : Nat := w.toNat % 2 ^ (8 * atomBytes sz)

/-- The value written to D (R220). -/
def atomOld (sz signed : Bool) (old : Nat) : Word :=
  if !sz && signed then sextW 32 (BitVec.ofNat 64 old) else BitVec.ofNat 64 old

/-- An atomic: `f` gives, from the old value and the operand, the value written, if one is (R220, R221). -/
def atomOp (f : State → Nat → Nat → Option Nat) (sz signed : Bool) (d a b : Nat) (m : Addr) (x : Ext) (k : Cls) (s : State) :
    Host.Outcome State Fault Refusal :=
  issueG s k (offWords m.off) x fun s =>
    ordered s x (decide (2 ≤ x.ord)) fun s =>
      let ea := eaX (s.cur.src a) 0 0 m.off
      let v := atomVal sz (s.cur.src b)
      let s := settleFor s s.who m.space m.csel ea
      Out.first s [check6 s s.who .atomic m.space m.csel ea (atomBytes sz) (if sz then 3 else 2) 3]
        ((atomicAt s s.who m.space m.csel ea (atomBytes sz) (fun old => f s old v)).run 3 ea fun old s =>
          .ok (s.setCur ((s.cur.latched (some a) (some b)).place x.ahead d (atomOld sz signed old))))

/-- The smaller (or larger) of two values of a width, signed or unsigned (R220). -/
def atomPick (sz signed larger : Bool) (old v : Nat) : Nat :=
  let o := intOf signed (8 * atomBytes sz) old
  let w := intOf signed (8 * atomBytes sz) v
  if larger then (if o < w then v else old) else (if w < o then v else old)

/-- ASWP (R220). -/
def execAswp (d a b : Nat) (sz : Bool) (m : Addr) (x : Ext) (s : State) : Host.Outcome State Fault Refusal :=
  atomOp (fun _ _ v => some v) sz false d a b m x .base s

/-- ACAS: nothing is written when the compare fails (R220, R221). -/
def execAcas (d a b : Nat) (sz : Bool) (c : Nat) (m : Addr) (x : Ext) (s : State) : Host.Outcome State Fault Refusal :=
  atomOp (fun s old v => if old = atomVal sz (s.cur.sreg c) then some v else none) sz false d a b m x .base s

/-- AADD (R220). -/
def execAadd (d a b : Nat) (sz : Bool) (m : Addr) (x : Ext) (s : State) : Host.Outcome State Fault Refusal :=
  atomOp (fun _ old v => some ((old + v) % 2 ^ (8 * atomBytes sz))) sz false d a b m x .base s

/-- AAND (R220). -/
def execAand (d a b : Nat) (sz : Bool) (m : Addr) (x : Ext) (s : State) : Host.Outcome State Fault Refusal :=
  atomOp (fun _ old v => some (old &&& v)) sz false d a b m x .base s

/-- AOR (R220). -/
def execAor (d a b : Nat) (sz : Bool) (m : Addr) (x : Ext) (s : State) : Host.Outcome State Fault Refusal :=
  atomOp (fun _ old v => some (old ||| v)) sz false d a b m x .base s

/-- AXOR (R220). -/
def execAxor (d a b : Nat) (sz : Bool) (m : Addr) (x : Ext) (s : State) : Host.Outcome State Fault Refusal :=
  atomOp (fun _ old v => some (old ^^^ v)) sz false d a b m x .base s

/-- AMIN.i (R220). -/
def execAminI (d a b : Nat) (sz : Bool) (m : Addr) (x : Ext) (s : State) : Host.Outcome State Fault Refusal :=
  atomOp (fun _ old v => some (atomPick sz true false old v)) sz true d a b m x .base s

/-- AMIN.n (R220). -/
def execAminN (d a b : Nat) (sz : Bool) (m : Addr) (x : Ext) (s : State) : Host.Outcome State Fault Refusal :=
  atomOp (fun _ old v => some (atomPick sz false false old v)) sz false d a b m x .base s

/-- AMAX.i (R220). -/
def execAmaxI (d a b : Nat) (sz : Bool) (m : Addr) (x : Ext) (s : State) : Host.Outcome State Fault Refusal :=
  atomOp (fun _ old v => some (atomPick sz true true old v)) sz true d a b m x .base s

/-- AMAX.n (R220). -/
def execAmaxN (d a b : Nat) (sz : Bool) (m : Addr) (x : Ext) (s : State) : Host.Outcome State Fault Refusal :=
  atomOp (fun _ old v => some (atomPick sz false true old v)) sz false d a b m x .base s

/-- AFADD.f32, from Maelzeg 3.2 on: 4 bytes, one rounding (R185, R220, R221). -/
def execAfaddF32 (d a b : Nat) (m : Addr) (x : Ext) (s : State) : Host.Outcome State Fault Refusal :=
  atomOp (fun _ old v => some (rneF32 ((f32 old).add (f32 v)))) false false d a b m x (.since3 2) s

end Sys2Proof.Machine
end

