-- ==== Sys2Proof/Machine/Compare.lean ====
section
/-! DEFINITION. Compares and guard logic: majors 0x0C to 0x0E (R204 to R208). -/

namespace Sys2Proof.Machine

/-- Condition 0 of R204. -/
def execCmpEq (g a b : Nat) (s : State) : Host.Outcome State Fault Refusal :=
  cmpOp (condHolds 0) g a b s

/-- Condition 1 of R204. -/
def execCmpNe (g a b : Nat) (s : State) : Host.Outcome State Fault Refusal :=
  cmpOp (condHolds 1) g a b s

/-- Condition 2 of R204. -/
def execCmpLtI64 (g a b : Nat) (s : State) : Host.Outcome State Fault Refusal :=
  cmpOp (condHolds 2) g a b s

/-- Condition 3 of R204. -/
def execCmpLtN64 (g a b : Nat) (s : State) : Host.Outcome State Fault Refusal :=
  cmpOp (condHolds 3) g a b s

/-- Condition 4 of R204. -/
def execCmpGeI64 (g a b : Nat) (s : State) : Host.Outcome State Fault Refusal :=
  cmpOp (condHolds 4) g a b s

/-- Condition 5 of R204. -/
def execCmpGeN64 (g a b : Nat) (s : State) : Host.Outcome State Fault Refusal :=
  cmpOp (condHolds 5) g a b s

/-- Condition 6 of R204. -/
def execCmpTst (g a b : Nat) (s : State) : Host.Outcome State Fault Refusal :=
  cmpOp (condHolds 6) g a b s

/-- Condition 7 of R204. -/
def execCmpNtst (g a b : Nat) (s : State) : Host.Outcome State Fault Refusal :=
  cmpOp (condHolds 7) g a b s

/-- GAND (R207). -/
def execGand (d a b : Nat) (s : State) : Host.Outcome State Fault Refusal :=
  guardOp (fun x y => x && y) d a b s

/-- GOR (R207). -/
def execGor (d a b : Nat) (s : State) : Host.Outcome State Fault Refusal :=
  guardOp (fun x y => x || y) d a b s

/-- GXOR (R207). -/
def execGxor (d a b : Nat) (s : State) : Host.Outcome State Fault Refusal :=
  guardOp (fun x y => x != y) d a b s

/-- GANDN (R207). -/
def execGandn (d a b : Nat) (s : State) : Host.Outcome State Fault Refusal :=
  guardOp (fun x y => x && !y) d a b s

/-- GNOT (R207). -/
def execGnot (d a : Nat) (s : State) : Host.Outcome State Fault Refusal :=
  guardOp (fun x _ => !x) d a a s

/-- GSET (R207). -/
def execGset (d v : Nat) (s : State) : Host.Outcome State Fault Refusal :=
  guardOp (fun _ _ => v == 1) d 0 0 s

/-- FCMPG.eq.f32 (R206). -/
def execFcmpgEqF32 (g a b : Nat) (s : State) : Host.Outcome State Fault Refusal :=
  cmpOp (fun x y => fcondHolds 0 (f32Of x) (f32Of y)) g a b s

/-- FCMPG.ne.f32 (R206). -/
def execFcmpgNeF32 (g a b : Nat) (s : State) : Host.Outcome State Fault Refusal :=
  cmpOp (fun x y => fcondHolds 1 (f32Of x) (f32Of y)) g a b s

/-- FCMPG.lt.f32 (R206). -/
def execFcmpgLtF32 (g a b : Nat) (s : State) : Host.Outcome State Fault Refusal :=
  cmpOp (fun x y => fcondHolds 2 (f32Of x) (f32Of y)) g a b s

/-- FCMPG.le.f32 (R206). -/
def execFcmpgLeF32 (g a b : Nat) (s : State) : Host.Outcome State Fault Refusal :=
  cmpOp (fun x y => fcondHolds 3 (f32Of x) (f32Of y)) g a b s

/-- FCMPG.un.f32 (R206). -/
def execFcmpgUnF32 (g a b : Nat) (s : State) : Host.Outcome State Fault Refusal :=
  cmpOp (fun x y => fcondHolds 4 (f32Of x) (f32Of y)) g a b s

/-- CMPI (R205). -/
def execCmpi (imm : BitVec 8) (cond a g : Nat) (s : State) : Host.Outcome State Fault Refusal :=
  issue s .base 1 fun s =>
    let c := s.cur
    .ok (s.setCur ((c.latched (some a) none).setG g (condHolds cond (c.src a) (immC cond imm))))

end Sys2Proof.Machine
end

