-- ==== Sys2Proof/Machine/Activation.lean ====
section
/-! DEFINITION. The activation functions of R269, correctly rounded: exact where the function is algebraic, else by an
interval of 1,024 fraction bits whose two ends round alike (log 14). -/

namespace Sys2Proof.Machine

/-- One, in fixed point. -/
def fx1 : Nat := 2 ^ 1024

/-- The sum of the terms of e^y from the term `t` of number `n` on, each rounded down. -/
def expTerms (y : Nat) : Nat → Nat → Nat → Nat → Nat
  | 0, _, _, acc => acc
  | k + 1, n, t, acc => if t = 0 then acc else expTerms y k (n + 1) (t * y / (fx1 * n)) (acc + t)

/-- The square of an interval, `n` times. -/
def squareN : Nat → Nat × Nat → Nat × Nat
  | 0, p => p
  | n + 1, p => squareN n (p.1 * p.1 / fx1, p.2 * p.2 / fx1 + 1)

/-- Bounds of e^(x / 2^1024) for x / 2^1024 from 0 to 400: of a 2^13th part by its series, then squared 13 times. Fewer
than 200 terms are not zero, each at most one too small. -/
def expBounds (x : Nat) : Nat × Nat :=
  let y := x / 2 ^ 13
  squareN 13 (expTerms y 200 1 fx1 0, expTerms (y + 1) 200 1 fx1 0 + 200)

/-- The alternating series of arctan(1 / q), rounded down term by term. -/
def atanTerms (q : Nat) : Nat → Nat → Nat → Bool → Int → Int
  | 0, _, _, _, acc => acc
  | k + 1, n, t, neg, acc =>
    if t = 0 then acc
    else atanTerms q k (n + 2) (t / (q * q)) (!neg) (if neg then acc - (t / n : Nat) else acc + (t / n : Nat))

/-- π in fixed point, by Machin's formula, within 2^20 of its last place. -/
def fxPi : Nat := (16 * atanTerms 5 400 1 (fx1 / 5) false 0 - 4 * atanTerms 239 400 1 (fx1 / 239) false 0).toNat

/-- The sum of x^(2n+1) / (1 · 3 · … · (2n+1)), from a term on, each rounded down. -/
def phiTerms (x : Nat) : Nat → Nat → Nat → Nat → Nat
  | 0, _, _, acc => acc
  | k + 1, n, t, acc => if t = 0 then acc else phiTerms x k (n + 2) (t * x / fx1 * x / (fx1 * n)) (acc + t)

/-- Bounds of Φ(x / 2^1024) − 1/2 for x / 2^1024 from 0 to 20: φ(x) times the series. The slack covers every term of the
series, π and the square root. -/
def phiBounds (x : Nat) : Nat × Nat :=
  let sum := phiTerms x 1500 3 x 0
  let e := expBounds (x * x / fx1 / 2)
  let root := isqrt (2 * fxPi * fx1)
  let lo := sum * fx1 / (e.2 + 1) * fx1 / (root + 2 ^ 40)
  let hi := (sum + 2 ^ 400) * fx1 / e.1 * fx1 / (root - 2 ^ 40) + 1
  (lo, hi)

/-- The code that both ends of an interval of magnitudes lo / 2^k to hi / 2^k round to, scaled by m × 2^e, if it is one. -/
def roundBounds (f : FloatFmt) (r : Rnd) (neg : Bool) (lo hi m : Nat) (e : Int) : Option Nat :=
  let a := f.roundFin r neg (lo * m) (e - 1024)
  let b := f.roundFin r neg (hi * m) (e - 1024)
  if a = b ∧ 0 < lo then some a else none

/-- Bounds of 1 / (1 + e^−x), for a magnitude x and a sign. -/
def sigmBounds (neg : Bool) (x : Nat) : Nat × Nat :=
  let e := expBounds x
  if neg then (fx1 * fx1 / (fx1 + e.2), fx1 * fx1 / (fx1 + e.1) + 1)
  else (e.1 * fx1 / (fx1 + e.1), e.2 * fx1 / (fx1 + e.2) + 1)

/-- Bounds of tanh of a magnitude x. -/
def tanhBounds (x : Nat) : Nat × Nat :=
  let e := expBounds (2 * x)
  ((e.1 - fx1) * fx1 / (e.1 + fx1), (e.2 - fx1) * fx1 / (e.2 + fx1) + 1)

/-- Bounds of Φ(x). -/
def cdfBounds (neg : Bool) (x : Nat) : Nat × Nat :=
  let p := phiBounds x
  if neg then (fx1 / 2 - p.2, fx1 / 2 - p.1) else (fx1 / 2 + p.1, fx1 / 2 + p.2)

/-- Whether a magnitude m × 2^e is below 2^t, or at least `n`. -/
def magBelow (m : Nat) (e t : Int) : Bool := decide ((Nat.log2 m : Int) + e < t)

/-- Whether m × 2^e is greater than `n`. -/
def magAbove (m : Nat) (e : Int) (n : Nat) : Bool :=
  if 0 ≤ e then decide (n < m * 2 ^ e.toNat) else decide (n * 2 ^ (-e).toNat < m)

/-- m × 2^e in fixed point, for e not below −1,024. -/
def fxOf (m : Nat) (e : Int) : Nat := m * 2 ^ (e + 1024).toNat

/-- A magnitude just above or just below m × 2^e. -/
def nudge (neg up : Bool) (m : Nat) (e : Int) : FVal :=
  .fin neg (if up then m * 2 ^ 200 + 1 else m * 2 ^ 200 - 1) (e - 200)

/-- A magnitude below every format's. -/
def tiny (neg : Bool) : FVal := .fin neg 1 (-10000)

/-- A finite magnitude above every format's. -/
def huge : FVal := .fin false 1 10000

/-- What a function's value is at a finite non-zero x: a value that rounds as it does, or an interval of magnitudes over
2^1024, scaled by a factor m × 2^e. -/
inductive ActVal where
  | val (v : FVal)
  | range (neg : Bool) (b : Nat × Nat) (m : Nat) (e : Int)

/-- 1 / √(m × 2^e), with a sticky bit. -/
def rsqrtFin (m : Nat) (e : Int) : FVal :=
  let n := if e % 2 = 0 then m else 2 * m
  let h := if e % 2 = 0 then e else e - 1
  let q := 2 ^ 400 / n
  let r := isqrt q
  .fin false (2 * r + if r * r * n = 2 ^ 400 then 0 else 1) (-(h / 2) - 201)

/-- A function of R269 at a finite non-zero x. -/
def actFin (fn : Nat) (s : Bool) (m : Nat) (e : Int) : ActVal :=
  let x := fxOf m e
  let small := magBelow m e (-40)
  if fn = 0 then .val (if s then .zero false else .fin s m e)
  else if fn = 1 then
    if small then .val (nudge s (!s) m (e - 1))
    else if magAbove m e 20 then .val (if s then tiny true else nudge false false m e)
    else .range s (cdfBounds s x) m e
  else if fn = 2 then
    if small then .val (nudge s (!s) m (e - 1))
    else if magAbove m e 200 then .val (if s then tiny true else nudge false false m e)
    else .range s (sigmBounds s x) m e
  else if fn = 3 then
    if small then .val (nudge false (!s) 1 (-1))
    else if magAbove m e 200 then .val (if s then tiny false else nudge false false 1 0)
    else .range false (sigmBounds s x) 1 0
  else if fn = 4 then
    if small then .val (nudge s false m e)
    else if magAbove m e 200 then .val (nudge s false 1 0)
    else .range s (tanhBounds x) 1 0
  else if fn = 5 then
    if small then .val (nudge false (!s) 1 0)
    else if magAbove m e 200 then .val (if s then tiny false else huge)
    else
      let b := expBounds x
      .range false (if s then (fx1 * fx1 / b.2, fx1 * fx1 / b.1 + 1) else b) 1 0
  else if fn = 6 then .val ((FVal.fin false 1 0).div (.fin s m e))
  else .val (if s then .nan else rsqrtFin m e)

/-- A function of R269 at a zero, an infinity or NaN. -/
def actSpecial (fn : Nat) : FVal → FVal
  | .inf s =>
    if fn ≤ 2 then (if s then .zero (fn != 0) else .inf false)
    else if fn = 3 ∨ fn = 5 then (if s then .zero false else if fn = 3 then .fin false 1 0 else .inf false)
    else if fn = 4 then .fin s 1 0
    else if fn = 6 then .zero s
    else if s then .nan else .zero false
  | .fin s _ _ =>
    if fn = 0 then .zero false
    else if fn = 1 ∨ fn = 2 ∨ fn = 4 then .zero s
    else if fn = 3 then .fin false 1 (-1)
    else if fn = 5 then .fin false 1 0
    else .inf s
  | .nan => .nan

/-- TACT on one code of a float format: the exact value, rounded once (R269). -/
def actCode (fn fmt : Nat) (f : FloatFmt) (r : Rnd) (code : Nat) : Nat :=
  match f.decode code with
  | .fin s m e =>
    if m = 0 then f.round r (actSpecial fn (.fin s m e))
    else match actFin fn s m e with
      | .val v => f.round r v
      | .range neg b m e => (roundBounds f r neg b.1 b.2 m e).getD (Config.actValue fn fmt code % 2 ^ f.width)
  | v => f.round r (actSpecial fn v)

end Sys2Proof.Machine
end

