-- ==== Sys2Proof/Machine/RunVec.lean ====
section
/-! DEFINITION. Run lists: bringing a source to a length, aligning the runs of several sources, the merge and zero forms of
a masked operation, the canonical form and the run limit (R104, R227 to R235). -/

namespace Sys2Proof.Machine

/-- Runs of any kind of value, with their counts. -/
abbrev Runs (α : Type) := List (α × Nat)

/-- A vector register's runs. -/
def Ctx.vruns (c : Ctx) (n : Nat) : Runs Nat := (c.vreg n).map fun r => (r.val.toNat, r.len)

/-- A mask as a named operand: k0 is 2^22 true elements in 64 runs (R228). -/
def Ctx.kruns (c : Ctx) (n : Nat) : Runs Bool :=
  if n = 0 then List.replicate 64 (true, 65536) else (vget c.k n []).map fun r => (r.val, r.len)

/-- LEN of a run list (R227). -/
def runsLen {α : Type} (r : Runs α) : Nat := (r.map (·.2)).sum

/-- Runs of 65,536 followed by the remainder (R104). -/
def chunks {α : Type} (x : α) (n : Nat) : Runs α :=
  List.replicate (n / 65536) (x, 65536) ++ if n % 65536 = 0 then [] else [(x, n % 65536)]

/-- The part below position `n` (R230). -/
def cutRuns {α : Type} (n : Nat) : Runs α → Runs α
  | [] => []
  | (x, m) :: r => if n = 0 then [] else if n ≤ m then [(x, n)] else (x, m) :: cutRuns (n - m) r

/-- A source brought to length `n`; `z` is zero or false (R230). -/
def fitRuns {α : Type} [DecidableEq α] (z : α) (n : Nat) (r : Runs α) : Runs α :=
  if n ≤ runsLen r then cutRuns n r
  else
    let m := n - runsLen r
    match r.getLast? with
    | some (v, c) => if v = z then r.dropLast ++ (v, c + min m (65536 - c)) :: chunks z (m - min m (65536 - c)) else r ++ chunks z m
    | none => chunks z m

/-- Two run lists of one length, aligned: a segment ends where a run of either ends (R231). -/
def zipFuel {α β : Type} : Nat → Runs α → Runs β → Runs (α × β)
  | k + 1, (x, m) :: as, (y, n) :: bs =>
    ((x, y), min m n) ::
      zipFuel k (if m ≤ n then as else (x, m - n) :: as) (if n ≤ m then bs else (y, n - m) :: bs)
  | _, _, _ => []

/-- Two aligned run lists. -/
def zipRuns {α β : Type} (a : Runs α) (b : Runs β) : Runs (α × β) := zipFuel (a.length + b.length) a b

/-- Adjacent equal runs merged. -/
def mergeRuns {α : Type} [DecidableEq α] : Runs α → Runs α
  | [] => []
  | (x, m) :: r =>
    match mergeRuns r with
    | (y, n) :: t => if x = y then (x, m + n) :: t else (x, m) :: (y, n) :: t
    | [] => [(x, m)]

/-- The canonical form (R104). -/
def canon {α : Type} [DecidableEq α] (r : Runs α) : Runs α := (mergeRuns r).flatMap fun x => chunks x.1 x.2

/-- What stands at an element of a masked operation: its sources where it is active, else what the destination receives. -/
inductive Seg (α β : Type) where
  | active (x : α)
  | keep (y : β)

/-- The segments of an operation of length `n`: the prefix mask and, under merge, the old destination join the sources
(R231). `z` is what an inactive element receives under zero. -/
def segments {α β : Type} [DecidableEq β] (c : Ctx) (mask : Nat) (zero : Bool) (n : Nat) (src : Runs α) (old : Runs β) (z : β) :
    Runs (Seg α β) :=
  if mask = 0 then src.map fun x => (.active x.1, x.2)
  else
    let m := fitRuns false n (c.kruns mask)
    if zero then (zipRuns src m).map fun x => (if x.1.2 then .active x.1.1 else .keep z, x.2)
    else (zipRuns (zipRuns src m) (fitRuns z n old)).map fun x => (if x.1.1.2 then .active x.1.1.1 else .keep x.1.2, x.2)

/-- A source with no runs of its own, `n` elements long. -/
def plainRuns (n : Nat) : Runs Unit := if n = 0 then [] else [((), n)]

/-- The results of the active segments, and the others as they are (R231). -/
def applySegs {α β : Type} (op : α → β) (r : Runs (Seg α β)) : Runs β :=
  r.map fun x => match x.1 with
    | .active a => (op a, x.2)
    | .keep y => (y, x.2)

/-- FLT_RUNOVF for a result of `n` runs (R433). -/
def runOvf (n : Nat) : Trap := Trap.plain 0x04 (min n 511)

/-- FLT_RUNOVF for a LEN above 2^22 (R433). -/
def lenOvf : Trap := Trap.plain 0x04 0x8000

/-- A vector result within its limit (R231 to R233). -/
def vecResult (coal : Bool) (r : Runs Nat) : Except Trap (List Run) :=
  let r := if coal then canon r else r
  if 64 < r.length then .error (runOvf r.length) else .ok (r.map fun x => ⟨BitVec.ofNat 32 x.1, x.2⟩)

/-- A mask result, always canonical, within its limit (R228, R232, R233). -/
def maskResult (r : Runs Bool) : Except Trap (List KRun) :=
  let r := canon r
  if 128 < r.length then .error (runOvf r.length) else .ok (r.map fun x => ⟨x.1, x.2⟩)

/-- Length in words of an instruction with or without a prefix (R176). -/
def pfxWords (p : Pfx) : Nat := if p.present then 2 else 1

/-- FLT_RESERVED for a register value named by field b of the base word (R433). -/
def baseRegTrap (p : Pfx) : Trap := regTrap (if p.present then 40 else 8)

/-- A vector result is written, or its fault taken. -/
def setVec (s : State) (upd : Ctx → Ctx) (d : Nat) (r : Except Trap (List Run)) : Out :=
  match r with
  | .ok r => .ok (s.setCur ((upd s.cur).setV d r))
  | .error t => .trap t s

/-- A mask result is written, or its fault taken. -/
def setMask (s : State) (upd : Ctx → Ctx) (d : Nat) (r : Except Trap (List KRun)) : Out :=
  match r with
  | .ok r => .ok (s.setCur ((upd s.cur).setK d r))
  | .error t => .trap t s

/-- Two vector sources of length LEN(va) (R237). -/
def pairRuns (c : Ctx) (a b : Nat) : Runs (Nat × Nat) :=
  zipRuns (c.vruns a) (fitRuns 0 (runsLen (c.vruns a)) (c.vruns b))

/-- An element-wise instruction with a vector result, of length LEN(va) (R231). -/
def vecOp {α : Type} (src : Ctx → Runs α) (op : α → Nat) (k : Cls) (d a : Nat) (p : Pfx) (s : State) :
    Host.Outcome State Fault Refusal :=
  issue s k (pfxWords p) fun s =>
    let c := s.cur
    setVec s id d (vecResult p.coal
      (applySegs op (segments c p.mask p.zero (runsLen (c.vruns a)) (src c) (c.vruns d) 0)))

/-- An element-wise instruction with a mask result, of length `n` (R231, R238). -/
def maskOp {α : Type} (n : Ctx → Nat) (src : Ctx → Runs α) (op : α → Bool) (d : Nat) (p : Pfx) (s : State) :
    Host.Outcome State Fault Refusal :=
  issue s .base (pfxWords p) fun s =>
    let c := s.cur
    setMask s id d (maskResult
      (applySegs op (segments c p.mask p.zero (n c) (src c) (c.kruns d) false)))

end Sys2Proof.Machine
end

