-- ==== Sys2Proof/Machine/VecFp.lean ====
section
/-! DEFINITION. Run-vector floating point and conversions: major 0x20 (R239). -/

namespace Sys2Proof.Machine

/-- Round(x, M): to FP32 in the prefix's mode (R239). -/
def vround (p : Pfx) (v : FVal) : Nat := fmtF32.round (Rnd.of p.round) v

/-- FABS and FNEG on an FP32 code (R202). -/
def signF32 (f : Bool → Bool) (x : Nat) : Nat :=
  if (f32 x).isNan then 0x7FC00000 else x % 2 ^ 31 + put (b2n (f (x / 2 ^ 31 % 2 == 1))) 31

/-- A floating-point operation of two vectors. -/
def vflt2 (f : FVal → FVal → FVal) (d a b : Nat) (p : Pfx) (s : State) : Host.Outcome State Fault Refusal :=
  vecOp (fun c => pairRuns c a b) (fun x => vround p (f (f32 x.1) (f32 x.2))) .base d a p s

/-- A floating-point operation or conversion of one vector. -/
def vflt1 (f : Nat → Nat) (d a : Nat) (p : Pfx) (s : State) : Host.Outcome State Fault Refusal :=
  vecOp (fun c => c.vruns a) f .base d a p s

/-- VFADD.f32 (R239). -/
def execVfaddF32 (d a b : Nat) (p : Pfx) (s : State) : Host.Outcome State Fault Refusal :=
  vflt2 (FVal.add) d a b p s

/-- VFSUB.f32 (R239). -/
def execVfsubF32 (d a b : Nat) (p : Pfx) (s : State) : Host.Outcome State Fault Refusal :=
  vflt2 (fun x y => x.add y.neg) d a b p s

/-- VFMUL.f32 (R239). -/
def execVfmulF32 (d a b : Nat) (p : Pfx) (s : State) : Host.Outcome State Fault Refusal :=
  vflt2 (FVal.mul) d a b p s

/-- VFMA.f32: the addend is the vector FOURTH, or the old vd, which is then a source (R239). -/
def execVfmaF32 (d a b : Nat) (p : Pfx) (s : State) : Host.Outcome State Fault Refusal :=
  vecOp (fun c => zipRuns (pairRuns c a b) (fitRuns 0 (runsLen (c.vruns a)) (c.vruns (if p.f4v then p.fourth else d))))
    (fun x => vround p (((f32 x.1.1).mul (f32 x.1.2)).add (f32 x.2))) .base d a p s

/-- VFMIN.f32 (R202, R239). -/
def execVfminF32 (d a b : Nat) (p : Pfx) (s : State) : Host.Outcome State Fault Refusal :=
  vflt2 (FVal.min) d a b p s

/-- VFMAX.f32 (R202, R239). -/
def execVfmaxF32 (d a b : Nat) (p : Pfx) (s : State) : Host.Outcome State Fault Refusal :=
  vflt2 (FVal.max) d a b p s

/-- VFABS.f32 (R239). -/
def execVfabsF32 (d a : Nat) (p : Pfx) (s : State) : Host.Outcome State Fault Refusal :=
  vflt1 (signF32 fun _ => false) d a p s

/-- VFNEG.f32 (R239). -/
def execVfnegF32 (d a : Nat) (p : Pfx) (s : State) : Host.Outcome State Fault Refusal :=
  vflt1 (signF32 fun x => !x) d a p s

/-- VCVT.f32.i32 (R239). -/
def execVcvtF32I32 (d a : Nat) (p : Pfx) (s : State) : Host.Outcome State Fault Refusal :=
  vflt1 (fun x => vround p (.ofIntExact (intOf true 32 x))) d a p s

/-- VCVT.i32.f32 (R239). -/
def execVcvtI32F32 (d a : Nat) (p : Pfx) (s : State) : Host.Outcome State Fault Refusal :=
  vflt1 (fun x => (f32 x).toInt (Rnd.of p.round) true 32) d a p s

/-- VCVT.f32.n32 (R239). -/
def execVcvtF32N32 (d a : Nat) (p : Pfx) (s : State) : Host.Outcome State Fault Refusal :=
  vflt1 (fun x => vround p (.ofIntExact x)) d a p s

/-- VCVT.n32.f32 (R239). -/
def execVcvtN32F32 (d a : Nat) (p : Pfx) (s : State) : Host.Outcome State Fault Refusal :=
  vflt1 (fun x => (f32 x).toInt (Rnd.of p.round) false 32) d a p s

/-- VCVT.b16.f32 (R239). -/
def execVcvtB16F32 (d a : Nat) (p : Pfx) (s : State) : Host.Outcome State Fault Refusal :=
  vflt1 (fun x => fmtB16.round (Rnd.of p.round) (f32 x)) d a p s

/-- VCVT.f32.b16 (R239). -/
def execVcvtF32B16 (d a : Nat) (p : Pfx) (s : State) : Host.Outcome State Fault Refusal :=
  vflt1 (fun x => vround p (fmtB16.decode (x % 65536))) d a p s

end Sys2Proof.Machine
end

