-- ==== Sys2Proof/Machine/VecMisc.lean ====
section
/-! DEFINITION. Run-vector moves, construction, shape, reductions and scans: major 0x21 (R240 to R247). -/

namespace Sys2Proof.Machine

/-- A length or count from a register is at most 2^22 (R240, R438). -/
def lenLimit (p : Pfx) (w : Word) : Option Trap := trapIf (decide (2 ^ 22 < w.toNat)) (baseRegTrap p)

/-! ### Moves (R241) -/

/-- VMOV (R241). -/
def execVmov (d a : Nat) (p : Pfx) (s : State) : Host.Outcome State Fault Refusal :=
  vecOp (fun c => c.vruns a) id .base d a p s

/-- VSPLAT (R242). -/
def execVsplat (d a b : Nat) (p : Pfx) (s : State) : Host.Outcome State Fault Refusal :=
  issue s .base (pfxWords p) fun s =>
    let c := s.cur
    let n := (c.src b).toNat
    let v := wfld (c.src a) 31 0
    Out.first s [lenLimit p (c.src b)]
      (setVec s (·.latched (some a) (some b)) d (vecResult true
        (applySegs (fun _ => v) (segments c p.mask p.zero n (plainRuns n) (c.vruns d) 0))))

/-- The new runs of a VRUN: with COAL, the first of them first fills the last run of vd when its value is the same (R243). -/
def runAppend (coal : Bool) (old : Runs Nat) (v n : Nat) : Runs Nat :=
  match coal, old.getLast?, chunks v n with
  | true, some (u, c), (w, m) :: r =>
    if u = v then
      let f := min m (65536 - c)
      old.dropLast ++ (u, c + f) :: ((if m = f then [] else [(w, m - f)]) ++ r)
    else old ++ (w, m) :: r
  | _, _, new => old ++ new

/-- VRUN (R243, R438). -/
def execVrun (d a b : Nat) (p : Pfx) (s : State) : Host.Outcome State Fault Refusal :=
  issue s .base (pfxWords p) fun s =>
    let c := s.cur
    let n := (c.src b).toNat
    let old := c.vruns d
    Out.first s [trapIf (decide (2 ^ 22 < runsLen old + n)) lenOvf]
      (setVec s (·.latched (some a) (some b)) d (vecResult false (runAppend p.coal old (wfld (c.src a) 31 0) n)))

/-- VSEL: an inactive segment takes vb; ZERO has no effect (R240, R241). -/
def execVsel (d a b : Nat) (p : Pfx) (s : State) : Host.Outcome State Fault Refusal :=
  issue s .base (pfxWords p) fun s =>
    let c := s.cur
    let n := runsLen (c.vruns a)
    setVec s id d (vecResult p.coal (applySegs id (segments c p.mask false n (c.vruns a) (c.vruns b) 0)))

/-- VCOAL (R104, R241). -/
def execVcoal (d a : Nat) (p : Pfx) (s : State) : Host.Outcome State Fault Refusal :=
  issue s .base (pfxWords p) fun s => setVec s id d (vecResult true (s.cur.vruns a))

/-- The single elements of an active segment of VIOTA (R242). -/
def iotaRuns (v : Nat) : Nat → Runs (Seg Unit Nat) → Runs Nat
  | _, [] => []
  | e, (.active _, n) :: r => ((List.range n).map fun i => ((v + e + i) % 2 ^ 32, 1)) ++ iotaRuns v (e + n) r
  | e, (.keep y, n) :: r => (y, n) :: iotaRuns v (e + n) r

/-- Number of active elements. -/
def activeCount {α β : Type} (r : Runs (Seg α β)) : Nat :=
  (r.map fun x => match x.1 with
    | .active _ => x.2
    | .keep _ => 0).sum

/-- VIOTA; its active elements are distinct, so more than 511 of them need more than 511 runs (R242, R433). -/
def execViota (d a b : Nat) (p : Pfx) (s : State) : Host.Outcome State Fault Refusal :=
  issue s .base (pfxWords p) fun s =>
    let c := s.cur
    let n := (c.src b).toNat
    let v := wfld (c.src a) 31 0
    Out.first s [lenLimit p (c.src b)] <|
    let segs := segments c p.mask p.zero n (plainRuns n) (c.vruns d) 0
    Out.first s [trapIf (decide (511 < activeCount segs)) (runOvf 512)]
      (setVec s (·.latched (some a) (some b)) d (vecResult true (iotaRuns v 0 segs)))

/-- The active segments alone (R244, R246). -/
def activeRuns {α β : Type} (r : Runs (Seg α β)) : Runs α :=
  r.filterMap fun x => match x.1 with
    | .active a => some (a, x.2)
    | .keep _ => none

/-- VCOMP (R244). -/
def execVcomp (d a : Nat) (p : Pfx) (s : State) : Host.Outcome State Fault Refusal :=
  issue s .base (pfxWords p) fun s =>
    let c := s.cur
    let n := runsLen (c.vruns a)
    setVec s id d (vecResult p.coal
      (activeRuns (segments (β := Nat) c p.mask true n (c.vruns a) [] 0)))

/-- The walk of VEXP: active positions take va's elements in turn, and 0 past its end (R244). -/
def expRuns : Nat → Runs Nat → Runs (Seg Unit Nat) → Runs Nat
  | k + 1, va, (.keep y, n) :: r => (y, n) :: expRuns k va r
  | k + 1, [], (.active _, n) :: r => (0, n) :: expRuns k [] r
  | k + 1, (x, m) :: va, (.active u, n) :: r =>
    if m < n then (x, m) :: expRuns k va ((.active u, n - m) :: r)
    else (x, n) :: expRuns k (if m = n then va else (x, m - n) :: va) r
  | _, _, _ => []

/-- VEXP: N is the mask's length, or LEN(va) with k0 (R240, R244). -/
def execVexp (d a : Nat) (p : Pfx) (s : State) : Host.Outcome State Fault Refusal :=
  issue s .base (pfxWords p) fun s =>
    let c := s.cur
    let va := c.vruns a
    let n := if p.mask = 0 then runsLen va else runsLen (c.kruns p.mask)
    let segs := segments c p.mask p.zero n (plainRuns n) (c.vruns d) 0
    setVec s id d (vecResult p.coal (expRuns (va.length + segs.length) va segs))

/-! ### Reductions (R105, R246) -/

/-- The canonical runs of the active elements of va (R105). -/
def redRuns (c : Ctx) (a mask : Nat) : Runs Nat :=
  canon (activeRuns (segments (β := Nat) c mask true (runsLen (c.vruns a)) (c.vruns a) [] 0))

/-- A reduction: the runs combined from an initial value, and the result's form (R246). -/
def reduceOp {α : Type} (init : Word → α) (f : α → Nat → Nat → α) (res : α → Word) (d a b : Nat) (p : Pfx) (s : State) :
    Host.Outcome State Fault Refusal :=
  issue s .base (pfxWords p) fun s =>
    let c := s.cur
    let acc := (redRuns c a p.mask).foldl (fun acc x => f acc x.1 x.2) (init (c.src b))
    .ok (s.setCur ((c.latched none (some b)).setS d (res acc)))

/-- s[b][31:0]. -/
def low32 (w : Word) : Nat := wfld w 31 0

/-- An FP32 code that is one operand of a minimum or maximum (R246). -/
def pickF32 (f : FVal → FVal → FVal) (x y : Nat) : Nat := rneF32 (f (f32 x) (f32 y))

/-- VRSUM.i32 (R246). -/
def execVrsumI32 (d a b : Nat) (p : Pfx) (s : State) : Host.Outcome State Fault Refusal :=
  reduceOp id (fun (acc : Word) v n => acc + BitVec.ofInt 64 (intOf true 32 v * n)) id d a b p s

/-- VRSUM.f32 (R105, R246). -/
def execVrsumF32 (d a b : Nat) (p : Pfx) (s : State) : Host.Outcome State Fault Refusal :=
  reduceOp low32 (fun acc v n => rneF32 ((f32 acc).addPos ((f32 v).mul (.ofIntExact n)))) (BitVec.ofNat 64) d a b p s

/-- The smaller of two 32-bit codes. -/
def vsmall32 (signed : Bool) (x y : Nat) : Nat := if intOf signed 32 y < intOf signed 32 x then y else x

/-- The larger of two 32-bit codes. -/
def vlarge32 (signed : Bool) (x y : Nat) : Nat := if intOf signed 32 x < intOf signed 32 y then y else x

/-- VRMIN.i32 (R246). -/
def execVrminI32 (d a b : Nat) (p : Pfx) (s : State) : Host.Outcome State Fault Refusal :=
  reduceOp low32 (fun acc v _ => vsmall32 true acc v) (fun x => sextW 32 (BitVec.ofNat 64 x)) d a b p s

/-- VRMIN.n32 (R246). -/
def execVrminN32 (d a b : Nat) (p : Pfx) (s : State) : Host.Outcome State Fault Refusal :=
  reduceOp low32 (fun acc v _ => vsmall32 false acc v) (BitVec.ofNat 64) d a b p s

/-- VRMIN.f32 (R246). -/
def execVrminF32 (d a b : Nat) (p : Pfx) (s : State) : Host.Outcome State Fault Refusal :=
  reduceOp low32 (fun acc v _ => pickF32 FVal.min acc v) (BitVec.ofNat 64) d a b p s

/-- VRMAX.i32 (R246). -/
def execVrmaxI32 (d a b : Nat) (p : Pfx) (s : State) : Host.Outcome State Fault Refusal :=
  reduceOp low32 (fun acc v _ => vlarge32 true acc v) (fun x => sextW 32 (BitVec.ofNat 64 x)) d a b p s

/-- VRMAX.n32 (R246). -/
def execVrmaxN32 (d a b : Nat) (p : Pfx) (s : State) : Host.Outcome State Fault Refusal :=
  reduceOp low32 (fun acc v _ => vlarge32 false acc v) (BitVec.ofNat 64) d a b p s

/-- VRMAX.f32 (R246). -/
def execVrmaxF32 (d a b : Nat) (p : Pfx) (s : State) : Host.Outcome State Fault Refusal :=
  reduceOp low32 (fun acc v _ => pickF32 FVal.max acc v) (BitVec.ofNat 64) d a b p s

/-- VRAND (R246). -/
def execVrand (d a b : Nat) (p : Pfx) (s : State) : Host.Outcome State Fault Refusal :=
  reduceOp low32 (fun acc v _ => acc &&& v) (BitVec.ofNat 64) d a b p s

/-- VROR (R246). -/
def execVror (d a b : Nat) (p : Pfx) (s : State) : Host.Outcome State Fault Refusal :=
  reduceOp low32 (fun acc v _ => acc ||| v) (BitVec.ofNat 64) d a b p s

/-- VRXOR (R246). -/
def execVrxor (d a b : Nat) (p : Pfx) (s : State) : Host.Outcome State Fault Refusal :=
  reduceOp low32 (fun acc v n => if n % 2 = 1 then acc ^^^ v else acc) (BitVec.ofNat 64) d a b p s

/-! ### Scans (R106, R247) -/

/-- The steps of one active segment of value `x` and `n` elements: single elements until a step changes nothing, then the
rest at once. After `k` changes the result has more than 511 runs whatever follows. -/
def scanSeg (f : Nat → Nat → Nat) (x : Nat) : Nat → Nat → Nat → Runs Nat × Nat
  | 0, acc, n => ([(acc, n)], acc)
  | _, acc, 0 => ([], acc)
  | k + 1, acc, n + 1 =>
    let y := f acc x
    if y = acc then ([(acc, n + 1)], acc)
    else
      let (r, e) := scanSeg f x k y n
      ((y, 1) :: r, e)

/-- A scan over its segments (R247). -/
def scanRuns (f : Nat → Nat → Nat) : Nat → Runs (Seg Nat Nat) → Runs Nat
  | _, [] => []
  | acc, (.keep y, n) :: r => (y, n) :: scanRuns f acc r
  | acc, (.active x, n) :: r =>
    let (q, e) := scanSeg f x 600 acc n
    q ++ scanRuns f e r

/-- A scan (R247). -/
def scanOp (f : Nat → Nat → Nat) (d a b : Nat) (p : Pfx) (s : State) : Host.Outcome State Fault Refusal :=
  issue s .base (pfxWords p) fun s =>
    let c := s.cur
    let segs := segments c p.mask p.zero (runsLen (c.vruns a)) (c.vruns a) (c.vruns d) 0
    setVec s (·.latched none (some b)) d (vecResult true (scanRuns f (low32 (c.src b)) segs))

/-- VSSUM.i32 (R247). -/
def execVssumI32 (d a b : Nat) (p : Pfx) (s : State) : Host.Outcome State Fault Refusal :=
  scanOp (fun acc x => (acc + x) % 2 ^ 32) d a b p s

/-- VSSUM.f32: an exact zero sum is +0 (R87, R247). -/
def execVssumF32 (d a b : Nat) (p : Pfx) (s : State) : Host.Outcome State Fault Refusal :=
  scanOp (fun acc x => rneF32 ((f32 acc).addPos (f32 x))) d a b p s

/-- VSMIN.i32 (R247). -/
def execVsminI32 (d a b : Nat) (p : Pfx) (s : State) : Host.Outcome State Fault Refusal :=
  scanOp (vsmall32 true) d a b p s

/-- VSMAX.i32 (R247). -/
def execVsmaxI32 (d a b : Nat) (p : Pfx) (s : State) : Host.Outcome State Fault Refusal :=
  scanOp (vlarge32 true) d a b p s

/-! ### Shape (R245) -/

/-- VLEN (R245). -/
def execVlen (d a : Nat) (p : Pfx) (s : State) : Host.Outcome State Fault Refusal :=
  issue s .base (pfxWords p) fun s => .ok (s.setCur (s.cur.setS d (BitVec.ofNat 64 (runsLen (s.cur.vruns a)))))

/-- VNRUN (R245). -/
def execVnrun (d a : Nat) (p : Pfx) (s : State) : Host.Outcome State Fault Refusal :=
  issue s .base (pfxWords p) fun s => .ok (s.setCur (s.cur.setS d (BitVec.ofNat 64 (s.cur.vruns a).length)))

/-- VSETLEN (R245). -/
def execVsetlen (d a b : Nat) (p : Pfx) (s : State) : Host.Outcome State Fault Refusal :=
  issue s .base (pfxWords p) fun s =>
    let c := s.cur
    Out.first s [lenLimit p (c.src b)]
      (setVec s (·.latched none (some b)) d (vecResult p.coal (fitRuns 0 (c.src b).toNat (c.vruns a))))

/-- Element `e` of a run list. -/
def runElem {α : Type} (e : Nat) : Runs α → Option α
  | [] => none
  | (x, n) :: r => if e < n then some x else runElem (e - n) r

/-- VTOS (R245). -/
def execVtos (d a b : Nat) (p : Pfx) (s : State) : Host.Outcome State Fault Refusal :=
  issue s .base (pfxWords p) fun s =>
    let c := s.cur
    .ok (s.setCur ((c.latched none (some b)).setS d
      (BitVec.ofNat 64 ((runElem (c.src b).toNat (c.vruns a)).getD 0))))

end Sys2Proof.Machine
end

