-- ==== Sys2Proof/Machine/Mask.lean ====
section
/-! DEFINITION. Mask instructions: major 0x22 (R248 to R250). -/

namespace Sys2Proof.Machine

/-- A logic operation of two masks, of length LEN(ka) (R248). -/
def klogic (f : Bool → Bool → Bool) (d a b : Nat) (p : Pfx) (s : State) : Host.Outcome State Fault Refusal :=
  maskOp (fun c => runsLen (c.kruns a))
    (fun c => zipRuns (c.kruns a) (fitRuns false (runsLen (c.kruns a)) (c.kruns b))) (fun x => f x.1 x.2) d p s

/-- KAND (R248). -/
def execKand (d a b : Nat) (p : Pfx) (s : State) : Host.Outcome State Fault Refusal :=
  klogic (fun x y => x && y) d a b p s

/-- KOR (R248). -/
def execKor (d a b : Nat) (p : Pfx) (s : State) : Host.Outcome State Fault Refusal :=
  klogic (fun x y => x || y) d a b p s

/-- KXOR (R248). -/
def execKxor (d a b : Nat) (p : Pfx) (s : State) : Host.Outcome State Fault Refusal :=
  klogic (fun x y => x != y) d a b p s

/-- KANDN (R248). -/
def execKandn (d a b : Nat) (p : Pfx) (s : State) : Host.Outcome State Fault Refusal :=
  klogic (fun x y => x && !y) d a b p s

/-- KNOT (R248). -/
def execKnot (d a : Nat) (p : Pfx) (s : State) : Host.Outcome State Fault Refusal :=
  maskOp (fun c => runsLen (c.kruns a)) (fun c => c.kruns a) (fun x => !x) d p s

/-- KMOV (R248). -/
def execKmov (d a : Nat) (p : Pfx) (s : State) : Host.Outcome State Fault Refusal :=
  maskOp (fun c => runsLen (c.kruns a)) (fun c => c.kruns a) id d p s

/-- The running parity over the runs of a mask (R249). -/
def parityRuns : Bool → Runs Bool → Runs Bool
  | _, [] => []
  | par, (false, n) :: r => (par, n) :: parityRuns par r
  | par, (true, n) :: r =>
    ((List.range n).map fun i => (par != (i % 2 == 0), 1)) ++ parityRuns (par != (n % 2 == 1)) r

/-- Number of true elements. -/
def trueCount (r : Runs Bool) : Nat := (r.map fun x => if x.1 then x.2 else 0).sum

/-- KPXOR, from Maelzeg 3.1 on; every true element starts a run, so more than 511 of them need more than 511 (R185, R249, R433). -/
def execKpxor (d a b : Nat) (p : Pfx) (s : State) : Host.Outcome State Fault Refusal :=
  issue s (.since3 1) (pfxWords p) fun s =>
    let c := s.cur
    let ka := c.kruns a
    Out.first s [trapIf (decide (511 < trueCount ka)) (runOvf 512)]
      (setMask s (·.latched none (some b)) d (maskResult (parityRuns (wbit (c.src b) 0) ka)))

/-- KTOS, from Maelzeg 3.1 on (R185, R250). -/
def execKtos (d a b : Nat) (p : Pfx) (s : State) : Host.Outcome State Fault Refusal :=
  issue s (.since3 1) (pfxWords p) fun s =>
    let c := s.cur
    let bits := (List.range 64).map fun j => if (runElem ((c.src b).toNat + j) (c.kruns a)).getD false then 2 ^ j else 0
    .ok (s.setCur ((c.latched none (some b)).setS d (BitVec.ofNat 64 bits.sum)))

/-- STOK, from Maelzeg 3.1 on (R185, R250, R438). -/
def execStok (d a b : Nat) (p : Pfx) (s : State) : Host.Outcome State Fault Refusal :=
  issue s (.since3 1) (pfxWords p) fun s =>
    let c := s.cur
    let n := (c.src b).toNat
    Out.first s [trapIf (decide (64 < n)) (baseRegTrap p)]
      (setMask s (·.latched (some a) (some b)) d (maskResult ((List.range n).map fun j => (wbit (c.src a) j, 1))))

/-- KPOPC (R248). -/
def execKpopc (d a : Nat) (p : Pfx) (s : State) : Host.Outcome State Fault Refusal :=
  issue s .base (pfxWords p) fun s => .ok (s.setCur (s.cur.setS d (BitVec.ofNat 64 (trueCount (s.cur.kruns a)))))

/-- KLEN (R248). -/
def execKlen (d a : Nat) (p : Pfx) (s : State) : Host.Outcome State Fault Refusal :=
  issue s .base (pfxWords p) fun s => .ok (s.setCur (s.cur.setS d (BitVec.ofNat 64 (runsLen (s.cur.kruns a)))))

end Sys2Proof.Machine
end

