-- ==== Sys2Proof/Machine/VecMem.lean ====
section
/-! DEFINITION. Run-vector memory: major 0x23 (R251 to R255, R344, R438). -/

namespace Sys2Proof.Machine

/-- The positions of the active elements (R252). -/
def activeIdx {α β : Type} : Nat → Runs (Seg α β) → List Nat
  | _, [] => []
  | e, (.active _, n) :: r => (List.range n).map (e + ·) ++ activeIdx (e + n) r
  | e, (.keep _, n) :: r => activeIdx (e + n) r

/-- Before the accesses of an instruction, its core's own switches of the banks they reach are performed (R116). -/
def settleAll (s : State) (space csel : Nat) (as : List Word) : State :=
  as.foldl (fun s a => settleFor s s.who space csel a) s

/-- The access kind that an element of GLOBAL finds with its leaf (R431, R436, R458). -/
def kindElem (s : State) (space acc : Nat) (a : Word) : Option Trap × State :=
  if space < 2 then (none, s)
  else match translateAny s (dieOf s.curCore) s.me.pid (va48 a) with
    | (.ok t, s) => ((kindOf .vmem t).map (·.trap acc a), s)
    | (.error _, s) => (none, s)

/-- Step 6 of R431 for every access in turn, before any is performed. -/
def checkAll (space csel lg acc : Nat) : List Word → State → Option Trap × State
  | [], s => (none, s)
  | a :: as, s =>
    match check6 s s.who .vmem space csel a (2 ^ lg) lg acc with
    | some t => (some t, s)
    | none => match kindElem s space acc a with
      | (some t, s) => (some t, s)
      | (none, s) => checkAll space csel lg acc as s

/-- Elements of 2^lg bytes are read in order (R252, R254). -/
def loadElems (space csel lg : Nat) : List Word → List Nat → State → (List Nat → State → Out) → Out
  | [], vs, s, f => f vs.reverse s
  | a :: as, vs, s, f =>
    (loadPiece s s.who .vmem space csel a (2 ^ lg)).run 1 a fun bs s => loadElems space csel lg as (bytesToNat bs :: vs) s f

/-- Elements at addresses: settled, checked, read. -/
def vload (s : State) (space csel lg : Nat) (as : List Word) (f : List Nat → State → Out) : Out :=
  let (t, s) := checkAll space csel lg 1 as (settleAll s space csel as)
  Out.first s [t] (loadElems space csel lg as [] s f)

/-- The pieces of stores of elements of 2^lg bytes, every one checked before any is performed (R255, R446). -/
def storeElems (space csel lg : Nat) : List (Word × Nat) → List Piece → State → (List Piece → State → Out) → Out
  | [], ps, s, f => f ps.reverse s
  | (a, v) :: es, ps, s, f =>
    match storePieces s s.who .vmem space csel a 2 0 (natToBytes (2 ^ lg) v) with
    | (.error e, s) => .trap (e.trap 2 a) s
    | (.ok p, s) => storeElems space csel lg es (p.reverse ++ ps) s f

/-- Elements at addresses are stored in order. -/
def vstore (s : State) (space csel lg : Nat) (es : List (Word × Nat)) (f : State → Out) : Out :=
  let (t, s) := checkAll space csel lg 2 (es.map (·.1)) (settleAll s space csel (es.map (·.1)))
  Out.first s [t]
    (storeElems space csel lg es [] s fun ps s =>
      (sendPieces s s.who (s.ctxid s.curCore s.curSlot) s.cur.pc space ps).run 2 0 fun _ s => f s)

/-- A load that would open a fifth vector window waits at issue (R344). -/
def windowFree (s : State) (ahead : Nat) (f : Out) : Out :=
  if ahead ≠ 0 ∧ 4 ≤ (s.cur.pend.filter (·.isVec)).length then .wait s else f

/-- The values read put in their places: one for each active element. -/
def fillElems : Runs (Seg Unit Nat) → List Nat → Runs Nat
  | [], _ => []
  | (.active _, n) :: r, vs => (vs.take n).map (·, 1) ++ fillElems r (vs.drop n)
  | (.keep y, n) :: r, vs => (y, n) :: fillElems r vs

/-- The values read put in their places: one for each active segment (R254). -/
def fillSegs {α : Type} : Runs (Seg α Nat) → List Nat → Runs Nat
  | [], _ => []
  | (.active _, n) :: r, vs => (vs.headD 0, n) :: fillSegs r (vs.drop 1)
  | (.keep y, n) :: r, vs => (y, n) :: fillSegs r vs

/-- A vector result is placed by its lookahead, or its fault taken (R75, R255). -/
def putVec (s : State) (upd : Ctx → Ctx) (ahead d : Nat) (r : Except Trap (List Run)) : Out :=
  match r with
  | .ok r => .ok (s.setCur ((upd s.cur).placeV ahead d r))
  | .error t => .trap t s

/-- The base address of a VMEM access (R251). -/
def vbase (c : Ctx) (a : Nat) (m : Addr) : Word := c.src a + offValue m.off

/-- VLD (R252). -/
def execVld (d a b w mask : Nat) (zero : Bool) (m : Addr) (x : Ext) (s : State) : Host.Outcome State Fault Refusal :=
  issueG s .base (offWords m.off) x fun s => windowFree s x.ahead <| ordered s x false fun s =>
    let c := s.cur
    let n := (c.src b).toNat
    let segs := segments c mask zero n (plainRuns n) (c.vruns d) 0
    Out.first s [trapIf (decide (2 ^ 22 < n)) (regTrap 8)]
      (vload s m.space m.csel w ((activeIdx 0 segs).map fun e => vbase c a m + BitVec.ofNat 64 (e * 2 ^ w)) fun vs s =>
        putVec s (·.latched (some a) (some b)) x.ahead d (vecResult true (fillElems segs vs)))

/-- The active elements of vd with their positions. -/
def elemVals {α : Type} (f : α → Nat → Word × Nat) : Nat → Runs (Seg α Nat) → List (Word × Nat)
  | _, [] => []
  | e, (.active v, n) :: r => (List.range n).map (fun i => f v (e + i)) ++ elemVals f (e + n) r
  | e, (.keep _, n) :: r => elemVals f (e + n) r

/-- VST (R252). -/
def execVst (d a w mask : Nat) (m : Addr) (x : Ext) (s : State) : Host.Outcome State Fault Refusal :=
  issueG s .base (offWords m.off) x fun s => ordered s x (x.ord == 2) fun s =>
    let c := s.cur
    let segs := segments c mask true (runsLen (c.vruns d)) (c.vruns d) ([] : Runs Nat) 0
    vstore s m.space m.csel w
      (elemVals (fun v e => (vbase c a m + BitVec.ofNat 64 (e * 2 ^ w), v)) 0 segs) fun s =>
        .ok (s.setCur (s.cur.latched (some a) none))

/-- The run that a record holds (R253). -/
def recordRun (v : Nat) : Run := ⟨BitVec.ofNat 32 v, fld v 47 32 + 1⟩

/-- The record of a run (R253). -/
def runRecord (r : Run) : Nat := r.val.toNat + put (r.len - 1) 32

/-- The alignment of ea that the run form asks for, whatever the number of records (R253, R438). -/
def runAlign (acc : Nat) (ea : Word) : Option Trap := trapIf (ea.toNat % 8 != 0) (alignTrap 3 acc ea)

/-- VLDR (R253, R438). -/
def execVldr (d a b : Nat) (m : Addr) (x : Ext) (s : State) : Host.Outcome State Fault Refusal :=
  issueG s .base (offWords m.off) x fun s => windowFree s x.ahead <| ordered s x false fun s =>
    let c := s.cur
    let n := (c.src b).toNat
    Out.first s [trapIf (decide (64 < n)) (regTrap 8), runAlign 1 (vbase c a m)]
      (vload s m.space m.csel 3 ((List.range n).map fun i => vbase c a m + BitVec.ofNat 64 (8 * i)) fun vs s =>
        let r := vs.map recordRun
        putVec s (·.latched (some a) (some b)) x.ahead d
          (if 2 ^ 22 < (r.map (·.len)).sum then .error lenOvf else .ok r))

/-- VSTR (R253, R438). -/
def execVstr (d a : Nat) (m : Addr) (x : Ext) (s : State) : Host.Outcome State Fault Refusal :=
  issueG s .base (offWords m.off) x fun s => ordered s x (x.ord == 2) fun s =>
    let c := s.cur
    let rs := c.vreg d
    Out.first s [runAlign 2 (vbase c a m)]
      (vstore s m.space m.csel 3
        ((List.range rs.length).map fun i =>
          (vbase c a m + BitVec.ofNat 64 (8 * i), runRecord (rs.getD i ⟨0, 1⟩))) fun s =>
            .ok (s.setCur (s.cur.latched (some a) none)))

/-- The address of an index value (R254). -/
def gatherAddr (base : Word) (iscale idx : Nat) : Word := base + BitVec.ofNat 64 (idx * 2 ^ iscale)

/-- VGATH: one read for each active segment (R254). -/
def execVgath (d a b w mask : Nat) (zero : Bool) (iscale : Nat) (m : Addr) (x : Ext) (s : State) :
    Host.Outcome State Fault Refusal :=
  issueG s .base (offWords m.off) x fun s => windowFree s x.ahead <| ordered s x false fun s =>
    let c := s.cur
    let segs := segments c mask zero (runsLen (c.vruns b)) (c.vruns b) (c.vruns d) 0
    vload s m.space m.csel w ((activeRuns segs).map fun i => gatherAddr (vbase c a m) iscale i.1) fun vs s =>
      putVec s (·.latched (some a) none) x.ahead d (vecResult true (fillSegs segs vs))

/-- VSCAT: the elements of one segment write one value at one address, so it is written once (R254). -/
def execVscat (d a b w mask iscale : Nat) (m : Addr) (x : Ext) (s : State) : Host.Outcome State Fault Refusal :=
  issueG s .base (offWords m.off) x fun s => ordered s x (x.ord == 2) fun s =>
    let c := s.cur
    let n := runsLen (c.vruns d)
    let segs := segments c mask true n (zipRuns (c.vruns d) (fitRuns 0 n (c.vruns b))) ([] : Runs Nat) 0
    vstore s m.space m.csel w
      ((activeRuns segs).map fun e => (gatherAddr (vbase c a m) iscale e.1.2, e.1.1)) fun s =>
        .ok (s.setCur (s.cur.latched (some a) none))

end Sys2Proof.Machine
end

