-- ==== Sys2Proof/Machine/Tiles.lean ====
section
/-! DEFINITION. What every tile instruction shares: tags and formats, the checks of its tile sources, the destination's
physical tile, guards and retirement stamps (R63, R65, R256 to R261, R282, R393, R396, R433, R453, R454). -/

namespace Sys2Proof.Machine

/-! ### Tags and formats (R258, R261) -/

/-- ROW. -/
def tagRow : BitVec 7 := 0x00
/-- PLANE with a plane count and a sign plane. -/
def tagPlane (p : Nat) (sgn : Bool) : BitVec 7 := BitVec.ofNat 7 (32 + 2 * p + b2n sgn)
/-- PART. -/
def tagPart : BitVec 7 := 0x40
/-- ACC. -/
def tagAcc : BitVec 7 := 0x60

/-- A tag from its fields KIND, PCNT and SGN (R258). -/
def tagOf (kind pcnt : Nat) (sgn : Bool) : BitVec 7 := BitVec.ofNat 7 (32 * kind + 2 * pcnt + b2n sgn)

/-- Element width of an FMT (R261). -/
def tileWidth (fmt : Nat) : Nat := [8, 8, 16, 16, 32, 32, 16, 16, 32, 8, 8, 6, 6, 4, 4, 4].getD fmt 8

/-- Elements of a row of a width (R256, R261). -/
def rowCap (w : Nat) : Nat := if w = 6 then 256 else 2048 / w

/-- The float format of an FMT, none for an integer one (R261). -/
def tileFloat (fmt : Nat) : Option FloatFmt :=
  if fmt = 6 then some fmtB16 else if fmt = 7 then some fmtH16 else if fmt = 8 then some fmtF32
  else if fmt = 9 then some fmtE4M3 else if fmt = 10 then some fmtE5M2 else if fmt = 11 then some fmtE2M3
  else if fmt = 12 then some fmtE3M2 else if fmt = 13 then some fmtE2M1 else none

/-- Whether an integer FMT is signed (R261). -/
def tileSigned (fmt : Nat) : Bool := fmt == 0 || fmt == 2 || fmt == 4 || fmt == 14

/-- The elements of width `w` of a row (R256). -/
def rowElems (w : Nat) (r : Row) : List Nat := unpackElems w (rowCap w) r.toNat

/-- A row made of elements of width `w`; the bytes that a 6-bit row leaves over are zero (R256). -/
def rowOf (w : Nat) (es : List Nat) : Row := BitVec.ofNat 2048 (packElems w es)

/-- Element `i` of width `w` of a row. -/
def rowElem (w : Nat) (r : Row) (i : Nat) : Nat := bitElem r.toNat w i

/-- The bytes of a row. -/
def rowBytes (r : Row) : List Byte := natToBytes 256 r.toNat

/-- The row that 256 bytes make. -/
def bytesRow (bs : List Byte) : Row := BitVec.ofNat 2048 (bytesToNat bs)

/-! ### Sources (R258, R433, R453, R454) -/

/-- A tile source: its operand number of R433 (0 A, 1 B, 2 D, 3 TSB), the tile, the tags accepted, and which of the
tile's 8-byte words the instruction reads. -/
structure TSrc where
  op : Nat
  tile : Nat
  tagOk : BitVec 7 → Bool
  reads : Nat → Bool

/-- A source of which every word is read. -/
def TSrc.whole (op tile : Nat) (tagOk : BitVec 7 → Bool) : TSrc := ⟨op, tile, tagOk, fun _ => true⟩

/-- The words of a tile that hold bits `lo` to `hi` − 1 of each row. -/
def bitsRead (lo hi : Nat) (i : Nat) : Bool := decide (64 * (i % 32) < hi) && decide (lo < 64 * (i % 32) + 64)

/-- The words of a tile whose bytes a result that writes elements `lo` to `hi` − 1 of width `w` copies from before. -/
def bitsKept (w lo hi : Nat) (i : Nat) : Bool :=
  decide (64 * (i % 32) < rowCap w * w) && !(decide (lo * w ≤ 64 * (i % 32)) && decide (64 * (i % 32) < hi * w))

/-- A tile of the moving core. -/
def State.tile (s : State) (i : Nat) : Option Tile := vget s.me.tiles i none

/-- Rows of a tile of the moving core; zero where it is dead (R259). -/
def State.rows (s : State) (i : Nat) : Vector Row 64 :=
  match s.tile i with
  | some t => t.rows
  | none => Vector.replicate 64 0

/-- Step 5 of R431 for one source: dead, then its tag. -/
def TSrc.trap (x : TSrc) (s : State) : Option Trap :=
  match s.tile x.tile with
  | none => some (Trap.plain 0x06 (put x.op 12 + put x.tile 8))
  | some t => if x.tagOk t.tag then none else some (Trap.plain 0x05 (put x.op 12 + put x.tile 8 + t.tag.toNat))

/-- A read of a failing word of a tile (R453, R454). -/
def TSrc.bad (x : TSrc) (s : State) : Option Trap :=
  match s.tile x.tile with
  | none => none
  | some t =>
    if t.bad.any x.reads then
      some { Trap.plain 0x0E (0x5000 + put x.tile 8) with unit := some (bankUnit s.curCore (t.phys / 8)) }
    else none

/-! ### Destinations (R63) -/

/-- Rename stops for a cycle (R61, R64, R66, R399). -/
def renameStops (s : State) : Out := .wait (s.bumpEv s.curCore 4 1)

/-- A tile instruction's whole result: a free physical tile takes it, and the one mapped before goes back; none is free
while it must wait (R63, R64). -/
def putTile (s : State) (d : Nat) (tag : BitVec 7) (rows : Vector Row 64) (t1 : Option (Nat × Bool)) : Out :=
  match freePhys s.me with
  | none => renameStops s
  | some p =>
    .ok (s.setMe { s.me with tiles := s.me.tiles.setIfInBounds d (some ⟨p, tag, rows, t1, s.tick, []⟩) })

/-! ### Stamps (R393, R396) -/

/-- Whether the tick of this step lies in a capture window, as far as the markers so far tell (R398). -/
def State.inWindow (s : State) : Bool := s.openCount != 0

/-- What a stamp says of an instruction: its major and minor, the ticks at which its register sources were written, and
whether it is a TLD, whose T1 is its own (R395, R396). -/
structure Op where
  major : Nat
  minor : Nat
  regs : Ctx → List Nat
  isTld : Bool

/-- A tile instruction with no register source. -/
def Op.of (major minor : Nat) : Op := ⟨major, minor, fun _ => [], false⟩

/-- The tick at which the scalar register of a source field was written; a constant and a latch have none (log 43). -/
def Ctx.wroteS (c : Ctx) (n : Nat) : List Nat := if n = 0 then [] else (c.sw[n]?).toList

/-- The T1 of the youngest TLD among some tiles. -/
def youngest : List (Option Tile) → Option (Nat × Bool)
  | [] => none
  | t :: ts =>
    match t.bind (·.t1), youngest ts with
    | some a, some b => some (if a.1 < b.1 then b else a)
    | some a, none => some a
    | none, b => b

/-- The ticks at which the sources of an instruction were written (R396). -/
def sourceTicks (s : State) (o : Op) (x : Ext) (srcs : List TSrc) : List Nat :=
  (srcs.filterMap fun t => (s.tile t.tile).map (·.written)) ++ o.regs s.cur ++
    if x.g then (s.cur.gw[x.gslot]?).toList else []

/-- The stamp of a tile instruction that retires at this step: renamed in this step too, no younger TST is renamed before it
(R396; log 4). One with no source has them ready at its issue. -/
def stampOf (s : State) (o : Op) (disc : Bool) (x : Ext) (srcs : List TSrc) : TStamp :=
  let now := (s.tick, s.inWindow)
  let t1 := if disc || o.isTld then now else (youngest (srcs.map fun t => s.tile t.tile)).getD now
  let ready := match sourceTicks s o x srcs with
    | [] => s.tick
    | ts => ts.foldl max 0
  { pc := s.cur.pc, major := o.major, minor := o.minor, pid := s.me.pid, disc := disc, t1 := t1.1,
    t2 := if disc then s.tick else ready, t3 := s.tick, t4 := s.tick, t5 := some s.tick, win := t1.2 }

/-- Whether the moving core keeps retirement stamps (R393). -/
def State.stamping (s : State) : Bool := wbit s.me.stampBase 63 && wbit s.me.stampBase 62

/-- Whether a store of the instruction of a stamp has still to be written at its bank (R147). -/
def TStamp.storing (k : Core) (t : TStamp) : Bool := k.posted.any fun p => p.slot == 15 && p.pc == t.pc && p.born == t.t3 && p.isPad

/-- A stamp joins the records to be written; T5 is to come while a byte of its TST is not performed at core scope (R396,
R397). -/
def addStamp (s : State) (t : TStamp) : State :=
  if s.stamping then
    s.setMe { s.me with stamps := s.me.stamps ++ [.tile (if t.storing s.me then { t with t5 := none } else t)] }
  else s

/-! ### Issue -/

/-- A tile instruction of `words` words: discarded on a false guard (R282), else, after `pre`, the checks of its own
registers (step 4 of R431), its sources (step 5), `addr` (step 6), its failing words, its effect, and its stamp. `ev`
counts `busy` cycles of its engine (R262, R399). -/
def issueT (s : State) (o : Op) (words : Nat) (x : Ext) (srcs : List TSrc) (pre : State → State)
    (regs addr : State → Option Trap) (ev busy : Nat) (body : State → Out) : Host.Outcome State Fault Refusal :=
  issue s .ctl words fun s =>
    if guardFalse s x then .ok (addStamp s (stampOf s o true x []))
    else
      let s := pre s
      Out.first s ([regs s] ++ srcs.map (TSrc.trap · s) ++ [addr s] ++ srcs.map (TSrc.bad · s))
        (match body s with
          | .ok s' => .ok (addStamp (if busy = 0 then s' else s'.bumpEv s'.curCore ev busy) (stampOf s o false x srcs))
          | o => o)

/-- A tile instruction with tile sources and no other check. -/
def tileOp (o : Op) (x : Ext) (srcs : List TSrc) (ev busy : Nat) (body : State → Out) (s : State) :
    Host.Outcome State Fault Refusal :=
  issueT s o 3 x srcs id (fun _ => none) (fun _ => none) ev busy body

/-- The tag of a live tile. -/
def State.tag (s : State) (i : Nat) : BitVec 7 :=
  match s.tile i with
  | some t => t.tag
  | none => 0

/-- A previous mapping that a partial result copies: a source when it is live (R259, R454). -/
def oldSrc (s : State) (d : Nat) (reads : Nat → Bool) : List TSrc :=
  if (s.tile d).isSome then [⟨2, d, fun _ => true, reads⟩] else []

end Sys2Proof.Machine
end

