-- ==== Sys2Proof/Machine/TileVec.lean ====
section
/-! DEFINITION. The tile vector engine: major 0x28 (R267 to R274). -/

namespace Sys2Proof.Machine

/-- Every element of a row, of width `w`, replaced by `f` of it. -/
def mapRow (w v : Nat) (f : Nat → Nat) (r : Row) : Row := rowOf v ((rowElems w r).map f)

/-- The elements of two rows combined. -/
def zipRow (w : Nat) (f : Nat → Nat → Nat) (a b : Row) : Row := rowOf w ((rowElems w a).zipWith f (rowElems w b))

/-- Rows made one by one. -/
def mkRows (f : Nat → Row) : Vector Row 64 := Vector.ofFn fun (i : Fin 64) => f i

/-- Row `i` of some rows. -/
def rowAt (v : Vector Row 64) (i : Nat) : Row := vget v i 0

/-! ### Element operations (R268) -/

/-- Whether a tag may be read with an FMT: ROW, or ACC with .f32, or PART with .i32 (R268, R270). -/
def elemTag (fmt : Nat) (t : BitVec 7) : Bool := t == tagRow || (t == tagAcc && fmt == 8) || (t == tagPart && fmt == 4)

/-- An element operation: `f` on floats, `g` on integers. -/
def elemOp (f : Rnd → FloatFmt → FVal → FVal → Nat) (g : Int → Int → Int) (fmt rnd : Nat) (sat : Bool) (x y : Nat) : Nat :=
  match tileFloat fmt with
  | some fl => f (Rnd.of rnd) fl (fl.decode x) (fl.decode y)
  | none =>
    let w := tileWidth fmt
    let sg := tileSigned fmt
    let r := g (intOf sg w x) (intOf sg w y)
    wrapInt w (if sat then satInt sg w r else r)

/-- TADD, TSUB, TEMUL, TMAX and TMIN, of this minor (R268). -/
def tileElem (minor : Nat) (f : Rnd → FloatFmt → FVal → FVal → Nat) (g : Int → Int → Int) (d a b fmt rnd : Nat) (sat : Bool) (x : Ext)
    (s : State) : Host.Outcome State Fault Refusal :=
  tileOp (.of 0x28 minor) x [TSrc.whole 0 a (elemTag fmt), TSrc.whole 1 b fun t => t == s.tag a] 3 16 (fun s =>
    putTile s d (s.tag a)
      (mkRows fun i => zipRow (tileWidth fmt) (elemOp f g fmt rnd sat) (rowAt (s.rows a) i) (rowAt (s.rows b) i)) none) s

/-- TADD (R268). -/
def execTadd (d a b fmt rnd : Nat) (sat : Bool) (x : Ext) (s : State) : Host.Outcome State Fault Refusal :=
  tileElem 0 (fun r f x y => f.round r (x.add y)) (fun x y => x + y) d a b fmt rnd sat x s

/-- TSUB (R268). -/
def execTsub (d a b fmt rnd : Nat) (sat : Bool) (x : Ext) (s : State) : Host.Outcome State Fault Refusal :=
  tileElem 1 (fun r f x y => f.round r (x.add y.neg)) (fun x y => x - y) d a b fmt rnd sat x s

/-- TEMUL (R268). -/
def execTemul (d a b fmt rnd : Nat) (sat : Bool) (x : Ext) (s : State) : Host.Outcome State Fault Refusal :=
  tileElem 2 (fun r f x y => f.round r (x.mul y)) (fun x y => x * y) d a b fmt rnd sat x s

/-- TMAX (R268). -/
def execTmax (d a b fmt rnd : Nat) (sat : Bool) (x : Ext) (s : State) : Host.Outcome State Fault Refusal :=
  tileElem 3 (fun r f x y => f.round r (x.max y)) (fun x y => if x < y then y else x) d a b fmt rnd sat x s

/-- TMIN (R268). -/
def execTmin (d a b fmt rnd : Nat) (sat : Bool) (x : Ext) (s : State) : Host.Outcome State Fault Refusal :=
  tileElem 4 (fun r f x y => f.round r (x.min y)) (fun x y => if y < x then y else x) d a b fmt rnd sat x s

/-! ### Activations (R269) -/

/-- TACT on one element. -/
def actElem (fn fmt rnd x : Nat) : Nat :=
  match tileFloat fmt with
  | some fl => actCode fn fmt fl (Rnd.of rnd) x
  | none => if intOf true (tileWidth fmt) x < 0 then 0 else x

/-- TACT (R269). -/
def execTact (d a fmt rnd fn : Nat) (x : Ext) (s : State) : Host.Outcome State Fault Refusal :=
  tileOp (.of 0x28 5) x [TSrc.whole 0 a fun t => t == tagRow || (t == tagAcc && fmt == 8)] 3 (if fn = 0 then 16 else 32) (fun s =>
    putTile s d (s.tag a)
      (mkRows fun i => mapRow (tileWidth fmt) (tileWidth fmt) (actElem fn fmt rnd) (rowAt (s.rows a) i)) none) s

/-! ### Conversion, transpose, plane forming (R270 to R272) -/

/-- One element converted from format `sf` to `df` (R85, R90 to R93, R270). -/
def cvtElem (sf df rnd : Nat) (sat : Bool) (x : Nat) : Nat :=
  let w := tileWidth df
  match tileFloat sf, tileFloat df with
  | some a, some b => b.round (Rnd.of rnd) (a.decode x)
  | some a, none => (a.decode x).toInt (Rnd.of rnd) (tileSigned df) w
  | none, some b => b.round (Rnd.of rnd) (.ofIntExact (intOf (tileSigned sf) (tileWidth sf) x))
  | none, none =>
    let v := intOf (tileSigned sf) (tileWidth sf) x
    wrapInt w (if sat then satInt (tileSigned df) w v else v)

/-- A row of TCVT: the destination elements it computes stand at `SEL × n`, or at 0 when it narrows the count (R270). -/
def cvtRow (sf df rnd : Nat) (sat : Bool) (sel : Nat) (r old : Row) : Row :=
  let cs := rowCap (tileWidth sf)
  let cd := rowCap (tileWidth df)
  let n := min cs cd
  let src := rowElems (tileWidth sf) r
  if cd ≤ cs then rowOf (tileWidth df) ((slice src (sel * n) n).map (cvtElem sf df rnd sat))
  else rowOf (tileWidth df) (splice (rowElems (tileWidth df) old) (sel * n) ((slice src 0 n).map (cvtElem sf df rnd sat)))

/-- TCVT (R259, R270). -/
def execTcvt (d a fmt rnd dfmt : Nat) (sat : Bool) (sel : Nat) (x : Ext) (s : State) : Host.Outcome State Fault Refusal :=
  let ws := tileWidth fmt
  let wd := tileWidth dfmt
  let n := min (rowCap ws) (rowCap wd)
  let old := rowCap ws < rowCap wd
  let reads := if old then bitsRead 0 (n * ws) else bitsRead (sel * n * ws) ((sel + 1) * n * ws)
  tileOp (.of 0x28 6) x (⟨0, a, elemTag fmt, reads⟩ :: if old then oldSrc s d (bitsKept wd (sel * n) ((sel + 1) * n)) else []) 3 16 (fun s =>
    putTile s d tagRow (mkRows fun i => cvtRow fmt dfmt rnd sat sel (rowAt (s.rows a) i) (rowAt (s.rows d) i)) none) s

/-- TTRN: element (i, SEL × 64 + j) becomes element (j, SEL × 64 + i) (R259, R271). -/
def execTtrn (d a fmt sel : Nat) (x : Ext) (s : State) : Host.Outcome State Fault Refusal :=
  let w := tileWidth fmt
  let ok (t : BitVec 7) : Bool := t == tagRow || ((t == tagPart || t == tagAcc) && w == 32)
  tileOp (.of 0x28 7) x (⟨0, a, ok, bitsRead (sel * 64 * w) ((sel + 1) * 64 * w)⟩ ::
      if rowCap w = 64 then [] else oldSrc s d (bitsKept w (sel * 64) ((sel + 1) * 64))) 3 32 (fun s =>
    putTile s d (s.tag a)
      (mkRows fun i => rowOf w (splice (rowElems w (rowAt (s.rows d) i)) (sel * 64)
        ((List.range 64).map fun j => rowElem w (rowAt (s.rows a) j) (sel * 64 + i)))) none) s

/-- Planes and sign plane of a plane-mode format (R97, R257). -/
def planeSpec (f : Nat) : Nat × Bool :=
  ([(1, false), (2, false), (4, false), (4, false), (4, true), (6, true), (8, false), (8, false), (9, true)] :
    List (Nat × Bool)).getD f (1, false)

/-- Width of a slot, and KCAP (R257). -/
def planeSlot (f : Nat) : Nat :=
  let p := (planeSpec f).1 + b2n (planeSpec f).2
  if p ≤ 1 then 2048 else if p ≤ 2 then 1024 else if p ≤ 4 then 512 else if p ≤ 8 then 256 else 128

/-- Element width of a plane-mode format in a ROW tile (R256, R261). -/
def planeWidth (f : Nat) : Nat := [1, 2, 4, 4, 4, 6, 8, 8, 6].getD f 8

/-- Bit `q` of the planes of a code: magnitude planes, or two's-complement bits, then the sign plane (R257). -/
def planeBit (f : Nat) (c : Int) (q : Nat) : Nat :=
  let p := (planeSpec f).1
  if (planeSpec f).2 then (if q < p then c.natAbs / 2 ^ q % 2 else b2n (decide (c < 0)))
  else wrapInt p c / 2 ^ q % 2

/-- A row of TPLANE (R257, R272). -/
def planeRow (f sel : Nat) (r : Row) : Row :=
  let cap := planeSlot f
  let codes := (List.range cap).map fun k => planeCode f (rowElem (planeWidth f) r (sel * cap + k))
  let slots := (List.range ((planeSpec f).1 + b2n (planeSpec f).2)).map fun q => packElems 1 (codes.map fun c => planeBit f c q)
  BitVec.ofNat 2048 (packElems cap slots)

/-- TPLANE (R272). -/
def execTplane (d a pf sel : Nat) (x : Ext) (s : State) : Host.Outcome State Fault Refusal :=
  let n := planeSlot pf * planeWidth pf
  tileOp (.of 0x28 8) x [⟨0, a, (· == tagRow), bitsRead (sel * n) ((sel + 1) * n)⟩] 3 32 (fun s =>
    putTile s d (tagPlane (planeSpec pf).1 (planeSpec pf).2) (mkRows fun i => planeRow pf sel (rowAt (s.rows a) i)) none) s

/-! ### Tiles and run vectors (R273, R274) -/

/-- One step of a TRED: operation 0 sum, 1 max, 2 min (R273). -/
def redStep (fmt op x y : Nat) : Nat :=
  match tileFloat fmt with
  | some fl =>
    let a := fl.decode x
    let b := fl.decode y
    fl.round .rne (if op = 0 then a.add b else if op = 1 then a.max b else a.min b)
  | none =>
    let sg := tileSigned fmt
    if op = 0 then (x + y) % 2 ^ 32
    else if op = 1 then (if intOf sg 32 x < intOf sg 32 y then y else x)
    else if intOf sg 32 y < intOf sg 32 x then y else x

/-- A line of 64 elements reduced; a maximum or minimum with a NaN anywhere is the canonical NaN (R273). -/
def redLine (fmt op : Nat) : List Nat → Nat
  | [] => 0
  | x :: xs => xs.foldl (redStep fmt op) x

/-- TRED: rows with DIR 0, columns with DIR 1 (R273). -/
def execTred (d a fmt : Nat) (dir : Bool) (op : Nat) (x : Ext) (s : State) : Host.Outcome State Fault Refusal :=
  tileOp (.of 0x28 9) x [TSrc.whole 0 a fun t => t == tagRow || t == tagPart || t == tagAcc] 3 16 (fun s =>
    let rows := s.rows a
    let line (i : Nat) : List Nat :=
      (List.range 64).map fun j => if dir then rowElem 32 (rowAt rows j) i else rowElem 32 (rowAt rows i) j
    let r := canon ((List.range 64).map fun i => (redLine fmt op (line i), 1))
    .ok (s.setCur (s.cur.setV d (r.map fun y => ⟨BitVec.ofNat 32 y.1, y.2⟩)))) s

/-- The tag of a TBCAST: kinds row, part and acc (R274). -/
def castTag (kind : Nat) : BitVec 7 := if kind = 2 then tagPart else if kind = 3 then tagAcc else tagRow

/-- TBCAST: an element fills a row with DIR 0, or every row takes the elements with DIR 1 (R230, R274). -/
def execTbcast (d a fmt kind : Nat) (dir : Bool) (x : Ext) (s : State) : Host.Outcome State Fault Refusal :=
  let w := tileWidth fmt
  let n := if dir then rowCap w else 64
  tileOp ⟨0x28, 10, fun c => c.vw[a]?.toList, false⟩ x [] 3 16 (fun s =>
    let v := fitRuns 0 n (s.cur.vruns a)
    let e (i : Nat) : Nat := (runElem i v).getD 0 % 2 ^ w
    putTile s d (castTag kind)
      (mkRows fun i => rowOf w (if dir then (List.range n).map e else List.replicate (rowCap w) (e i))) none) s

end Sys2Proof.Machine
end

