-- ==== Sys2Proof/Machine/Matrix.lean ====
section
/-! DEFINITION. The matrix engine and the scale stage: majors 0x26 and 0x27 (R97 to R102, R275 to R280). -/

namespace Sys2Proof.Machine

/-- The code at a position of a row of planes (R97, R257). -/
def planeGet (f : Nat) (r : Row) (pos : Nat) : Int :=
  let p := (planeSpec f).1
  let slot := planeSlot f
  let bit (q : Nat) : Nat := b2n (r.getLsbD (q * slot + pos))
  let m := packElems 1 ((List.range p).map bit)
  if (planeSpec f).2 then (if bit p = 1 then -(m : Int) else m)
  else intOf (f == 1 || f == 2 || f == 6) p m

/-- The sum of code products of one element (R98, R276). -/
def mmaSum (fa fb k ka kb : Nat) (a b : Row) : Int :=
  ((List.range k).map fun i => planeGet fa a (ka + i) * planeCode fb (rowElem (planeWidth fb) b (kb + i))).sum

/-- Whether a word of a PLANE tile holds a position from `lo` to `hi` − 1 of some slot. -/
def planeReads (f lo hi : Nat) (i : Nat) : Bool :=
  (List.range ((planeSpec f).1 + b2n (planeSpec f).2)).any fun q => bitsRead (q * planeSlot f + lo) (q * planeSlot f + hi) i

/-- MMA (R276). -/
def execMma (d a b fa fb : Nat) (z : Bool) (km1 kao kbo : Nat) (x : Ext) (s : State) : Host.Outcome State Fault Refusal :=
  let k := km1 + 1
  let wb := planeWidth fb
  let srcs : List TSrc := [⟨0, a, (· == tagPlane (planeSpec fa).1 (planeSpec fa).2), planeReads fa (8 * kao) (8 * kao + k)⟩,
    ⟨1, b, (· == tagRow), bitsRead (8 * kbo * wb) ((8 * kbo + k) * wb)⟩]
  tileOp (.of 0x26 0) x (srcs ++ if z then [] else [TSrc.whole 2 d (· == tagPart)]) 1 ((k * (planeSpec fa).1 + 15) / 16) (fun s =>
    putTile s d tagPart
      (mkRows fun i => rowOf 32 ((List.range 64).map fun j =>
        let old := if z then 0 else intOf true 32 (rowElem 32 (rowAt (s.rows d) i) j)
        wrapInt 32 (old + mmaSum fa fb k (8 * kao) (8 * kbo) (rowAt (s.rows a) i) (rowAt (s.rows b) j)))) none) s

/-- A float-mode format: FMT of R261, and the group size of R100. -/
def mmfFmt (f : Nat) : Nat := [9, 10, 6, 7, 8].getD f 8

/-- Products per group (R100). -/
def mmfGroup (f : Nat) : Nat := if f = 4 then 4 else 8

/-- The group updates of one accumulator: `n` groups at most (R100). -/
def mmfUpdate (g : Nat) : Nat → Nat → List FVal → Nat
  | 0, acc, _ => acc
  | _, acc, [] => acc
  | n + 1, acc, ps => mmfUpdate g n (groupUpdate (f32 acc :: ps.take g)) (ps.drop g)

/-- MMF (R277). -/
def execMmf (d a b fa : Nat) (z : Bool) (km1 kao kbo : Nat) (x : Ext) (s : State) : Host.Outcome State Fault Refusal :=
  let k := km1 + 1
  let fmt := mmfFmt fa
  let w := tileWidth fmt
  let fl := (tileFloat fmt).getD fmtF32
  let srcs : List TSrc := [⟨0, a, (· == tagRow), bitsRead (8 * kao * w) ((8 * kao + k) * w)⟩,
    ⟨1, b, (· == tagRow), bitsRead (8 * kbo * w) ((8 * kbo + k) * w)⟩]
  tileOp (.of 0x26 1) x (srcs ++ if z then [] else [TSrc.whole 2 d (· == tagAcc)]) 1 (if fa < 2 then k else if fa = 4 then 8 * k else 2 * k)
    (fun s => putTile s d tagAcc
      (mkRows fun i => rowOf 32 ((List.range 64).map fun j =>
        let ps := (List.range k).map fun q =>
          (fl.decode (rowElem w (rowAt (s.rows a) i) (8 * kao + q))).mul
            (fl.decode (rowElem w (rowAt (s.rows b) j) (8 * kbo + q)))
        mmfUpdate (mmfGroup fa) k (if z then 0 else rowElem 32 (rowAt (s.rows d) i) j) ps)) none) s

/-- SCAC (R101, R279). -/
def execScac (d a b : Nat) (sfmt : Bool) (q tsb ca cb : Nat) (x : Ext) (s : State) : Host.Outcome State Fault Refusal :=
  let scale (c : Nat) : FVal := if sfmt then scaleE8M0 c else scaleE3M5 c
  tileOp (.of 0x27 0) x [TSrc.whole 0 a (· == tagPart), ⟨1, b, (· == tagRow), fun i => i % 32 == ca / 8⟩,
      TSrc.whole 2 d (· == tagAcc), ⟨3, tsb, (· == tagRow), fun i => i % 32 == cb / 8⟩] 2 2 (fun s =>
    putTile s d tagAcc
      (mkRows fun i => rowOf 32 ((List.range 64).map fun j =>
        scacElem (rowElem 32 (rowAt (s.rows d) i) j) (rowElem 32 (rowAt (s.rows a) i) j)
          (scale (rowElem 8 (rowAt (s.rows b) i) ca)) (scale (rowElem 8 (rowAt (s.rows tsb) j) cb)) q)) none) s

/-- SCAL (R102, R280). -/
def execScal (d a b : Nat) (x : Ext) (s : State) : Host.Outcome State Fault Refusal :=
  tileOp ⟨0x27, 1, fun c => c.wroteS a ++ c.wroteS b, false⟩ x [TSrc.whole 2 d (· == tagAcc)] 2 2 (fun s =>
    let ba := fmtB16.decode (wfld (s.cur.src a) 15 0)
    let bb := fmtB16.decode (wfld (s.cur.src b) 15 0)
    match putTile s d tagAcc (mkRows fun i => mapRow 32 32 (fun v => scalElem v ba bb) (rowAt (s.rows d) i)) none with
    | .ok s => .ok (s.setCur (s.cur.latched (some a) (some b)))
    | o => o) s

end Sys2Proof.Machine
end

