-- ==== Sys2Proof/Machine/Engines.lean ====
section
/-! DEFINITION. Sending asynchronous commands and reading the timeline counters: majors 0x29 to 0x2C (R162, R163, R283,
R285, R287 to R289, R292, R294, R301, R302, R306, R422, R423, R440, R441, R466, R483). -/

namespace Sys2Proof.Machine

/-! ### The checks before a command is sent (R440, R441) -/

/-- Alignment of an operand address, then its range's first and last byte (R433, R436, R440). -/
def cmdRange (space : Nat) (a : Word) (n lg acc : Nat) : List (Option Trap) :=
  let out (e : Word) : Bool := !spaceOk space e
  [trapIf (a.toNat % 2 ^ lg != 0) (alignTrap lg acc a),
   trapIf (decide (0 < n) && (out a || out (a + BitVec.ofNat 64 (n - 1)))) (Trap.at 0x08 0x0001 acc a)]

/-- The address under a space and core-select mode that reaches a pad byte, for a core (R110, R111). -/
def padAddr (core space csel key : Nat) : Option Nat :=
  let o := keyBank key * 131072 + keyOff key
  let c := keyHome key % 8
  if space = 0 then (if keyHome key = core then some o else none)
  else if padOf (keyHome key) ≠ padOf core then none
  else if csel = 1 then some (o / 8 * 64 + c * 8 + o % 8)
  else some (c * 2097152 + o)

/-- Whether a byte lies in a range, by the byte reached (R72, R288). -/
def inRange (core sp csel dsp dcsel : Nat) (a dst : Word) (n : Nat) : Bool :=
  if sp = 2 ∨ dsp = 2 then sp == dsp && decide ((a - dst).toNat < n)
  else spaceOk sp a &&
    match padAddr core dsp dcsel (padOfAddr core sp csel a) with
    | some x => decide ((BitVec.ofNat 64 x - dst).toNat < n)
    | none => false

/-- Whether a CPYW's cell lies in the destination range (R288). -/
def cellInside (core wsp wcs dsp dcs : Nat) (cell dst : Word) (n : Nat) : Bool :=
  (List.range 8).any fun i => inRange core wsp wcs dsp dcs (cell + BitVec.ofNat 64 i) dst n

/-- Whether a GLOBAL operand lies in host memory or the Tandem window (R162). -/
def farOperand (s : State) (space : Nat) (a : Word) : Bool :=
  space == 2 && canonical a &&
    match (translate s (dieOf s.curCore) s.me.pid (va48 a)).1 with
    | .ok t => !isAlias t.leaf && (regionOf t.pa == .host || regionOf t.pa == .tandem)
    | .error _ => false

/-- Whether a page that `n` bytes from an address touch lies in host memory or the Tandem window. Pages are 64 KiB or more. -/
def farPages (s : State) (a : Word) : Nat → Nat → Bool
  | 0, _ => false
  | _, 0 => false
  | k + 1, n =>
    let m := 65536 - a.toNat % 65536
    farOperand s 2 a || farPages s (a + BitVec.ofNat 64 m) k (n - m)

/-- Whether a range reaches host memory or the Tandem window (R162). -/
def farRange (s : State) (space : Nat) (a : Word) (n : Nat) : Bool := space == 2 && farPages s a (n / 65536 + 2) n

/-! ### Sending (R162, R163, R283) -/

/-- Counter `tc` of a core. -/
def Core.tcOf (k : Core) (tc : Nat) : TCounter := vget k.tcs tc TCounter.reset

/-- It becomes `x`. -/
def Core.setTc (k : Core) (tc : Nat) (x : TCounter) : Core := { k with tcs := k.tcs.setIfInBounds tc x }

/-- The command that the moving context sends: numbered ISSUED + 1 (R163). -/
def sentCmd (s : State) (tc : Nat) (op : CmdOp) (a b len : Word) (notify : Option (Nat × Nat)) : Cmd :=
  let c := s.cur
  { tc := tc, num := (s.me.tcOf tc).issued + 1, op := op, a := a, b := b, len := len, notify := notify, pc := c.pc,
    ctxid := s.ctxid s.curCore s.curSlot, group := c.group, vcore := c.vcore, priv := c.priv, stage := .sent,
    off := 0, word := none, cellAt := 0, fault := none }

/-- COLLs that a participant of a group has sent (R302). -/
def collSent (s : State) (pid group v : Nat) : Nat :=
  match s.collSeq.find? fun x => x.1 == pid && x.2.1 == group && x.2.2.1 == v with
  | some x => x.2.2.2
  | none => 0

/-- One more is sent. -/
def collBump (s : State) (pid group v : Nat) : State :=
  { s with collSeq := (pid, group, v, collSent s pid group v + 1) ::
      s.collSeq.filter fun x => !(x.1 == pid && x.2.1 == group && x.2.2.1 == v) }

/-- A command is sent: it joins the core's commands, ISSUED goes up by one, and a COLL is counted in its participant's
sequence (R163, R302). -/
def sendCmd (s : State) (c : Cmd) : State :=
  let k := s.me
  let t := k.tcOf c.tc
  let s := s.setMe { k.setTc c.tc { t with issued := c.num } with cmds := k.cmds ++ [c] }
  match c.op with
  | .coll .. => collBump s k.pid c.group c.vcore
  | _ => s

/-- A command is sent once every older access is performed at its scope (R69, R162). -/
def sendAfter (s : State) (far : Bool) (x y : Option Nat) (c : State → Cmd) : Out :=
  afterScope s (if far then 4 else 3) fun s =>
    let cmd := c s
    let s := sendCmd s cmd
    .ok (s.setCur (s.cur.latched x y))

/-- The notification fields of a command (R289). -/
def notifyOf (nv : Bool) (nreg ncore : Nat) : Option (Nat × Nat) := if nv then some (nreg, ncore) else none

/-- Length of CPY and CPYW in words (R178, R285). -/
def clenWords : CLen → Nat
  | .reg _ => 3
  | .lit _ => 5

/-- The length operand (R285). -/
def clenValue (l : CLen) (c : Ctx) : Word :=
  match l with
  | .reg r => c.sreg r
  | .lit w => w

/-- A copy: its checks in the order of R431, then its sending (R285 to R288). `cell` is the write-pointer cell of CPYW:
space, core-select mode, address. -/
def copyOp (len : CLen) (a b ssp scs dsp dcs tc : Nat) (note : Option (Nat × Nat))
    (cell : Ctx → Option (Nat × Nat × Word)) (x : Ext) (s : State) : Host.Outcome State Fault Refusal :=
  issueG s .base (clenWords len) x fun s =>
    let c := s.cur
    let src := c.src a
    let dst := c.src b
    let l := clenValue len c
    let n := l.toNat
    let inside := match cell c with
      | some (sp, cs, w) => cellInside s.curCore sp cs dsp dcs w dst n
      | none => false
    let cellTraps := match cell c with
      | some (sp, _, w) => cmdRange sp w 8 3 6
      | none => []
    let far := farRange s ssp src n || farRange s dsp dst n ||
      match cell c with
      | some (sp, _, w) => farOperand s sp w
      | none => false
    Out.first s
      ([trapIf inside (regTrap 77)] ++ cmdRange ssp src n 3 5 ++ cmdRange dsp dst n 3 6 ++
        [trapIf (n % 8 != 0) (alignTrap 3 7 l)] ++ cellTraps)
      (sendAfter s far (some a) (some b) fun s => sentCmd s tc (.copy ssp scs dsp dcs (cell c)) src dst l note)

/-- CPY (R285, R286). -/
def execCpy (len : CLen) (a b ssp scs dsp dcs tc : Nat) (nv : Bool) (nreg ncore : Nat) (x : Ext) (s : State) :
    Host.Outcome State Fault Refusal :=
  copyOp len a b ssp scs dsp dcs tc (notifyOf nv nreg ncore) (fun _ => none) x s

/-- CPYW (R165, R285, R286, R288). -/
def execCpyw (len : CLen) (a b ssp scs dsp dcs tc : Nat) (nv : Bool) (nreg ncore wreg wsp wcs : Nat) (x : Ext)
    (s : State) : Host.Outcome State Fault Refusal :=
  copyOp len a b ssp scs dsp dcs tc (notifyOf nv nreg ncore) (fun c => some (wsp, wcs, c.sreg wreg)) x s

/-- XFM: the slots are looked at by the engine (R294, R441, R470). -/
def execXfm (a b dlay slay tc xop i1 i2 : Nat) (i1v i2v : Bool) (rnd : Nat) (x : Ext) (s : State) :
    Host.Outcome State Fault Refusal :=
  issueG s .base 3 x fun s =>
    let c := s.cur
    sendAfter s true (some a) (some b) fun s =>
      sentCmd s tc (.xfm xop slay dlay (if i1v then some i1 else none) (if i2v then some i2 else none) rnd (a != 0) (b != 0))
        (c.src a) (c.src b) 0 none

/-- LAYV (R292). -/
def execLayv (a slot tc : Nat) (x : Ext) (s : State) : Host.Outcome State Fault Refusal :=
  issueG s .base 3 x fun s =>
    let c := s.cur
    Out.first s (cmdRange 0 (c.src a) 64 6 5)
      (sendAfter s false (some a) none fun s => sentCmd s tc (.layv slot) (c.src a) 0 0 none)

/-! ### Collectives (R301, R302, R304) -/

/-- T: the number of participants of a collective of the core's PID (R302). -/
def collCount (k : Core) (span : Bool) : Nat := k.gx * k.gy * (if span then 2 else 1)

/-- Elements that a participant's destination takes (R304). -/
def collDst (op count t : Nat) : Nat := if op = 1 then count / t else if op = 2 then count * t else count

/-- COLL: register values, addresses, the link, then its sending, counted in its participant's sequence (R301, R302, R440,
R483). -/
def execColl (d a b op red ty : Nat) (span : Bool) (tc : Nat) (nv : Bool) (nreg ncore root ssp dsp : Nat) (x : Ext)
    (s : State) : Host.Outcome State Fault Refusal :=
  issueG s .base 3 x fun s =>
    let c := s.cur
    let count := (c.sreg d).toNat
    let t := collCount s.me span
    let src := c.src a
    let dst := c.src b
    let nd := 4 * collDst op count t
    Out.first s
      ([trapIf (decide (2 ^ 26 < count) || (op == 1 && count % t != 0)) (regTrap 20),
        trapIf (op == 3 && decide (t ≤ root)) (regTrap 74)] ++
        cmdRange ssp src (4 * count) 2 5 ++ cmdRange dsp dst nd 2 6 ++
        [trapIf (span && !s.tandemUp) (Trap.plain 0x0F 2)])
      (sendAfter s (span || farRange s ssp src (4 * count) || farRange s dsp dst nd) (some a) (some b) fun s =>
        sentCmd s tc (.coll op red ty span root ssp dsp (collSent s s.me.pid c.group c.vcore)) src dst (c.sreg d)
          (notifyOf nv nreg ncore))

/-! ### Timeline counters (R163, R306, R423) -/

/-- The fault that TCWAIT for `n` meets in a counter's latch (R423). -/
def latchTrap (t : TCounter) (tc : Nat) (n : Word) : Option Trap :=
  match t.latch with
  | some l =>
    if l.num.toNat ≤ n.toNat then
      some { Trap.plain l.code (l.num.toNat % 65536) with acc := l.acc, addr := l.addr, eng := true, tc := tc }
    else none
  | none => none

/-- The moving context waits (R32); a context of a stopped group ends by fault instead (R466). -/
def waitFor (s : State) (w : Wait) : State :=
  let c := s.cur
  if groupStopped s s.me.pid c.group then
    endByFault s s.curCore s.curSlot (quotaCause c (stopInfo s s.me.pid c.group)) c.pc 0
  else s.setCur { c with st := .waiting, wait := w, since := s.tick }

/-- TCWAIT: DONE has reached the number, or the context waits; a latched fault is delivered, and cleared at trap entry
(R163, R306, R423). -/
def execTcwait (a tc : Nat) (s : State) : Host.Outcome State Fault Refusal :=
  issue s .base 1 fun s =>
    let n := s.cur.src a
    let t := s.me.tcOf tc
    if n.toNat ≤ t.done.toNat then
      match latchTrap t tc n with
      | some f =>
        .trap f (if s.entersHandler s.curCore s.curSlot then s.setMe (s.me.setTc tc { t with latch := none }) else s)
      | none => .ok (s.setCur (s.cur.latched (some a) none))
    else .wait (waitFor s (.tcwait tc n))

/-- TCRD (R306). -/
def execTcrd (d issued tc : Nat) (s : State) : Host.Outcome State Fault Refusal :=
  issue s .base 1 fun s =>
    let t := s.me.tcOf tc
    .ok (s.setCur (s.cur.setS d (if issued = 1 then t.issued else t.done)))

end Sys2Proof.Machine
end

