-- ==== Sys2Proof/Machine/Work.lean ====
section
/-! DEFINITION. Messages and work: majors 0x2D and 0x2E (R38, R45 to R57, R307 to R315, R440, R464, R466, R483). -/

namespace Sys2Proof.Machine

/-! ### Waiting and the cells of the work tree (R47, R52, R307 to R310) -/

/-- MRECV: a value that was taken for the context, or the value of a full register; else the context waits (R48, R52,
R308). -/
def execMrecv (d n : Nat) (s : State) : Host.Outcome State Fault Refusal :=
  issue s .base 1 fun s =>
    let c := s.cur
    match c.given with
    | some v => .ok (s.setCur ({ c with given := none, wait := .none }.setS d v))
    | none =>
      let k := s.me
      if vget k.mfull n false then
        let s := s.setMe { k with mfull := k.mfull.setIfInBounds n false }
        .ok (s.setCur (s.cur.setS d (vget k.m n 0)))
      else .wait (waitFor s (.mrecv n))

/-- A handler-table entry (R53). -/
def handlerWord (pid : Nat) (pc : Word) : Word := BitVec.ofNat 64 (put 1 63 + put (pid % 64) 56 + wfld pc 47 0)

/-- HSET and HSET.clr (R309). -/
def execHset (clr : Bool) (a n : Nat) (s : State) : Host.Outcome State Fault Refusal :=
  issue s .base 1 fun s =>
    let k := s.me
    if clr then .ok (s.setMe { k with handler := k.handler.setIfInBounds n (vget k.handler n 0 &&& 0x7FFF_FFFF_FFFF_FFFF) })
    else
      let pc := s.cur.src a
      Out.first s [targetTrap pc]
        (let s := s.setMe { k with handler := k.handler.setIfInBounds n (handlerWord k.pid pc) }
         .ok (s.setCur (s.cur.latched (some a) none)))

/-- A read of a join cell at its home slice (R47). -/
def readCell (s : State) (w : Who) (a : Word) : Res Word :=
  (Res.of (resolve s w .scalar .load (va48 a) 8)).bind fun t s =>
    (drainSlice s w (va48 a) t).bind fun _ s =>
      if !isAlias t.leaf && regionOf t.pa == .hbm then
        (hbmAtomic s w.core w.pid (va48 a) 8 t (w.slot == 9) fun _ => none).bind fun v s => .ok (BitVec.ofNat 64 v) s
      else (loadGlobal s w (va48 a) 8 t).bind fun bs s => .ok (bytesWord bs) s

/-- JOIN: the cell reads zero, or has read zero for a context that waited, or the context waits (R47, R48). -/
def execJoin (a : Nat) (s : State) : Host.Outcome State Fault Refusal :=
  issue s .base 1 fun s =>
    let x := s.cur.src a
    if s.cur.wait = .joined x then
      let s := drainDies s
      .ok (s.setCur { s.cur.latched (some a) none with wait := .none })
    else
      Out.first s (cmdRange 2 x 8 3 1)
        ((readCell s s.who x).run 1 x fun v s =>
          if v = 0 then .ok (s.setCur (s.cur.latched (some a) none)) else .wait (waitFor s (.join x)))

/-- Whether a launch for another virtual core of the resident PID waits at a core, in its launch queue or in the tail of it that has
spilled (R43, R55, R310; log 45). -/
def otherLaunch (k : Core) : Bool := (k.launchQ ++ k.spLaunch).any fun l => l.pid == k.pid && l.vcore != k.ctl.vcore

/-- A pre-emption of a core begins; it is held while a handler runs there (R335, R472). -/
def startPreempt (s : State) (core : Nat) (why : PreWhy) : State :=
  let k := s.core core
  if k.preempt.isSome then s
  else s.setCore core { k with preempt := some { why := why, start := s.tick, held := inHandlers k, expired := false, issued := issuedNow k, imaged := false },
                               ctlStat := ctlWord 0 k.pid why.op 0 0 1 }

/-- YIELD: a control context with a launch for another virtual core pending is switched out; in a helper the pointers of
R68 move on, which the schedule shows (R310, log 3). -/
def execYield (s : State) : Host.Outcome State Fault Refusal :=
  issue s .base 1 fun s => .ok (if !s.helper && otherLaunch s.me then startPreempt s s.curCore .yield else s)

/-- EXIT: the cell's decrement with its release, then the context is IDLE (R38, R47, R311). -/
def execExit (s : State) : Host.Outcome State Fault Refusal :=
  issueAs s .base fun s =>
    let c := s.cur
    let scope := if c.cell = 0 then 0 else if c.cellDone then 4 else domainScope c.domain
    (if c.cell = 0 then fun (f : State → Out) => f s else afterScope s scope) fun s =>
      .ok (endSlot (endCell s.countRetired s.curCore s.curSlot s.cur) s.curCore s.curSlot)

/-- REIN: the group's line is raised, on the peer too (R56). -/
def execRein (s : State) : Host.Outcome State Fault Refusal :=
  issue s .base 1 fun s => afterScope s 4 fun s =>
    .ok (tellPeer (raiseRein s s.me.pid s.cur.group) s.me.pid s.cur.group)

/-- REINQ: a raise is seen at once, where R56 lets up to 200 ticks go by (R56, R312; log 43). -/
def execReinq (d : Nat) (s : State) : Host.Outcome State Fault Refusal :=
  issue s .base 1 fun s => .ok (s.setCur (s.cur.setG d (s.reins.contains (s.me.pid, s.cur.group))))

/-! ### MSEND (R50, R51, R314) -/

/-- The physical core of a virtual core, where the core map has a valid entry for it (R39). -/
def Core.pcoreOf (k : Core) (v : Nat) : Option Nat :=
  let e := vget k.map v 0
  if wbit e 11 then some (wfld e 6 0) else none

/-- The core that a core's map gives for a virtual core; an entry with V = 1 that names no enabled core is taken as one that is not
valid (R29, R39; log 43). -/
def State.pcoreOf (s : State) (core v : Nat) : Option Nat :=
  match (s.core core).pcoreOf v with
  | some p => if s.enabled p then some p else none
  | none => none

/-- The smallest scope that holds two cores (R51, R139). -/
def scopeOf (a b : Nat) : Nat := if a = b then 0 else if padOf a = padOf b then 1 else if dieOf a = dieOf b then 2 else 3

/-- A message is on its way to a core. -/
def sendTo (s : State) (core : Nat) (m : Msg) : State :=
  s.setCore core { s.core core with inbound := (s.core core).inbound ++ [m] }

/-- A message leaves for the peer; its tick is kept for R483. -/
def sendPeer (s : State) (m : Msg) : State :=
  { s with peerOut := s.peerOut ++ [.msg m],
           peerSends := (m.pid, m.group, s.tick) :: s.peerSends.filter fun x => !(x.1 == m.pid && x.2.1 == m.group) }

/-- Whether a byte range in LOCAL meets a FIFO bank. -/
def meetsFifo (s : State) (a : Word) (n : Nat) : Option Bank :=
  let b (x : Word) : Bank := s.bank s.curCore (x.toNat / 131072 % 16)
  if (b a).mode = 3 then some (b a)
  else if (b (a + BitVec.ofNat 64 (n - 1))).mode = 3 then some (b (a + BitVec.ofNat 64 (n - 1)))
  else none

/-- Whether a byte range in LOCAL is a whole entry of the queue it lies in (R120, R436). -/
def fifoEntry (s : State) (a : Word) (n : Nat) : Bool :=
  match meetsFifo s a n with
  | some b => b.entryBytes == n && a.toNat / 131072 == (a.toNat + n - 1) / 131072
  | none => false

/-- The payload bytes of an MSEND: from LOCAL, an entry of a queue among it, or zeros when RPAY is s0 (R314). -/
def payload (s : State) (rpay codew : Nat) (f : List Byte → State → Out) : Out :=
  let a := s.cur.sreg rpay
  let n := 40 + 4 * codew
  if rpay = 0 then f (List.replicate 40 0) s
  else if fifoEntry s a n then (loadPiece s s.who .scalar 0 0 a n).run 1 a f
  else (loadRange s s.who .scalar 0 0 a n n).run 1 a f

/-- The 8-byte words of a byte string. -/
def wordsOf : Nat → List Byte → List Word
  | 0, _ => []
  | n + 1, bs => bytesWord (bs.take 8) :: wordsOf n (bs.drop 8)

/-- The 4-byte words of a byte string. -/
def codeOf : Nat → List Byte → List W32
  | 0, _ => []
  | n + 1, bs => BitVec.ofNat 32 (bytesToNat (bs.take 4)) :: codeOf n (bs.drop 4)

/-- The checks of an MSEND's payload address (R314, R433, R440). -/
def payTraps (s : State) (rpay codew : Nat) : List (Option Trap) :=
  if rpay = 0 then []
  else
    let a := s.cur.sreg rpay
    cmdRange 0 a (40 + 4 * codew) 3 1 ++ [if fifoEntry s a (40 + 4 * codew) then none else (meetsFifo s a (40 + 4 * codew)).map fun b => alignTrap (3 + b.esize) 1 a]

/-- MSEND: its release comes first, so that an entry of a queue leaves it once, with the send (R50, R51, R120, R314, R440, R483). -/
def execMsend (a b kind slot mreg rargb rpay codew : Nat) (x : Ext) (s : State) : Host.Outcome State Fault Refusal :=
  issueG s .base 3 x fun s =>
    let c := s.cur
    let t := c.src a
    let peer := wbit t 63
    let v := wfld t 7 0
    let dest := if peer then some s.curCore else s.pcoreOf s.curCore v
    Out.first s
      ([trapIf (wfld t 62 8 != 0 || dest.isNone) (regTrap 14)] ++ payTraps s rpay codew ++
        [trapIf (peer && !s.tandemUp) (Trap.plain 0x0F 2)])
      (afterScope s (if peer then 4 else scopeOf s.curCore (dest.getD 0)) fun s =>
        payload s rpay codew fun bs s =>
          let m : Msg :=
            { kind := kind, mreg := mreg, slot := slot, srcv := c.vcore, dstv := v, pid := s.me.pid, group := c.group,
              domain := c.domain, peer := peer, arga := c.src b, argb := c.sreg rargb, pay := wordsOf 5 bs,
              code := codeOf codew (bs.drop 40), priv := c.priv, major := c.major, minor := c.minor }
          let s := s.setCur (s.cur.latched (some a) (some b))
          .ok (if peer then sendPeer s m else sendTo s (dest.getD 0) m))

/-! ### FORK and START (R45, R46, R315, R464, R466) -/

/-- The task that the moving context forks (R45). -/
def taskOf (s : State) (pc arga argb join : Word) (full pinned : Bool) : Task :=
  let c := s.cur
  { pc := pc, arga := arga, argb := argb, join := join, full := full, pinned := pinned, vcore := c.vcore, pid := s.me.pid,
    group := c.group, domain := c.domain, cls := c.cls, priv := c.priv }

/-- A task is pushed onto the bottom of a deque; a full deque's topmost task goes to the spill ring (R45, R333). -/
def pushTask (k : Core) (t : Task) : Core :=
  if k.deque.length < 32 then { k with deque := t :: k.deque }
  else { k with deque := t :: k.deque.take 31, spTasks := k.deque.drop 31 ++ k.spTasks }

/-- FLT_QUOTA of a push that would spill beyond what the PID may hold (R464). -/
def pushQuota (s : State) : Option Trap :=
  if s.me.deque.length < 32 || groupStopped s s.me.pid s.cur.group then none
  else match spillTake s s.me.pid 1 with
    | .error off => some (Trap.plain 0x0B off)
    | .ok _ => none

/-- The push of a task by the moving context, its spilled unit counted; a task of a stopped group is discarded (R45, R333,
R466). -/
def forkPush (s : State) (t : Task) : State :=
  if groupStopped s t.pid t.group then dropTask s s.curCore t
  else
    let s := if s.me.deque.length < 32 then s
      else match spillTake s t.pid 1 with
        | .ok s => s
        | .error _ => s
    s.setMe (pushTask s.me t)

/-- FLT_QUOTA of a push, met on the words of the PID's block, which are read for it (R426, R464). -/
def quotaFirst (s : State) (f : Out) : Out :=
  match pushQuota s with
  | some t => .trap t (spillNote s s.me.pid)
  | none => f

/-- The +1 of a fork's join cell, where it has one (R46). -/
def joinAdd (s : State) (j : Word) (f : State → Out) : Out :=
  if j = 0 then f s
  else (atomicAt s s.who 2 0 j 8 fun old => some ((old + 1) % 2 ^ 64)).run 3 j fun _ s => f s

/-- FORK (R45, R46, R315, R440, R464). -/
def execFork (a b : Nat) (full : Bool) (rargb rjoin : Nat) (x : Ext) (s : State) : Host.Outcome State Fault Refusal :=
  issueG s .base 3 x fun s =>
    let c := s.cur
    let j := c.sreg rjoin
    let t := taskOf s (c.src a) (c.src b) (c.sreg rargb) j full false
    Out.first s
      ([targetTrap t.pc] ++ (if j = 0 then [] else [check6 s s.who .atomic 2 0 j 8 3 3]))
      (quotaFirst s (afterScope s (domainScope c.domain) fun s => joinAdd s j fun s =>
        .ok (forkPush (s.setCur (s.cur.latched (some a) (some b))) t)))

/-- START (R45, R315, R440, R464). -/
def execStart (a b rargb : Nat) (x : Ext) (s : State) : Host.Outcome State Fault Refusal :=
  issueG s .ctl 3 x fun s =>
    let c := s.cur
    let t := taskOf s (c.src a) (c.src b) (c.sreg rargb) 0 false true
    Out.first s [targetTrap t.pc]
      (quotaFirst s (.ok (forkPush (s.setCur (s.cur.latched (some a) (some b))) t)))

end Sys2Proof.Machine
end

