-- ==== Sys2Proof/Machine/System.lean ====
section
/-! DEFINITION. System instructions: major 0x2F (R115, R116, R118, R129, R156, R157, R316 to R324, R331, R374, R393 to
R398, R416, R419, R420, R440, R450, R451, R461, R463, R487). -/

namespace Sys2Proof.Machine

/-! ### System registers (R318, R323, R440) -/

/-- Whether user level reaches a selector (R323). -/
def selUser (sel : Nat) : Bool := decide (sel ≤ 8)

/-- Entries of an array register (R323). -/
def selCount (sel : Nat) : Nat := if sel = 8 then 128 else 256

/-- The bits of a value that a writable register does not reserve; the read-only fields of POWERCAP are not reserved
(R39, R125, R129, R135, R157, R331, R374, R393, R416; log 35). Bits [1:0] of DIRPC and [11:0] of DIRAREA, which R157 counts in PC
and BASE as zero, are reserved here (R9; log 43). -/
def sysMask (sel idx : Nat) : Word :=
  if sel = 0x10 then 0xFF00_0000_FFFF_00FF
  else if sel = 0x11 ∨ sel = 0x12 then BitVec.allOnes 64
  else if sel = 0x18 ∨ sel = 0x19 then 0x0000_3FFF_FFFF_F000
  else if sel = 0x1A then 0x80FF_FFFF_FFFF_0000
  else if sel = 0x1B then
    (if idx % 4 < 2 then 0x0000_3FFF_FFFF_FFFF else if idx % 4 = 2 then 0x0000_000F_FFFF_FFFF else 0)
  else if sel = 0x1C then 0x0000_FFFF_FFFF_FFFC
  else if sel = 0x1D then 0x8000_003F_001F_F000
  else if sel = 0x20 then 0xFFF0_3FFF_FFFF_F000
  else if sel = 0x21 then 0x8000_3FFF_FFFF_F000
  else 0x0000_030F_0000_FFFF

/-- Whether a CAP is one that R487 takes. -/
def capOk (cap : Nat) : Bool := decide (450 ≤ cap) && decide (cap ≤ 800) && cap % 5 == 0

/-- Whether a value may be written to a register (R440, R487). -/
def sysValueOk (sel idx : Nat) (v : Word) : Bool :=
  v &&& ~~~(sysMask sel idx) == 0 && !(sel == 0x1A && wfld v 49 48 == 3) && !(sel == 0x22 && !capOk (wfld v 15 0))

/-- BANKMAP entry `i` of the moving core's paddock (R113, R461). -/
def bankmapWord (s : State) (i : Nat) : Word :=
  let home := padOf s.curCore * 8 + i / 16
  let x := s.bank home (i % 16)
  bankWord (if isDirArea s home (i % 16) then { x with pid := 0 } else x)

/-- A system register as the moving context reads it (R318, R323). -/
def sysRead (s : State) (sel idx : Nat) : Word :=
  let c := s.cur
  let k := s.me
  if sel = 0x00 then versWord
  else if sel = 0x01 then s.ctxid s.curCore s.curSlot
  else if sel = 0x02 then geomWord k c.vcore
  else if sel = 0x03 then geomsubWord k c.vcore
  else if sel = 0x04 then BitVec.ofNat 64 s.tick
  else if sel = 0x05 then s.ready
  else if sel = 0x06 then coresenWord s 0
  else if sel = 0x07 then coresenWord s 1
  else if sel = 0x08 then bankmapWord s idx
  else if sel = 0x10 then c.trapCause
  else if sel = 0x11 then c.trapPc
  else if sel = 0x12 then c.trapAddr
  else if sel = 0x18 then s.procBase
  else if sel = 0x19 then s.ptBase
  else if sel = 0x1B then vget s.aliasTab idx 0
  else if sel = 0x1C then k.dirPc
  else if sel = 0x1D then k.dirArea
  else if sel = 0x20 then k.stampBase
  else if sel = 0x21 then s.spillQ
  else powercapWord s

/-- BASE of a ring register. -/
def ringAddr (w : Word) : Nat := wfld w 45 12 * 4096

/-- A record of four words joins the stamp ring of a core, then COUNT (R394). -/
def stampRecord (s : State) (core : Nat) (w0 w1 w2 w3 : Nat) : State :=
  let base := (s.core core).stampBase
  if !wbit base 63 then s
  else
    let a := ringAddr base
    let n := (physWord s a).toNat
    let slots := 2 ^ (7 + wfld base 55 52) - 1
    let s := devStoreAll (physNote s a 8) (a + 32 * (1 + n % slots)) 32 ([w0, w1, w2, w3].map (natToBytes 8)).flatten
    devStoreAll s a 8 (natToBytes 8 (n + 1))

/-- Word 0 of a record (R395). -/
def recordHead (type tick : Nat) : Nat := put type 56 + tick % 2 ^ 56

/-- The difference of two ticks in 32 bits, of which either may be the later (R395). -/
def tickDiff (t t1 : Nat) : Nat := (t + 2 ^ 64 - t1 % 2 ^ 64) % 2 ^ 32

/-- A tile stamp's record, written where STAMPBASE asks for it (R393, R395, R396, R398). -/
def stampWrite (s : State) (core : Nat) (t : TStamp) : State :=
  let base := (s.core core).stampBase
  if wbit base 62 && (!wbit base 60 || t.win) then
    stampRecord s core (recordHead 0 t.t1) (put (tickDiff t.t2 t.t1) 32 + tickDiff t.t3 t.t1)
      (put (tickDiff t.t4 t.t1) 32 + tickDiff (t.t5.getD t.t4) t.t1)
      (put (t.pid % 64) 58 + put (t.major % 64) 52 + put (t.minor % 16) 48 + put (b2n t.disc) 46 + wfld t.pc 47 2)
  else s

/-- Whether a record has every tick it needs (R397). -/
def RingRec.ready : RingRec → Bool
  | .tile t => t.t5.isSome
  | .words .. => true

/-- A record reaches the ring of its core. -/
def ringWrite (s : State) (core : Nat) : RingRec → State
  | .tile t => stampWrite s core t
  | .words w0 w1 w2 w3 => stampRecord s core w0 w1 w2 w3

/-- The records of a core are written in order, up to a stamp that waits for its T5 (R397). -/
def flushList (core : Nat) : List RingRec → State → State
  | [], s => s.setCore core { s.core core with stamps := [] }
  | r :: rs, s =>
    if r.ready then flushList core rs (ringWrite s core r) else s.setCore core { s.core core with stamps := r :: rs }

/-- The finished records of a core are written (R397). -/
def flushStamps (s : State) (core : Nat) : State := flushList core (s.core core).stamps s

/-- A marker or a sample of a core with EN set goes in behind its records (R393, R397, R398). -/
def ringAdd (s : State) (core w0 w1 w2 w3 : Nat) : State :=
  let k := s.core core
  if wbit k.stampBase 63 then flushStamps (s.setCore core { k with stamps := k.stamps ++ [.words w0 w1 w2 w3] }) core else s

/-- A write of DIRPC or DIRAREA of a core; it ends broadcast mode (R157, R463). -/
def dirConfig (s : State) (core : Nat) (area : Bool) (v : Word) : State :=
  let k := s.core core
  s.setCore core (if area then { k with dirArea := v, bcast := false } else { k with dirPc := v, bcast := false })

/-- A write of STAMPBASE of a core: finished records go to the old ring, and COUNT of the new one becomes zero (R393, R397;
log 43). -/
def stampConfig (s : State) (core : Nat) (v : Word) : State :=
  let s := flushStamps s core
  devStoreAll (s.setCore core { s.core core with stampBase := v }) (ringAddr v) 8 (natToBytes 8 0)

/-- A write of a system register by the moving context (R318, R323). -/
def sysWrite (s : State) (sel idx : Nat) (v : Word) : State :=
  let c := s.cur
  if sel = 0x10 then s.setCur { c with trapCause := v }
  else if sel = 0x11 then s.setCur { c with trapPc := v }
  else if sel = 0x12 then s.setCur { c with trapAddr := v }
  else if sel = 0x18 then { s with procBase := v }
  else if sel = 0x19 then { s with ptBase := v }
  else if sel = 0x1A then xinv s v
  else if sel = 0x1B then { s with aliasTab := s.aliasTab.setIfInBounds idx v }
  else if sel = 0x1C then dirConfig s s.curCore false v
  else if sel = 0x1D then dirConfig s s.curCore true v
  else if sel = 0x20 then stampConfig s s.curCore v
  else if sel = 0x21 then { s with spillQ := v, spillWrote := List.range 64 }
  else { s with cap := wfld v 15 0 }

/-- Before BANKMAP entry `i` is read, the core's older switches of that bank are performed (R451). -/
def settleBankmap (s : State) (i : Nat) : State := settleBank s s.curCore (padOf s.curCore * 8 + i / 16) (i % 16)

/-- SYSRD (R318, R323, R440). -/
def execSysrd (d a sel : Nat) (s : State) : Host.Outcome State Fault Refusal :=
  issue s .base 1 fun s =>
    let idx := if sel = 8 ∨ sel = 0x1B then (s.cur.src a).toNat else 0
    Out.first s
      [trapIf (!selUser sel && !s.privileged) (permTrap 1 sel), trapIf (sel == 0x1A) (permTrap 2 sel),
       trapIf (decide (selCount sel ≤ idx)) (regTrap 14)]
      (let s := if sel = 8 then settleBankmap s idx else s
       .ok (s.setCur ((s.cur.latched (some a) none).setS d (sysRead s sel idx))))

/-- SYSWR (R318, R323, R440, R487). -/
def execSyswr (d a sel : Nat) (s : State) : Host.Outcome State Fault Refusal :=
  issue s .base 1 fun s =>
    let idx := if sel = 0x1B then (s.cur.sreg d).toNat else 0
    let v := s.cur.src a
    Out.first s
      [trapIf (!s.privileged) (permTrap 1 sel), trapIf (selUser sel) (permTrap 2 sel),
       trapIf (!sysValueOk sel idx v) (regTrap 14), trapIf (decide (256 ≤ idx)) (regTrap 20)]
      (.ok (sysWrite (s.setCur (s.cur.latched (some a) none)) sel idx v))

/-! ### TRAP and ERET (R319, R417, R420) -/

/-- TRAP n: it retires, and the trap path is taken with TRAPPC at the next instruction (R319, R417). -/
def execTrap (n : Nat) (s : State) : Host.Outcome State Fault Refusal :=
  issueAs s .transfer fun s =>
    let s := s.retire 1
    .ok (faultOf s s.curCore s.curSlot (Trap.plain 0x20 n) s.cur.pc)

/-- ERET: ISYNC, then the context goes on at TRAPPC; a pre-emption that the handler held begins (R335, R420). -/
def execEret (s : State) : Host.Outcome State Fault Refusal :=
  issueAs s .eret fun s => afterScope s 2 fun s =>
    let s := (s.setCur s.cur.eret).countRetired
    .ok (s.setMe (releasePreempt s.me s.tick))

/-! ### BANKCFG (R115, R116, R118, R320, R450, R461) -/

/-- Every switch of a core's home banks that the core itself sent is performed. -/
def settleHomeBanks (s : State) (core : Nat) : State := (List.range 16).foldl (fun s b => settleBank s core core b) s

/-- The checks that BANKCFG makes before it retires: PAD 2 to 6 of R445 (R450, R461). -/
def bankcfgTraps (s : State) (home b mode : Nat) : List (Option Trap) :=
  let x := s.bank home b
  let k := s.core home
  let pad (n : Nat) : Trap := Trap.plain 0x09 (put n 5)
  let tile := mode == 4 || x.mode == 4
  let n := tileBanks k + (if mode = 4 then 1 else 0) - (if x.mode = 4 then 1 else 0)
  [trapIf (isDirArea s home b) (pad 2),
   trapIf (tile && (s.helper || home != s.curCore)) (pad 3),
   trapIf (tile && (decide (n < 3) || decide (12 < n))) (pad 4),
   trapIf (x.mode == 4 && mode != 4 && decide (8 * n < liveTiles k)) (pad 5),
   trapIf x.retired (pad 6)]

/-- BANKCFG: the switch is on its way to the bank once every older access is performed (R116, R320, R450). -/
def execBankcfg (a mode esize : Nat) (s : State) : Host.Outcome State Fault Refusal :=
  issue s .base 1 fun s =>
    let i := (s.cur.src a).toNat % 128
    let home := padOf s.curCore * 8 + i / 16
    let b := i % 16
    let s := settleBank (settleHomeBanks s s.curCore) s.curCore home b
    Out.first s (bankcfgTraps s home b mode)
      (afterScope s 1 fun s =>
        let x := s.bank home b
        let w : BankSwitch := { core := s.curCore, mode := mode, esize := esize, pid := s.me.pid }
        let s := s.setBank home b { x with switches := x.switches ++ [w] }
        .ok (s.setCur (s.cur.latched (some a) none)))

/-! ### The directory overflow handler (R156, R321) -/

/-- The L2 line that a request names. -/
def reqLine (s : State) (r : DirReq) : Option L2Line :=
  (s.l2Of r.die).find? fun (l : L2Line) => l.pid == r.pid && l.vln == r.vln

/-- DIRRD's result (R321); without a request its bits are free ones (log 25). -/
def dirWord (s : State) : Word :=
  match s.me.dirReq with
  | some r =>
    match reqLine s r with
    | some l => BitVec.ofNat 64 (put (b2n l.ovf) 8 + ((List.range 8).map fun i => put (b2n (l.sharers.contains i)) i).sum)
    | none => 0
  | none => BitVec.ofNat 64 (put (b2n (Config.freeBit s.fresh)) 8 + (Config.freeByte s.fresh).toNat)

/-- DIRRD (R321, R440). -/
def execDirrd (d : Nat) (s : State) : Host.Outcome State Fault Refusal :=
  issue s .base 1 fun s =>
    Out.first s [trapIf (s.curSlot != 9) (permTrap 3 0)]
      (let v := dirWord s
       .ok ({ s with fresh := s.fresh + 1 }.setCur (s.cur.setS d v)))

/-- DIRWR's effect on the request that h9 handles: OVF follows REM, a COLLECT's MASK goes to the write that waits, which then
goes on, and the request ends (R156, R321). -/
def dirAnswer (s : State) (core : Nat) (v : Word) : State :=
  match (s.core core).dirReq with
  | none => s
  | some r =>
    let s := match reqLine s r with
      | some l =>
        let s := l2Upd s r.die l.pln fun x => { x with ovf := wfld v 15 8 != 0 }
        if r.reason = 1 then { s with collected := (r.die, l.pln, wfld v 7 0) :: s.collected } else s
      | none => s
    s.setCore core { s.core core with dirReq := none }

/-- DIRWR (R321, R440). -/
def execDirwr (a : Nat) (s : State) : Host.Outcome State Fault Refusal :=
  issue s .base 1 fun s =>
    let v := s.cur.src a
    let collect := match s.me.dirReq with
      | some r => r.reason == 1
      | none => false
    Out.first s
      [trapIf (s.curSlot != 9) (permTrap 3 0),
       trapIf (wfld v 63 16 != 0 || (!collect && wfld v 7 0 != 0)) (regTrap 14)]
      (.ok (dirAnswer (s.setCur (s.cur.latched (some a) none)) s.curCore v))

/-! ### TICK and MARK (R322, R394, R395, R397, R398) -/

/-- TICK (R322). -/
def execTick (d : Nat) (s : State) : Host.Outcome State Fault Refusal :=
  issue s .base 1 fun s => .ok (s.setCur (s.cur.setS d (BitVec.ofNat 64 s.tick)))

/-- OPEN after a marker (R398). -/
def openAfter (n kind : Nat) : Nat := if kind = 0 then min (n + 1) 65535 else n - 1

/-- The window test of a TLD's tick is that after the markers of the tick (R398). -/
def Tile.reopen (t : Tile) (tick : Nat) (win : Bool) : Tile :=
  { t with t1 := t.t1.map fun x => if x.1 = tick then (x.1, win) else x }

/-- The window test of a stamp is that after the markers of the tick of its T1 (R398). -/
def RingRec.reopen (tick : Nat) (win : Bool) (r : RingRec) : RingRec :=
  match r with
  | .tile t => .tile (if t.t1 = tick then { t with win := win } else t)
  | .words w0 w1 w2 w3 => .words w0 w1 w2 w3

/-- What has the present tick for its T1 is judged again, where the counter has stood still since (R384, R398). -/
def reopen (s : State) : State :=
  if s.tickWait = 0 then s
  else
    let win := s.openCount != 0
    { s with cores := s.cores.map fun k =>
        { k with tiles := k.tiles.map fun t => t.map (Tile.reopen · s.tick win), stamps := k.stamps.map (RingRec.reopen s.tick win) } }

/-- MARK: the marker's record, then the capture count (R322, R395, R398). -/
def execMark (a stopk : Nat) (s : State) : Host.Outcome State Fault Refusal :=
  issue s (.since3 2) 1 fun s =>
    let c := s.cur
    let v := c.src a
    let id := (s.ctxid s.curCore s.curSlot).toNat
    let s := ringAdd s s.curCore (recordHead 1 s.tick) id (put (wfld v 31 0) 32 + stopk) (wfld c.pc 47 2)
    let s := reopen { s with openCount := openAfter s.openCount stopk }
    .ok (s.setCur (s.cur.latched (some a) none))

end Sys2Proof.Machine
end

