-- ==== Sys2Proof/Machine/HostSteps.lean ====
section
/-! DEFINITION. What the host does: launches, message ports, write apertures, CXL.mem reads and writes, snoops, and the
answers to back-invalidation (R36, R37, R158, R161, R168, R365 to R373, R465, R466, R484, R486, R490). -/

namespace Sys2Proof.Machine

/-! ### The process record and the READY bits (R39, R372, R373, R486) -/

/-- Address of a PID's process record (R39). -/
def procRecord (s : State) (pid : Nat) : Nat := wfld s.procBase 45 12 * 4096 + pid * 4096

/-- The core map entry of a virtual core, in the process record (R39). -/
def mapWord (s : State) (pid v : Nat) : Word := physWord s (procRecord s pid + 0x800 + 8 * v)

/-- The physical core that a PID's core map names for a virtual core (R39). An entry with V = 1 that names no enabled core is
taken as one that is not valid (log 43). -/
def mapCore (s : State) (pid v : Nat) : Option Nat :=
  let e := mapWord s pid v
  if wbit e 11 && s.enabled (wfld e 6 0) then some (wfld e 6 0) else none

/-- The core map entry of a virtual core has been read (R426). -/
def mapNote (s : State) (pid v : Nat) : State := physNote s (procRecord s pid + 0x800 + 8 * v) 8

/-- The READY bit of a core's paddock (R372). -/
def padBit (core : Nat) : Nat := 20 + padOf core

/-- The READY bit of the HBM stack that holds an address (R372). -/
def hbmBit (pa : Nat) : Nat := 48 + ctrlOf pa / 2

/-! ### Launches (R36, R37, R55, R333, R465, R466, R486) -/

/-- Home banks of a core that are in service (R114, R429). -/
def banksInService (k : Core) : Nat := (k.banks.toList.filter fun b => !b.retired).length

/-- A record of an access to a failed function: TYPE 2, CLASS 5, INDEX the page of the address in HBM (R428, R486). A launch for a
failed paddock has no such address, and the spec states no INDEX for it (log 25). -/
def failRecord (s : State) (pa : Option Nat) : State :=
  match pa with
  | some a => faultRecord s 2 (unitWord 5 (a / 65536)) 0 0 0 0
  | none => faultRecord { s with fresh := s.fresh + 1 } 2 (unitWord 5 (Config.freeByte s.fresh).toNat) 0 0 0 0

/-- A launch that a failed paddock, or a core with too few banks, cannot take: discarded, its DONE cell decremented
(R114, R486). -/
def launchFailed (s : State) (core : Nat) (l : Launch) : State := failRecord (dropLaunch s core l) none

/-- A launch joins the launch queue of its core, or spills, or breaches its quota (R55, R333, R465, R466). A core with too few banks
discards launches of KIND 00; those of KIND 01 start its helpers, which serve as before (R114; log 43). -/
def launchArrive (s : State) (core : Nat) (l : Launch) : State :=
  let k := s.core core
  if groupStopped s l.pid l.group then dropLaunch s core l
  else if !l.helper && decide (banksInService k < 3) then launchFailed s core l
  else if k.spLaunch.isEmpty && decide (k.launchQ.length < 16) then s.setCore core { k with launchQ := k.launchQ ++ [l] }
  else match spillTake s l.pid 1 with
    | .ok s => s.setCore core { s.core core with spLaunch := (s.core core).spLaunch ++ [l] }
    | .error off =>
      let s := entryRecord (spillNote s l.pid) (entryId l.group l.vcore core l.pid) 0x0B (off + 3) 0
      stopGroup (dropLaunch s core l) core l.pid l.group (off + 3)

/-! ### Writes of the host to HBM (R158, R168, R490) -/

/-- A host write within one line of HBM: stamped by the host port, its sectors' images sent (R158, R159, R490). It comes through
no leaf, so that its C is 0 (R131; log 43). -/
def hostWriteLine (s : State) (pa : Nat) (bs : List Byte) : State :=
  let pln := pa / 128
  let (v, s) := portView s 2 pln
  let (stamp, s) := stampNext s 2
  originate s 2 pln stamp (imagesIn pln (pa % 128) bs v.data v.good) false true

/-- A host write of any length, line by line. -/
def hostWriteMem (s : State) (pa : Nat) : Nat → List Byte → State
  | 0, _ => s
  | _ + 1, [] => s
  | k + 1, bs =>
    let n := 128 - pa % 128
    hostWriteMem (hostWriteLine s pa (bs.take n)) (pa + n) k (bs.drop n)

/-! ### CXL.mem reads (R161, R367, R486, R490) -/

/-- The vector that a place holds after it has seen another. -/
def vecMax (a b : List Nat) : List Nat := (List.range 4).map fun i => max (a.getD i 0) (b.getD i 0)

/-- The host caches an HBM line (R155, R367). -/
def hostShares (s : State) (pln : Nat) : State :=
  addSharer { s with hostLines := if s.hostLines.contains pln then s.hostLines else s.hostLines ++ [pln] }
    (memPlace (pln * 128)) pln 7

/-- Bytes of HBM as the host reads them, line by line: what each place still has to apply comes first, so that no write that
the answer counts is left behind; failing bytes are recorded, and their content is free (R161, R426, R490; log 25). -/
def hostReadMem (s : State) (pa : Nat) : Nat → Nat → List Byte × State
  | 0, _ => ([], s)
  | _, 0 => ([], s)
  | k + 1, n =>
    let m := min n (128 - pa % 128)
    let s := drainTo (drainDies s) 2
    let free (s : State) : List Byte × State :=
      ((List.range m).map fun i => Config.freeByte (s.fresh + i), { s with fresh := s.fresh + m })
    let (bs, s) := match physLoad s pa m with
      | .ok bs s => (bs, s)
      | .flt f s => free (match f.unit with
        | some (c, i) => unitRecord s c i (f.info / 4096)
        | none => s)
      | .wait s => free s
    let s := s.setVec 2 (vecMax (s.vec 2) (s.vec (memPlace pa)))
    let s := hostShares s (pa / 128)
    let (cs, s) := hostReadMem s (pa + m) k (n - m)
    (bs ++ cs, s)

/-! ### Host requests and the READY bits (R168, R371, R373) -/

/-- The HBM lines that a request of `n` bytes reaches. -/
def reqLines (pa n : Nat) : List Nat := ((List.range (n / 128 + 2)).map (pa / 128 + ·)).filter fun l => decide (l * 128 < pa + n)

/-- The READY bits that a request needs: those of every stack it reaches (R373). -/
def reqBits : HostReq → List Nat
  | .launch core _ _ => [padBit core]
  | .msg _ _ _ => []
  | .write _ pa bs => (reqLines pa bs.length).map fun l => hbmBit (l * 128)
  | .read pa n => (reqLines pa n).map fun l => hbmBit (l * 128)

/-- The channel a request is issued on. -/
def reqChan : HostReq → Option Nat
  | .launch _ l _ => some l.chan
  | .msg c _ _ => some c
  | .write c _ _ => c
  | .read _ _ => none

/-- Whether a request waits behind one that waits already: of its own channel, or, for a launch with ORD = 1, a write issued on
any (R36, R168). -/
def reqBehind (r x : HostReq) : Bool :=
  ((reqChan r).isSome && reqChan x == reqChan r) ||
    match r, x with
    | .launch _ _ true, .write c _ _ => c.isSome
    | _, _ => false

/-- Whether every write of the host is applied at both dies. -/
def hostSettled (s : State) : Bool := !s.flights.any fun d => d.origin == 2 && decide (d.dst < 2)

/-- Whether a line's request waits at its slice on its memory die, whose handler request is outstanding (R156). -/
def sliceBusy (s : State) (pln : Nat) : Bool :=
  let mp := memPlace (pln * 128)
  match l2Phys s mp pln with
  | some l => dirBusy s mp l.pid l.vln
  | none => false

/-- Whether a request can go on, once both dies have applied what they can: a launch or a message after the writes before it, an
access of HBM once the lines' tags can be told, a read after the writes on their way to its lines, and once no handler request of a line is
outstanding (R156, R161, R168, R371, R457). -/
def reqOpen (s : State) : HostReq → Bool
  | .launch _ _ _ => hostSettled s
  | .msg _ _ _ => hostSettled s
  | .write _ pa bs => (reqLines pa bs.length).all (metaReady s)
  | .read pa n =>
    (reqLines pa n).all fun l => metaReady s l && !sliceBusy s l && !s.flights.any fun d => decide (d.dst < 2) && d.line == some l

/-- The host port returns the completions of the CXL.mem writes that both dies have applied (R168, R490). -/
def cxlAnswer (s : State) : State :=
  let done (n : Nat) : Bool := decide (n ≤ (s.vec 0).getD 2 0) && decide (n ≤ (s.vec 1).getD 2 0)
  { s with cxlOpen := s.cxlOpen.filter fun n => !done n, cxlDone := s.cxlDone + (s.cxlOpen.filter done).length }

/-- A request whose functions are ready is performed. With ORD = 0 a launch may see a patch of another channel or not; it sees
every write performed before it (R168; log 43). -/
def reqPerform (s : State) : HostReq → State
  | .launch core l _ => launchArrive s core l
  | .msg _ core m => sendTo s core m
  | .write c pa bs =>
    let s := hostWriteMem s pa bs.length bs
    if c.isNone then { s with cxlOpen := s.cxlOpen ++ [(s.vec 2).getD 2 0] } else s
  | .read pa n =>
    let (bs, s) := hostReadMem s pa n n
    { s with hostData := bs }

/-- The first address of a request that lies in a failed stack. -/
def failedAt (s : State) (pa n : Nat) : Nat :=
  max pa (((reqLines pa n).find? fun l => wbit s.failed (hbmBit (l * 128))).getD 0 * 128)

/-- A request to a failed function; a read is also an uncorrectable error reported through CXL.io (R486). -/
def reqFailed (s : State) : HostReq → State
  | .launch core l _ => launchFailed s core l
  | .msg _ _ _ => s
  | .write _ pa bs => failRecord s (some (failedAt s pa bs.length))
  | .read pa n =>
    failRecord { s with hostData := List.replicate n 0xFF, cxlioErrs := s.cxlioErrs + 1 } (some (failedAt s pa n))

/-- A request is performed, refused by a failed function, or waits (R373, R486). `q` are the requests that wait before it. -/
def reqTry (s : State) (q : List HostReq) (r : HostReq) : State × List HostReq :=
  if q.any (reqBehind r) then (s, q ++ [r])
  else if (reqBits r).any (wbit s.failed) then (reqFailed s r, q)
  else if (reqBits r).all (wbit s.ready) then
    let s := drainDies s
    if reqOpen s r then (reqPerform s r, q) else (s, q ++ [r])
  else (s, q ++ [r])

/-- A new request of the host (R373). -/
def hostRequest (s : State) (r : HostReq) : State :=
  let (s', q) := reqTry s s.hostWait r
  { s' with hostWait := q }

/-- The waiting requests are tried again, in arrival order. -/
def retryHost (s : State) : State :=
  let (s', q) := s.hostWait.foldl (fun (x : State × List HostReq) r => reqTry x.1 x.2 r) (s, [])
  { s' with hostWait := q }

/-! ### The steps -/

/-- A record of R484: FLT_RESERVED, word 5 the channel. -/
def refusal484 (s : State) (id : Word) (ch : Nat) : State := entryRecord s id 0x02 0 (BitVec.ofNat 64 ch)

/-- Word `i` of a 64-byte write. -/
def msgWord (bs : List Byte) (i : Nat) : Word := bytesWord (slice bs (8 * i) 8)

/-- Client configuration entry of a channel (R326). -/
def State.client (s : State) (ch : Nat) : Word := vget s.clients ch 0

/-- Word 1 of the record of a refused launch or message: the fields as the host wrote them, and the core that the map of the process
whose entry was looked up gives for its virtual core (R484). -/
def refusedId (s : State) (group vcore pid mapPid : Nat) : Word := entryId group vcore ((mapCore s mapPid vcore).getD 0) pid

/-- The launch that a launch message makes (R36, R326). -/
def launchOf (s : State) (ch : Nat) (bs : List Byte) : Launch :=
  let c := msgWord bs 5
  { chan := ch, pc := msgWord bs 0, arga := msgWord bs 1, argb := msgWord bs 2, save := msgWord bs 3, done := msgWord bs 4,
    group := wfld c 35 20, domain := wfld c 19 18, cls := wfld c 17 16, helper := wfld c 15 14 == 1, pid := wfld c 13 8,
    vcore := wfld c 7 0, priv := wbit (s.client ch) 39 }

/-- Whether a launch message breaks R484. -/
def launchBad (s : State) (ch : Nat) (bs : List Byte) : Bool :=
  let c := msgWord bs 5
  let l := launchOf s ch bs
  wfld c 63 37 != 0 || msgWord bs 6 != 0 || msgWord bs 7 != 0 || decide (2 ≤ wfld c 15 14) ||
    !wbit (s.client ch) 38 || wfld (s.client ch) 37 32 != l.pid ||
    !canonical l.pc || wfld l.pc 1 0 != 0 ||
    (l.done != 0 && (wfld l.done 2 0 != 0 || !canonical l.done)) ||
    (!l.helper && (wfld l.save 11 0 != 0 || !canonical l.save)) || (mapCore s l.pid l.vcore).isNone

/-- LAUNCH: a host write into the launch window of a channel (R36, R37, R484). -/
def execLaunch (ch off : Nat) (bytes : List Byte) (s : State) : Host.Outcome State Fault Refusal :=
  agent
    (if off ≠ 0 ∨ bytes.length ≠ 64 then refusal484 s 0 ch
     else
       let l := launchOf s ch bytes
       let s := mapNote s l.pid l.vcore
       if launchBad s ch bytes then refusal484 s (refusedId s l.group l.vcore l.pid l.pid) ch
       else hostRequest s (.launch ((mapCore s l.pid l.vcore).getD 0) l (wbit (msgWord bytes 5) 36)))

/-- MESSAGE_PORT_WRITE: a register-write message from the host, in the order of its channel (R371, R484). -/
def execMessagePortWrite (ch off : Nat) (bytes : List Byte) (s : State) : Host.Outcome State Fault Refusal :=
  agent
    (if off ≠ 0 ∨ bytes.length ≠ 64 then refusal484 s 0 ch
     else
       let h := msgWord bytes 0
       let t := msgWord bytes 2
       let pid := wfld (s.client ch) 37 32
       let group := wfld h 49 34
       let v := wfld t 7 0
       let zero := wfld h 63 50 == 0 && wfld h 33 8 == 0 && wfld h 3 0 == 0 && wfld t 63 8 == 0 &&
         (bytes.drop 24).all (· == 0)
       let s := mapNote s pid v
       match mapCore s pid v, zero && wbit (s.client ch) 38 with
       | some core, true =>
         hostRequest s <| .msg ch core
           { kind := 0, mreg := wfld h 7 4, slot := 0, srcv := 0, dstv := v, pid := pid, group := group, domain := 0,
             peer := false, arga := msgWord bytes 1, argb := 0, pay := List.replicate 5 0, code := [], priv := false,
             major := 3, minor := 2 }
       | _, _ => refusal484 s (refusedId s group v (wfld h 33 28) pid) ch)

/-- Whether a size is one that a naturally aligned write of R370 has. -/
def apertureSize (n : Nat) : Bool := n == 4 || n == 8 || n == 16 || n == 32 || n == 64

/-- Whether a write of a channel's aperture is one that R370 takes. -/
def apertureOk (off : Nat) (bytes : List Byte) : Bool :=
  apertureSize bytes.length && off % bytes.length == 0 && decide (off < 0x80_0000)

/-- The address that an offset of a channel's aperture names: APBASE + offset (R370). -/
def apertureAddr (s : State) (ch off : Nat) : Nat := wfld (vget s.apBase ch 0) 45 23 * 0x80_0000 + off

/-- A write into a channel's aperture: to HBM, or refused with a record (R370, R484). -/
def apertureWrite (s : State) (ch off : Nat) (bytes : List Byte) : State :=
  if apertureOk off bytes then hostRequest s (.write (some ch) (apertureAddr s ch off) bytes) else refusal484 s 0 ch

/-- APERTURE_WRITE (R370, R484). A write whose APBASE leads out of HBM is an access that R21 calls a fault and gives no outcome:
it stops the model (log 33). -/
def execApertureWrite (ch off : Nat) (bytes : List Byte) (s : State) : Host.Outcome State Fault Refusal :=
  if apertureOk off bytes ∧ regionOf (apertureAddr s ch off) ≠ .hbm then .fault .hostHole else agent (apertureWrite s ch off bytes)

/-- Whether a host access lies in the range that the HDM decoder takes (R365). -/
def hdmRange (pa n : Nat) : Bool := decide (pa + n ≤ metaBase)

/-- CXL_MEM_WRITE: a write that the HDM decoder does not take reaches no place the spec names (R168, R365, R373, R486). -/
def execCxlMemWrite (pa : Nat) (bytes : List Byte) (s : State) : Host.Outcome State Fault Refusal :=
  if hdmRange pa bytes.length then agent (hostRequest s (.write none pa bytes)) else .fault .hostHole

/-- HOST_READ: of HBM through CXL.mem, or of the device register space through BAR0 (R161, R368, R486, R490). -/
def execHostRead (pa n : Nat) (s : State) : Host.Outcome State Fault Refusal :=
  if hdmRange pa n then agent (hostRequest s (.read pa n))
  else if devBase ≤ pa ∧ pa + n ≤ devBase + 0x4000_0000 then
    let (bs, s) := devRead s (pa - devBase) n
    agent { s with hostData := bs }
  else .fault .hostHole

/-- HOST_SNOOP: the device gives up both halves of a line of host memory (R366). -/
def execHostSnoop (pa : Nat) (s : State) : Host.Outcome State Fault Refusal :=
  let out (s : State) (die : Nat) : State :=
    match l2Phys s die (pa / 128) with
    | some l => l2Evict s die l
    | none => dropCodeDie (dropPaddocks s die (pa / 128)) die (pa / 128)
  agent (if regionOf pa = .host then out (out (drainTo (drainDies s) 2) 0) 1 else s)

/-- BIRSP: the host has given up a half line; with both gone the line is no longer shared, and the writes of the device itself that
waited for it go on (R367). -/
def execBirsp (pa : Nat) (s : State) : Host.Outcome State Fault Refusal :=
  let h := pa / 64 * 64
  let pln := pa / 128
  agent
    (if s.bisnp.contains h then
       let left := s.bisnp.filter (· != h)
       let s := { s with bisnp := left }
       if (halves pln).any left.contains then s
       else devRun (dropSharer { s with hostLines := s.hostLines.filter (· != pln) } (memPlace (pln * 128)) pln 7)
     else s)

end Sys2Proof.Machine
end

