-- ==== Sys2Proof/Machine/SchedSteps.lean ====
section
/-! DEFINITION. The steps that bring work to contexts: the launch arbiter, taking a process, starting contexts, messages,
register writes, parking, waking, stealing, the spill engine's refills, the switch of virtual cores (R30, R33, R35, R43 to
R49, R50 to R55, R57, R163, R325 to R333, R339, R357, R461, R464 to R467). -/

namespace Sys2Proof.Machine

/-! ### Taking a process (R33, R39, R114, R163, R293, R327, R461) -/

/-- The contexts in a core's slots. -/
def Core.slots (k : Core) : List Ctx := k.ctl :: k.hs.toList

/-- Whether R33 and R163 let a core run work of a PID: its own, or, once its contexts are IDLE or SAVED, its deque and inbox
hold no entry of the resident PID and its commands are complete, any. -/
def pidOk (k : Core) (pid : Nat) : Bool :=
  (k.resident && k.pid == pid) ||
    (k.slots.all (fun c => c.st == .idle) && k.parked.isEmpty && (k.deque ++ k.spTasks).all (·.pid != k.pid) &&
      (k.inbox ++ k.spInbox).all (·.pid != k.pid) && k.cmds.isEmpty)

/-- Records of the register-write messages that a core discards with its process (R33). -/
def dropRegs (s : State) (core : Nat) : State :=
  let k := s.core core
  let held := (List.range 16).filter fun n => vget k.mfull n false
  let s := held.foldl (fun s n =>
    let f := vget k.mfrom n (0, 0)
    entryRecord s (entryId f.1 f.2 core k.pid) 0x02 0 (BitVec.ofNat 64 n)) s
  let s := (k.backlog ++ k.spBacklog).foldl (fun s m =>
    entryRecord s (entryId m.group m.dstv core k.pid) 0x02 0 (BitVec.ofNat 64 m.mreg)) s
  spillGive s k.pid k.spBacklog.length

/-- The three home banks that are TILE banks at power-up: the lowest-numbered ones in service (R114). -/
def tileHomes (k : Core) : List Nat := ((List.range 16).filter fun b => !(vget k.banks b (Bank.init 0 0)).retired).take 3

/-- A home bank returns to its power-up mode for a new process; a directory overflow area and a retired bank stay, an area in one
of the TILE banks of R114 among them, for which no other bank is put in TILE mode (R16, R114, R461; log 43). Accesses of other
cores that waited on its queue are tried again. -/
def bankTake (s : State) (core pid : Nat) (homes : List Nat) (b : Nat) : State :=
  let x := s.bank core b
  if x.retired || isDirArea s core b then s
  else
    let s := x.waiters.foldl (fun s w => s.setCtx w.1 w.2 { s.ctx w.1 w.2 with stall := none }) s
    let s := if x.mode = 2 then dropWay s core b else s
    (clearBank s core b).setBank core b
      { Bank.init (if homes.contains b then 4 else 1) pid with switches := x.switches }

/-- A PID's process record has been read: its grid and its core map (R39, R426). -/
def procNote (s : State) (pid : Nat) : State :=
  (List.range 16).foldl (fun s i => physNote s (procRecord s pid + 0x800 + 128 * i) 128) (physNote s (procRecord s pid) 8)

/-- PID_TAKE: a core takes a new resident PID (R33, R39, R114, R163, R293, R327). A task on its way from a victim goes on its way
(R49, R330). -/
def pidTake (s : State) (core pid : Nat) : State :=
  if (s.core core).resident && (s.core core).pid == pid then s
  else
    let s := if (s.core core).resident then dropRegs s core else s
    let homes := tileHomes (s.core core)
    let s := (List.range 16).foldl (fun s b => bankTake s core pid homes b) s
    let s := procNote s pid
    let k := s.core core
    s.setCore core
      { k with pid := pid, resident := true, grid := physWord s (procRecord s pid),
               map := Vector.ofFn fun i : Fin 256 => mapWord s pid i.val,
               mfull := Vector.replicate 16 false, backlog := [], spBacklog := [],
               handler := k.handler.map (· &&& 0x7FFF_FFFF_FFFF_FFFF), tcs := Vector.replicate 8 TCounter.reset,
               layouts := Vector.replicate 16 none, cred := Vector.replicate 64 0,
               steal := { k.steal with next := 1, took := false, backoff := false } }

/-! ### Starting contexts (R30, R35, R44, R45, R54, R316, R357) -/

/-- The code version of a context that starts at `pc`, from the lowest-numbered valid entry that covers it (R357; log 45). -/
def codeVersion (s : State) (pid : Nat) (pc : Word) : Nat × Nat :=
  let page := va48 pc / 65536
  let hit (e : BitVec 128) : Bool :=
    let base := fld e.toNat 47 16
    e.getLsbD 127 && decide (base ≤ page) && decide (page < base + fld e.toNat 95 64)
  match ((List.range 16).map fun i => vget s.versions (pid * 16 + i) 0).find? hit with
  | some e => (fld e.toNat 111 104, fld e.toNat 103 96)
  | none => (3, 2)

/-- A context that leaves IDLE at `pc` with s1 to s8 as given; the trap registers are its slot's (R35, R416). -/
def freshCtx (old : Ctx) (pc : Word) (args : List Word) (ver : Nat × Nat) : Ctx :=
  { Ctx.reset with st := .live, pc := pc, major := ver.1, minor := ver.2,
                   s := Vector.ofFn fun i : Fin 48 => if i.val = 0 then 0 else args.getD (i.val - 1) 0,
                   trapCause := old.trapCause, trapPc := old.trapPc, trapAddr := old.trapAddr }

/-- A context starts in a slot of a core: its registers are written at this tick (R35, R396), and a control context ends what a switch of virtual cores left to do (R43). -/
def startIn (s : State) (core slot : Nat) (c : Ctx) : State :=
  let t := s.tick
  let s := s.setCtx core slot { c with now := t, sw := Vector.replicate 48 t, vw := Vector.replicate 16 t, kw := Vector.replicate 8 t,
                                       gw := Vector.replicate 16 t }
  let k := s.core core
  s.setCore core { k with switched := if slot = 15 then none else k.switched }

/-- A launch starts (R35, R38, R44, R316); one for another virtual core ends what a switch left to do (R43). -/
def startLaunch (s : State) (core slot : Nat) (l : Launch) : State :=
  let s := pidTake s core l.pid
  let k := s.core core
  let s := if k.switched != some l.vcore then s.setCore core { k with switched := none } else s
  startIn s core slot
    { freshCtx (s.ctx core slot) l.pc [l.arga, l.argb, l.done] (codeVersion s l.pid l.pc) with
      group := l.group, vcore := l.vcore, domain := l.domain, cls := l.cls, priv := l.priv, cell := l.done,
      cellDone := true, save := l.save }

/-- A task starts, under its own PID (R33); s3 of a START's is its slot number, 15 in the control context (R35, R44, R45; log 43).
A task in the control context is saved as a FULL task is (R335; log 37). -/
def startTask (s : State) (core slot : Nat) (t : Task) : State :=
  let s := pidTake s core t.pid
  let s3 := if t.pinned then BitVec.ofNat 64 slot else t.join
  startIn s core slot
    { freshCtx (s.ctx core slot) t.pc [t.arga, t.argb, s3] (codeVersion s t.pid t.pc) with
      group := t.group, vcore := t.vcore, domain := t.domain, cls := t.cls, priv := t.priv, cell := t.join,
      cellDone := false, full := slot == 15 }

/-- The sender word of a message (R35). -/
def senderWord (m : Msg) : Word := BitVec.ofNat 64 (put (b2n m.peer) 63 + m.srcv % 256)

/-- A handler or inline-code message starts a helper (R35, R44, R53, R54, R357). -/
def startMsg (s : State) (core slot : Nat) (m : Msg) (pc : Word) : State :=
  let ver := if m.kind = 2 then (m.major, m.minor) else codeVersion s m.pid pc
  startIn s core slot
    { freshCtx (s.ctx core slot) pc ([m.arga, m.argb, senderWord m] ++ m.pay) ver with
      group := m.group, vcore := m.dstv, domain := m.domain, cls := 0, priv := m.priv, code := m.code }

/-- The lowest-numbered idle slot of h0 to h8 (R30). -/
def freeHelper (k : Core) : Option Nat := (List.range 9).find? fun i => (k.ctx i).st == .idle

/-- HANDLER_ENTRY_MISS, or the start of a helper: the head message of an inbox reads its entry once (R53, R309, R467). -/
def grantMsg (s : State) (core slot : Nat) (m : Msg) : State :=
  if m.kind = 2 then startMsg s core slot m 0xFFFF_FFFF_FFFF_FF00
  else
    let e := vget (s.core core).handler m.slot 0
    if wbit e 63 && wfld e 61 56 == m.pid then startMsg s core slot m (sextW 48 e)
    else
      let s := entryRecord s (entryId m.group m.dstv core m.pid) 0x0C (put (b2n (wbit e 63)) 6 + m.slot) 0
      reinLine s core [] m.pid m.group

/-! ### Parked helpers (R48) -/

/-- Whether a waiting context's wait is satisfied (R47, R48, R52, R163). A join cell that cannot be read ends the wait:
the JOIN, executed again, takes the fault. -/
def waitDone (s : State) (core : Nat) (c : Ctx) : Bool :=
  match c.wait with
  | .none => true
  | .mrecv _ => c.given.isSome
  | .joined _ => true
  | .tcwait tc n => decide (n.toNat ≤ ((s.core core).tcOf tc).done.toNat)
  | .join a =>
    match readCell s ⟨core, 16, (s.core core).pid⟩ a with
    | .ok v _ => v == 0
    | .flt _ _ => true
    | .wait _ => false

/-- A context whose wait is satisfied goes on; a JOIN completes with what its cell has read (R47, R48). -/
def wake (s : State) (core : Nat) (c : Ctx) : Ctx :=
  match c.wait with
  | .join a =>
    match readCell s ⟨core, 16, (s.core core).pid⟩ a with
    | .ok _ _ => { c with st := .live, wait := .joined a }
    | _ => { c with st := .live }
  | _ => { c with st := .live }

/-- PARKED_HELPER_RETURN: the first parked helper whose wait is satisfied takes a free slot, whose trap registers it finds there
but for those of a handler that it runs (R48, R333, R416). -/
def parkedReturn (s : State) (core : Nat) : Option State :=
  let k := s.core core
  match freeHelper k, takeFirst (fun c => waitDone s core c) k.parked with
  | some slot, some (c, rest) =>
    let old := k.ctx slot
    let c := wake s core c
    let c := if c.inHandler then c else { c with trapCause := old.trapCause, trapPc := old.trapPc, trapAddr := old.trapAddr }
    let s := s.setCore core { k with parked := rest }
    some (spillGive (s.setCtx core slot c) k.pid 256)
  | _, _ => none

/-- Every parked helper whose wait is satisfied returns while a slot is free, `n` at most (R48). -/
def parkedReturns (s : State) (core : Nat) : Nat → State
  | 0 => s
  | n + 1 => match parkedReturn s core with
    | some t => parkedReturns t core n
    | none => s

/-- Whether a resume at a core names a SAVED context: of its process and virtual core, saved from a launch or from a task; an image of
the spill area lies at its own core, another at the address named, if that is asked for (`exact`) (R335, R346). -/
def Resume.hits (r : Resume) (core : Nat) (exact : Bool) (x : Saved) : Bool :=
  x.pid == r.pid && x.vcore == r.vcore && x.task == r.task && if r.task then x.core == core else !exact || x.va == r.va

/-- The SAVED context that a resume takes, and the others: the one saved at its address, else the oldest of its virtual core, whose
image may have been moved (R43, R346; log 43). -/
def takeSaved (s : State) (core : Nat) (r : Resume) : Option (Saved × List Saved) :=
  (takeFirst (r.hits core true) s.saved).or (takeFirst (r.hits core false) s.saved)

/-- The resume of a core that is tried next: one that the arbiter has granted the control context, else the oldest whose PID R33
allows, else the oldest (R33, R325, R346). A RESUME that waits for its PID so holds up no other. -/
def resumeNext (k : Core) : Option Resume :=
  ((k.resumes.find? fun r => !r.asked && pidOk k r.pid).or (k.resumes.find? fun r => pidOk k r.pid)).or k.resumes.head?

/-- Whether a waiting resume bars a core's helper slots: one whose PID R33 allows. While R33 does not allow it, the core's contexts keep
taking the work that holds it up (R33, R346; log 45). -/
def resumeBars (k : Core) : Bool := k.resumes.any fun r => pidOk k r.pid

/-- Helpers that a waiting resume needs slots for (R346). -/
def resumeNeed (s : State) (core : Nat) : Nat :=
  match (resumeNext (s.core core)).bind fun r => if resumeBars (s.core core) then takeSaved s core r else none with
  | some (x, _) => ((List.range 9).filter fun i => x.helpers / 2 ^ i % 2 == 1).length
  | none => 0

/-- Idle helper slots of a core. -/
def idleHelpers (k : Core) : Nat := ((List.range 9).filter fun i => (k.ctx i).st == .idle).length

/-- Whether a START, task or message, spilled ones among them, waits for a helper slot, or a resume waits for more slots than are idle (R48, R346). -/
def slotWanted (s : State) (core : Nat) : Bool :=
  let k := s.core core
  if 0 < resumeNeed s core then decide (idleHelpers k < resumeNeed s core)
  else (freeHelper k).isNone && ((k.deque ++ k.spTasks).any (fun t => !t.full) || !k.inbox.isEmpty || !k.spInbox.isEmpty)

/-- Whether a pre-emption of a core is in force (R336). -/
def preempting (k : Core) : Bool :=
  match k.preempt with
  | some p => !p.held
  | none => false

/-- Of two slots, the one whose context has waited longer. -/
def longerWait (k : Core) (a b : Nat) : Nat := if (k.ctx b).since < (k.ctx a).since then b else a

/-- The helper of h0 to h8 that has waited longest (R48). -/
def longestWaiter (k : Core) : Option Nat :=
  match (List.range 9).filter fun i => (k.ctx i).st == .waiting with
  | [] => none
  | i :: is => some (is.foldl (longerWait k) i)

/-- HELPER_PARK (R48, R333, R464): a breach leaves the helper WAITING. -/
def execHelperPark (core : Nat) (s : State) : Host.Outcome State Fault Refusal :=
  let k := s.core core
  agent
    (match longestWaiter k with
      | some slot =>
        if slotWanted s core && !preempting k then
          match spillTake s k.pid 256 with
          | .ok s =>
            let k := s.core core
            let c := k.ctx slot
            let gone : Ctx := { c.ended with st := .idle }
            s.setCore core ({ k with parked := k.parked ++ [{ c with st := .parked }] }.setCtx slot gone)
          | .error _ => spillNote s k.pid
        else s
      | none => s)

/-- PARKED_HELPER_RETURN (R48). -/
def execParkedHelperReturn (core : Nat) (s : State) : Host.Outcome State Fault Refusal :=
  let k := s.core core
  agent (if preempting k || resumeBars k then s else (parkedReturn s core).getD s)

/-! ### The launch arbiter (R325, R327) -/

/-- A ready source: its index and class. -/
abbrev Source := Nat × Nat

/-- Whether R43 and R114 let a launch's virtual core start in the kind of context it needs. -/
def vcoreOk (k : Core) (l : Launch) : Bool :=
  if l.helper then k.ctl.st == .idle || k.ctl.vcore == l.vcore else decide (3 ≤ banksInService k)

/-- The channel sources that are ready for a kind of context (R325). -/
def channelSources (k : Core) (helper : Bool) : List Source :=
  (List.range 64).filterMap fun n =>
    match k.launchQ.find? (·.chan == n) with
    | some l => if l.helper == helper && pidOk k l.pid && vcoreOk k l then some (n, l.cls) else none
    | none => none

/-- The task that R48 selects for a free context of a kind: for a helper the bottommost HELPER task; for the control context the
bottommost task, a HELPER one while no helper slot is free for it, or while a resume bars them (R325, R346; log 37). -/
def headTask (k : Core) (helper : Bool) : Option Task :=
  match (k.deque ++ k.spTasks).find? fun t => !(helper && t.full) with
  | some t => if helper || t.full || (freeHelper k).isNone || resumeBars k then some t else none
  | none => none

/-- The oldest SAVED context that waits at a core, and whose resume is not under way (R43, R325). -/
def headSaved (s : State) (core : Nat) : Option Saved :=
  s.saved.find? fun x => x.waits && x.core == core && !(s.core core).resumes.any (·.hits core true x)

/-- Whether, after a switch of virtual cores, a launch for another is still to start (R43). -/
def switchPending (k : Core) : Bool :=
  match k.switched with
  | some v => (k.launchQ ++ k.spLaunch).any fun l => l.pid == k.pid && l.vcore != v
  | none => false

/-- The channels whose head is a launch that a switch was made for (R43). -/
def switchHeads (k : Core) (cs : List Source) : List Source :=
  cs.filter fun c => match k.launchQ.find? (·.chan == c.1) with
    | some l => l.pid == k.pid && k.switched != some l.vcore
    | none => false

/-- The SAVED context that waits at a core, as a ready source (R43, R114, R325). -/
def savedSource (s : State) (core : Nat) : List Source :=
  let k := s.core core
  match headSaved s core with
  | some x => if pidOk k x.pid && !switchPending k && decide (3 ≤ banksInService k) then [(66, x.cls)] else []
  | none => []

/-- The ready sources for a kind of context. After a switch of virtual cores its launch starts next, and no SAVED context while it
is pending; while it is held back in its channel the sources before it go on. A switch that no launch asked for resumes the oldest
SAVED context next (R43, R325). -/
def sources (s : State) (core : Nat) (helper : Bool) : List Source :=
  let k := s.core core
  let ch := channelSources k helper
  if switchPending k && !(switchHeads k (channelSources k false ++ channelSources k true)).isEmpty then switchHeads k ch
  else
    let task := match headTask k helper with
      | some t => if pidOk k t.pid && (helper || decide (3 ≤ banksInService k)) then [(64, t.cls)] else []
      | none => []
    if helper then ch ++ task ++ (if k.inbox.isEmpty then [] else [(65, 0)])
    else if k.switched.isSome && !(savedSource s core).isEmpty then savedSource s core
    else ch ++ task ++ savedSource s core

/-- Channels owed a grant (R327). -/
def owedChannels (k : Core) (cs : List Source) : List Source := cs.filter fun c => decide (c.1 < 64) && decide (256 ≤ vget k.cred c.1 0)

/-- The pool of a grant: the owed channels, else the sources of the lowest class (R327). -/
def grantPool (k : Core) (cs : List Source) : List Source :=
  match owedChannels k cs with
  | [] =>
    let low := cs.foldl (fun m c => min m c.2) 3
    cs.filter fun c => c.2 == low
  | o => o

/-- The first of the pool at or after RR, counting upwards modulo 67 (R327). -/
def grantPick (k : Core) (pool : List Source) : Option Nat :=
  (List.range 67).findSome? fun j =>
    let i := (k.rr + j) % 67
    if pool.any (·.1 == i) then some i else none

/-- RR and the credits after a grant; an owed grant takes off 256, or what is left where the grant's new PID has just made every
credit zero (R327; log 45). -/
def grantCredits (s : State) (core i : Nat) (owed : Bool) : State :=
  let k := s.core core
  let cred :=
    if i < 64 then
      let up := Vector.ofFn fun n : Fin 64 =>
        let w := s.client n.val
        if wbit w 38 then min (vget k.cred n.val 0 + wfld w 7 0) 512 else vget k.cred n.val 0
      if owed then up.setIfInBounds i (vget up i 0 - 256) else up
    else k.cred
  s.setCore core { k with rr := (i + 1) % 67, cred := cred }

/-- A task leaves the deque or the spill ring of a core, its unit returned (R333). -/
def takeTask (s : State) (core : Nat) (p : Task → Bool) : Option Task × State :=
  let k := s.core core
  match takeFirst p k.deque with
  | some (t, rest) => (some t, s.setCore core { k with deque := rest })
  | none =>
    match takeFirst p k.spTasks with
    | some (t, rest) => (some t, spillGive (s.setCore core { k with spTasks := rest }) t.pid 1)
    | none => (none, s)

/-- The head entry of source `i` starts in a slot (R325, R327). A SAVED context waits until its resume is loaded (R346). -/
def startSource (s : State) (core slot i : Nat) : State :=
  let k := s.core core
  if i < 64 then
    match takeFirst (·.chan == i) k.launchQ with
    | some (l, rest) => startLaunch (s.setCore core { k with launchQ := rest }) core slot l
    | none => s
  else if i = 64 then
    match takeTask s core fun t => !(slot != 15 && t.full) with
    | (some t, s) => startTask s core slot t
    | (none, s) => s
  else if i = 65 then
    match k.inbox with
    | m :: rest => grantMsg (s.setCore core { k with inbox := rest }) core slot m
    | [] => s
  else match headSaved s core with
    | some x =>
      s.setCore core { k with resumes := k.resumes ++ [{ pid := x.pid, vcore := x.vcore, va := x.va, task := x.task, asked := false }],
                              ctlStat := ctlWord 0 x.pid 3 0 0 1 }
    | none => s

/-- A grant to a free context of a kind, when a source is ready (R327). -/
def grant (s : State) (core slot : Nat) : Option State :=
  let k := s.core core
  let cs := sources s core (slot != 15)
  match grantPick k (grantPool k cs) with
  | some i => some (grantCredits (startSource s core slot i) core i ((owedChannels k cs).any (·.1 == i)))
  | none => none

/-- Whether a control context may be started: it is idle, and not granted to a SAVED context whose image is still to be loaded (R325,
R346). -/
def ctlFree (k : Core) : Bool := k.ctl.st == .idle && k.resumes.all (·.asked)

/-- One cycle of the launch arbiter: the control context first, else a helper slot, which a waiting resume bars (R327, R336,
R346). -/
def arbiter (s : State) (core : Nat) : State :=
  let k := s.core core
  if preempting k || !s.enabled core then s
  else
    let c := if ctlFree k then grant s core 15 else none
    match c with
    | some s => s
    | none =>
      if resumeBars k then s
      else match parkedReturn s core with
        | some s => s
        | none => match freeHelper k with
          | some slot => (grant s core slot).getD s
          | none => s

/-- ARBITER_GRANT (R327). -/
def execArbiterGrant (core : Nat) (s : State) : Host.Outcome State Fault Refusal := agent (arbiter s core)

/-! ### Switching virtual cores (R43) -/

/-- Whether work for another virtual core of the resident PID waits at a core (R43). -/
def otherWork (s : State) (core : Nat) : Bool :=
  let k := s.core core
  otherLaunch k || s.saved.any fun x => x.waits && x.core == core && x.pid == k.pid && x.vcore != k.ctl.vcore

/-- VCORE_SWITCH (R43, R335). -/
def execVcoreSwitch (core : Nat) (s : State) : Host.Outcome State Fault Refusal :=
  let k := s.core core
  agent
    (if k.ctl.st == .waiting && decide (k.ctl.since + 4096 ≤ s.tick) && otherWork s core then startPreempt s core .switch
     else s)

/-! ### Messages (R50 to R55, R339, R465, R466) -/

/-- The contexts waiting on message register `n`: the tick they began, their rank on a tie, their slot (parked ones by
their place, from 16 on). -/
def mregWaiters (k : Core) (n : Nat) : List (Nat × Nat × Nat) :=
  let w (c : Ctx) : Bool := c.wait == .mrecv n && c.given.isNone
  let ctl := if k.ctl.st == .waiting && w k.ctl then [(k.ctl.since, 0, 15)] else []
  let hs := (List.range 10).filterMap fun i =>
    if (k.ctx i).st == .waiting && w (k.ctx i) then some ((k.ctx i).since, i + 1, i) else none
  let ps := (List.range k.parked.length).filterMap fun i =>
    let c := k.parked.getD i Ctx.reset
    if w c then some (c.since, 11 + i, 16 + i) else none
  ctl ++ hs ++ ps

/-- Of two waiters, the one that entered first; on a tie the control context, then h0 on (R52). -/
def earlier (a b : Nat × Nat × Nat) : Nat × Nat × Nat :=
  if b.1 < a.1 ∨ (b.1 = a.1 ∧ b.2.1 < a.2.1) then b else a

/-- A full register with a waiting MRECV gives its value to the context that entered first, which wakes; a parked helper
keeps it until it returns (R48, R52). -/
def giveReg (k : Core) (n : Nat) : Core :=
  if !vget k.mfull n false then k
  else match mregWaiters k n with
    | [] => k
    | w :: ws =>
      let slot := (ws.foldl earlier w).2.2
      let v := vget k.m n 0
      let k := { k with mfull := k.mfull.setIfInBounds n false }
      if slot < 16 then k.setCtx slot { k.ctx slot with given := some v, st := .live }
      else { k with parked := k.parked.modify (slot - 16) fun c => { c with given := some v } }

/-- A register-write message writes its register (R52). -/
def applyReg (k : Core) (m : Msg) : Core :=
  giveReg
    { k with m := k.m.setIfInBounds m.mreg m.arga, mfull := k.mfull.setIfInBounds m.mreg true,
             mfrom := k.mfrom.setIfInBounds m.mreg (m.group, m.dstv) } m.mreg

/-- Flits of the inbox buffer that a helper runs from: one of the message's head, and those of its code (R54). -/
def Ctx.codeFlits (c : Ctx) : Nat := if c.code.isEmpty then 0 else 1 + (c.code.length + 15) / 16

/-- Flits that an inbox holds: of the messages that wait, and of the buffers that helpers in slots still run from. The code of a
parked helper lies in its image on the spill ring, and in a buffer again once it returns, ahead of every message that waits (R48,
R54, R55, R343; log 45). -/
def inboxFlits (k : Core) : Nat := (k.inbox.map Msg.units).sum + (k.hs.toList.map Ctx.codeFlits).sum

/-- A register-write message reaches its core: applied, held in the backlog, or spilled (R52, R55, R333). -/
def regArrive (s : State) (core : Nat) (m : Msg) : State :=
  let k := s.core core
  if !vget k.mfull m.mreg false && (k.backlog ++ k.spBacklog).all (·.mreg != m.mreg) then s.setCore core (applyReg k m)
  else if k.spBacklog.isEmpty && decide (k.backlog.length < 32) then s.setCore core { k with backlog := k.backlog ++ [m] }
  else match spillTake s m.pid 1 with
    | .ok s => s.setCore core { s.core core with spBacklog := (s.core core).spBacklog ++ [m] }
    | .error off => breach (spillNote s m.pid) core m.pid m.group m.dstv 2 off

/-- A handler or inline-code message reaches its inbox, or spills whole (R50, R55, R333). -/
def inboxArrive (s : State) (core : Nat) (m : Msg) : State :=
  let k := s.core core
  if k.spInbox.isEmpty && decide (inboxFlits k + m.units ≤ 64) then s.setCore core { k with inbox := k.inbox ++ [m] }
  else match spillTake s m.pid m.units with
    | .ok s => s.setCore core { s.core core with spInbox := (s.core core).spInbox ++ [m] }
    | .error off => breach (spillNote s m.pid) core m.pid m.group m.dstv 1 off

/-- A message for a SAVED virtual core is diverted (R339). -/
def divert (s : State) (core : Nat) (m : Msg) : State :=
  match spillTake s m.pid m.units with
  | .ok s =>
    let hit (x : Saved) : Bool := x.pid == m.pid && x.vcore == m.dstv
    let add (x : Saved) : Saved := { x with diverted := x.diverted ++ [m] }
    { s with saved := updFirst hit add s.saved }
  | .error off => breach (spillNote s m.pid) core m.pid m.group m.dstv 4 off

/-- Whether a virtual core is SAVED: one of its contexts is, that of a FULL task of its among them, whatever core it ran on (R50, R335,
R339; log 43). -/
def isSaved (s : State) (pid v : Nat) : Bool := s.saved.any fun x => x.pid == pid && x.vcore == v

/-- A message reaches the queues of a core, whose process it is (R50, R52, R466). -/
def deliverHere (s : State) (core : Nat) (m : Msg) : State :=
  if groupStopped s m.pid m.group then s
  else
    let s := pidTake s core m.pid
    if m.kind = 0 then regArrive s core m else inboxArrive s core m

/-- A message arrives at a core: diverted while its virtual core is SAVED (R50, R52, R339, R466). -/
def deliver (s : State) (core : Nat) (m : Msg) : State :=
  if groupStopped s m.pid m.group then s
  else if isSaved s m.pid m.dstv then divert s core m
  else deliverHere s core m

/-- Whether a message can arrive now: messages of a new process wait (R33). -/
def canArrive (s : State) (core : Nat) (m : Msg) : Bool :=
  groupStopped s m.pid m.group || isSaved s m.pid m.dstv || pidOk (s.core core) m.pid

/-- MESSAGE_ARRIVAL (R50, R51). Messages of different senders, which the spec leaves unordered, arrive in the order in which they
were sent (log 43). -/
def execMessageArrival (core : Nat) (s : State) : Host.Outcome State Fault Refusal :=
  let k := s.core core
  agent
    (match takeFirst (canArrive s core) k.inbound with
      | some (m, rest) => deliver (s.setCore core { k with inbound := rest }) core m
      | none => s)

/-- REGISTER_WRITE_APPLY: the oldest waiting message whose register is clear (R52). -/
def execRegisterWriteApply (core : Nat) (s : State) : Host.Outcome State Fault Refusal :=
  let k := s.core core
  let free (m : Msg) : Bool := !vget k.mfull m.mreg false
  agent
    (match takeFirst free k.backlog with
      | some (m, rest) => s.setCore core (applyReg { k with backlog := rest } m)
      | none =>
        match takeFirst free k.spBacklog with
        | some (m, rest) => spillGive (s.setCore core (applyReg { k with spBacklog := rest } m)) k.pid 1
        | none => s)

/-- The oldest spilled message of the inbox returns to it when it fits (R333). -/
def refillInbox (s : State) (core : Nat) : Option State :=
  let k := s.core core
  match k.spInbox with
  | m :: r =>
    if inboxFlits k + m.units ≤ 64 then
      some (spillGive (s.setCore core { k with inbox := k.inbox ++ [m], spInbox := r }) m.pid m.units)
    else none
  | [] => none

/-- The oldest spilled message of the backlog (R333). -/
def refillBacklog (s : State) (core : Nat) : Option State :=
  let k := s.core core
  match k.spBacklog, decide (k.backlog.length < 32) with
  | m :: r, true => some (spillGive (s.setCore core { k with backlog := k.backlog ++ [m], spBacklog := r }) m.pid 1)
  | _, _ => none

/-- The oldest spilled launch (R333). -/
def refillLaunch (s : State) (core : Nat) : Option State :=
  let k := s.core core
  match k.spLaunch, decide (k.launchQ.length < 16) with
  | l :: r, true => some (spillGive (s.setCore core { k with launchQ := k.launchQ ++ [l], spLaunch := r }) l.pid 1)
  | _, _ => none

/-- The most recently spilled task (R333). -/
def refillTask (s : State) (core : Nat) : Option State :=
  let k := s.core core
  match k.spTasks, decide (k.deque.length < 32) with
  | t :: r, true => some (spillGive (s.setCore core { k with deque := k.deque ++ [t], spTasks := r }) t.pid 1)
  | _, _ => none

/-- SPILL_REFILL: one entry returns to the first queue, in the order inbox, backlog, launch queue, deque, that has room for its own
(R55, R58, R333). -/
def execSpillRefill (core : Nat) (s : State) : Host.Outcome State Fault Refusal :=
  agent
    ((((refillInbox s core).or (refillBacklog s core)).or ((refillLaunch s core).or (refillTask s core))).getD s)

/-! ### Waking (R47, R163) -/

/-- JOIN_WAKE (R47). -/
def execJoinWake (core slot : Nat) (s : State) : Host.Outcome State Fault Refusal :=
  let c := s.ctx core slot
  agent
    (match c.wait with
      | .join _ => if c.st == .waiting && waitDone s core c then s.setCtx core slot (wake s core c) else s
      | _ => s)

/-- TCWAIT_WAKE (R163, R423): the TCWAIT executes again. -/
def execTcwaitWake (core slot : Nat) (s : State) : Host.Outcome State Fault Refusal :=
  let c := s.ctx core slot
  agent
    (match c.wait with
      | .tcwait _ _ => if c.st == .waiting && waitDone s core c then s.setCtx core slot (wake s core c) else s
      | _ => s)

/-! ### Stealing (R49, R330) -/

/-- Whether a core has an idle context of a task's class that a task may start in: a waiting resume bars the helper slots (R49,
R346). -/
def idleFor (k : Core) (full : Bool) : Bool :=
  if full then ctlFree k && decide (3 ≤ banksInService k) else (freeHelper k).isSome && !resumeBars k

/-- Whether a core is a thief (R49). -/
def isThief (s : State) (core : Nat) : Bool :=
  let k := s.core core
  s.enabled core && k.resident && !preempting k &&
    ((idleFor k true && k.launchQ.isEmpty && k.spLaunch.isEmpty) ||
      (idleFor k false && (k.deque ++ k.spTasks).all (·.full)))

/-- Whether a core is a candidate victim (R49). -/
def isVictim (s : State) (core : Nat) (k : Core) : Bool :=
  s.enabled core && k.map.any fun e => wbit e 11 && wfld e 6 0 == core

/-- The steal prober of a core becomes `t`. -/
def setSteal (s : State) (core : Nat) (t : Steal) : State := s.setCore core { s.core core with steal := t }

/-- Core cycles in ticks, at the clock step: the clock runs at 2.3 GHz less 0.1 GHz for each step, the tick at 1 GHz (R23, R375). -/
def cycleTicks (s : State) (n : Nat) : Nat := (10 * n + 22 - s.clkStep) / (23 - s.clkStep)

/-- Cycles from a probe to its answer (R330). -/
def probeCycles (thief victim : Nat) : Nat :=
  if padOf thief = padOf victim then 16 else if dieOf thief = dieOf victim then 48 else 160

/-- Whether the cycles of a prober's step have gone by since its probe was sent, or its sweep ended (R330). -/
def stealDue (s : State) (core n : Nat) : Bool := decide ((s.core core).steal.since + cycleTicks s n ≤ s.tick)

/-- STEAL_PROBE: the next candidate of the sweep is probed; after an empty sweep the thief waits (R330). -/
def execStealProbe (core : Nat) (s : State) : Host.Outcome State Fault Refusal :=
  let k := s.core core
  let t := k.steal
  agent
    (if t.victim.isSome then s
     else if !isThief s core then setSteal s core Steal.idle
     else if t.backoff then s
     else match (List.range 96).find? fun j => decide (t.next ≤ j) && decide (1 ≤ j) && isVictim s ((core + j) % 96) k with
       | some j => setSteal s core { t with next := j + 1, victim := some ((core + j) % 96), arrived := false, task := none, since := s.tick }
       | none => setSteal s core { Steal.idle with backoff := !t.took, since := s.tick })

/-- Whether a core lies in the domain of a task forked on another (R49). -/
def inDomain (domain victim thief : Nat) : Bool :=
  domain == 3 || (domain == 2 && dieOf victim == dieOf thief) || (domain == 1 && padOf victim == padOf thief)

/-- Whether a thief may take a task of a victim (R49). -/
def mayTake (thief : Core) (core victim : Nat) (t : Task) : Bool :=
  !t.pinned && t.pid == thief.pid && inDomain t.domain victim core && idleFor thief t.full

/-- STEAL_PROBE_ARRIVAL: the victim gives its topmost task that the thief may take, spill ring first (R49, R330). -/
def execStealProbeArrival (core : Nat) (s : State) : Host.Outcome State Fault Refusal :=
  let k := s.core core
  let t := k.steal
  agent
    (match t.victim, t.arrived || !stealDue s core (probeCycles core (t.victim.getD 0) / 2) with
      | some v, false =>
        let kv := s.core v
        let ok := mayTake k core v
        match takeFirst ok kv.spTasks.reverse with
        | some (x, rest) =>
          let s := spillGive (s.setCore v { kv with spTasks := rest.reverse }) x.pid 1
          setSteal s core { t with arrived := true, task := some x }
        | none =>
          match takeFirst ok kv.deque.reverse with
          | some (x, rest) => setSteal (s.setCore v { kv with deque := rest.reverse }) core { t with arrived := true, task := some x }
          | none => setSteal s core { t with arrived := true, task := none }
      | _, _ => s)

/-- A stolen task returns to the top of its victim's tasks (R330, R465). -/
def stealReturn (s : State) (v : Nat) (t : Task) : State :=
  let k := s.core v
  if k.spTasks.isEmpty && decide (k.deque.length < 32) then s.setCore v { k with deque := k.deque ++ [t] }
  else match spillTake s t.pid 1 with
    | .ok s => s.setCore v { s.core v with spTasks := (s.core v).spTasks ++ [t] }
    | .error off =>
      let s := entryRecord (spillNote s t.pid) (entryId t.group t.vcore v t.pid) 0x0B off 0
      stopGroup (dropTask s v t) v t.pid t.group off

/-- The task of an answer starts as the head of source 64, behind the parked helpers that return; else it goes back (R48, R327,
R330). -/
def stealStart (s : State) (core v : Nat) (x : Task) : State :=
  let s := if x.full || preempting (s.core core) || resumeBars (s.core core) then s else parkedReturns s core 9
  let k := s.core core
  let slot := if !idleFor k x.full then none else if x.full then some 15 else freeHelper k
  match slot, k.resident && k.pid == x.pid && !preempting k with
  | some i, true => grantCredits (startTask s core i x) core 64 false
  | _, _ => stealReturn s v x

/-- STEAL_ANSWER: the task starts, returns, or is discarded with its stopped group (R327, R330, R465, R466). -/
def execStealAnswer (core : Nat) (s : State) : Host.Outcome State Fault Refusal :=
  let t := (s.core core).steal
  agent
    (match t.victim, t.arrived && stealDue s core (probeCycles core (t.victim.getD 0)) with
      | some v, true =>
        match t.task with
        | none => setSteal s core { t with victim := none, arrived := false }
        | some x =>
          let s := setSteal s core { t with victim := none, arrived := false, task := none, took := true }
          if groupStopped s x.pid x.group then dropTask s core x else stealStart s core v x
      | _, _ => s)

/-- STEAL_SWEEP_BACKOFF (R330). -/
def execStealSweepBackoff (core : Nat) (s : State) : Host.Outcome State Fault Refusal :=
  let t := (s.core core).steal
  agent (if t.backoff && stealDue s core 512 then setSteal s core { t with backoff := false, next := 1 } else s)

end Sys2Proof.Machine
end

