-- ==== Sys2Proof/Machine/PreemptSteps.lean ====
section
/-! DEFINITION. Pre-emption and resumption: requests, the budget, the context image, abandonment, the loading of an image
(R335 to R347, R472 to R475). -/

namespace Sys2Proof.Machine

/-! ### Requests (R335, R346, R472, R475) -/

/-- An outcome reported in CTLRES (R472, R475). -/
def setCtlRes (s : State) (pid cause reason : Nat) : State := { s with ctlRes := ctlWord 0 pid 2 cause reason 5 }

/-- Whether a request breaks the rules of its layout (R335). -/
def requestBad (s : State) (w : Word) : Bool :=
  let op := wfld w 63 62
  let pcore := wfld w 61 55
  wbit w 54 || wfld w 11 0 != 0 || (op != 1 && op != 2) ||
    (op == 1 && (wfld w 53 48 != 0 || wfld w 47 12 != 0 || !s.enabled pcore)) || (op == 2 && pcore != 0)

/-- A PREEMPT request at its core: discarded while the control context is IDLE or a pre-emption is in progress (R335). -/
def preemptCore (s : State) (core : Nat) : State :=
  let k := s.core core
  if k.ctl.st = .idle ∨ k.preempt.isSome then s.setCore core { k with ctlStat := ctlWord 0 k.pid 1 0 0 3 }
  else startPreempt s core .request

/-- A RESUME request: the header chooses the core, whose CTLSTAT takes the report over, or the outcome stands in CTLRES (R346,
R472, R475). The cases are tried in the order 6, 5, 7, 8 (log 38). -/
def resumeRequest (s : State) (pid : Nat) (va : Word) : Res Unit :=
  match loadRange s ⟨0, 16, pid⟩ .scalar 2 0 va 8 8 with
  | .wait s => .wait s
  | .flt f s => .ok () (setCtlRes (ueRecord s false (f.trap 1 va) 0) pid f.code 6)
  | .ok bs s =>
    let h := bytesWord bs
    let v := wfld h 47 40
    match mapCore s pid v with
    | none => .ok () (setCtlRes s pid 0x02 5)
    | some core =>
      if wfld h 37 32 ≠ pid then .ok () (setCtlRes s pid 0x02 7)
      else if s.saved.any fun x => x.pid == pid && x.vcore == v && !x.task then
        let k := s.core core
        let r : Resume := { pid := pid, vcore := v, va := va, task := false, asked := true }
        .ok () ({ s with ctlRes := 0 }.setCore core { k with resumes := k.resumes ++ [r], ctlStat := ctlWord 0 pid 2 0 0 1 })
      else .ok () (setCtlRes s pid 0x02 8)

/-- A RESUME request whose header cannot be read yet waits, CTLRES in progress (R472). -/
def resumeTry (s : State) (pid : Nat) (va : Word) : State :=
  match resumeRequest { s with ctlRes := ctlWord 0 pid 2 0 0 1 } pid va with
  | .ok _ s => s
  | .flt _ s => s
  | .wait s => { s with resumeReqs := s.resumeReqs ++ [(pid, va)] }

/-- The RESUME requests that wait are tried again (R346). -/
def resumeRetry (s : State) : State := s.resumeReqs.foldl (fun s r => resumeTry s r.1 r.2) { s with resumeReqs := [] }

/-- A request written to the core control window (R335). -/
def ctlRequest (s : State) (w : Word) : State :=
  if requestBad s w then entryRecord s 0 0x02 0 w
  else if wfld w 63 62 = 1 then preemptCore s (wfld w 61 55)
  else resumeTry s (wfld w 53 48) (sextW 48 (BitVec.ofNat 64 (wfld w 47 12 * 4096)))

/-- PREEMPT (R335). -/
def execPreempt (w : Word) (s : State) : Host.Outcome State Fault Refusal := agent (ctlRequest s w)

/-- RESUME (R346). -/
def execResume (w : Word) (s : State) : Host.Outcome State Fault Refusal := agent (ctlRequest s w)

/-! ### The budget and abandonment (R336 to R338, R473) -/

/-- A pre-emption of a core during which a context has entered its handler is held (R335). -/
def holdPreempt (s : State) (core : Nat) (p : Preempt) : State :=
  s.setCore core { s.core core with preempt := some { p with held := true, expired := false } }

/-- PREEMPT_BUDGET_EXPIRY: once nothing of the control context is unretired, or after 2,048 cycles, waiting FIFO accesses
are squashed (R336, R338). -/
def execPreemptBudgetExpiry (core : Nat) (s : State) : Host.Outcome State Fault Refusal :=
  let k := s.core core
  agent
    (match k.preempt with
      | some p =>
        if p.held || p.expired then s
        else if inHandlers k then holdPreempt s core p
        else if k.ctl.stall.isNone || decide (p.start + cycleTicks s 2048 ≤ s.tick) then
          let leave (s : State) (i : Nat) : State :=
            match (s.ctx core i).stall with
            | some b => fifoLeave s (b / 16) (b % 16) core i
            | none => s
          let s := [15, 0, 1, 2, 3, 4, 5, 6, 7, 8].foldl leave s
          s.setCore core { s.core core with preempt := some { p with expired := true } }
        else s
      | none => s)

/-- A pre-emption is abandoned: nothing is SAVED and the core goes on (R473). -/
def abandon (s : State) (core : Nat) (p : Preempt) (cause reason : Nat) : State :=
  let k := s.core core
  s.setCore core { k with preempt := none, ctlStat := ctlWord 0 k.pid p.why.op cause reason 4 }

/-- Posted stores of the contexts that an image holds (R336). -/
def Posted.ofSaved (p : Posted) : Bool := decide (p.slot < 9) || p.slot == 15

/-- Whether the posted access of a delivery is one of a core's contexts that an image holds, still on its way to its target in host
memory (R145, R147, R336). -/
def Delivery.ofSaved (core : Nat) (d : Delivery) : Bool :=
  d.dst == 2 && d.line.isSome && match d.owner with
    | some (c, slot) => c == core && (decide (slot < 9) || slot == 15)
    | none => false

/-- Whether the contexts that an image of a core holds still have posted accesses of their own: in the core, or on their way to host
memory (R145, R336). -/
def drainLeft (s : State) (core : Nat) : Bool := (s.core core).posted.any Posted.ofSaved || s.flights.any (Delivery.ofSaved core)

/-- Whether 2^20 ticks have gone by since the interrupt (R473). -/
def Preempt.late (p : Preempt) (tick : Nat) : Bool := decide (p.start + 2 ^ 20 ≤ tick)

/-- PREEMPT_ABANDON: a drain that has not ended 2^20 ticks after the interrupt (R473). -/
def execPreemptAbandon (core : Nat) (s : State) : Host.Outcome State Fault Refusal :=
  let k := s.core core
  agent
    (match k.preempt with
      | some p =>
        if !p.held && p.late s.tick && drainLeft s core then abandon s core p 0 1 else s
      | none => s)

/-! ### Writing an image (R341 to R345) -/

/-- A section of an image: its offset and its bytes. -/
abbrev Section := Nat × List Byte

/-- The bytes of 8-byte words. -/
def natBytes (ws : List Nat) : List Byte := (ws.map (natToBytes 8)).flatten

/-- The bytes of registers. -/
def regBytes (ws : List Word) : List Byte := natBytes (ws.map BitVec.toNat)

/-- A mask's runs with VALUE 0 or 1 (R341). -/
def maskRuns (k : List KRun) : List Run := k.map fun r => ⟨BitVec.ofNat 32 (b2n r.val), r.len⟩

/-- The header of a vector: LEN and NRUN (R341). -/
def runHead (r : List Run) : Nat := put r.length 32 + (r.map (·.len)).sum

/-- The run records of vectors, `stride` bytes apart; an empty vector has none (R341). -/
def runSections (base stride : Nat) (rs : List (List Run)) : List Section :=
  ((List.range rs.length).filter fun i => !(rs.getD i []).isEmpty).map fun i =>
    (base + i * stride, natBytes ((rs.getD i []).map runRecord))

/-- The vector windows of a context, in order: its pending vector slots. -/
def Ctx.vecPend (c : Ctx) : List Pend := c.pend.filter (·.isVec)

/-- The two words of a pending write record; `slot` is the vector slot it names (R344). -/
def pendRecord (slot : Nat) (p : Pend) : List Nat :=
  [if p.isVec then slot else p.word.toNat, put 1 63 + put (p.count % 16) 8 + put (b2n p.isVec) 6 + p.reg % 64]

/-- Pending write records in order; the vector ones take the slots from `n` on. -/
def pendRecords : Nat → List Pend → List Nat
  | _, [] => []
  | n, p :: ps => pendRecord n p ++ pendRecords (if p.isVec then n + 1 else n) ps

/-- The pending vector slots of a context (R341, R343). -/
def slotSections (base : Nat) (c : Ctx) : List Section :=
  (List.range c.vecPend.length).map fun i =>
    let r := (c.vecPend.map (·.runs)).getD i []
    (base + i * 1024, natBytes (runHead r :: r.map runRecord))

/-- The 16 pending write records of a context, the invalid ones zero. -/
def pendSection (base : Nat) (c : Ctx) : Section :=
  (base, natBytes (pendRecords 0 c.pend ++ List.replicate (32 - 2 * c.pend.length) 0))

/-- The word of a pending transfer (R342). -/
def transferNat (c : Ctx) : Nat :=
  match c.tv with
  | some d => put 1 63 + wfld d 47 0
  | none => 0

/-- Bits of a list of Booleans, the first lowest. -/
def bitsOf (bs : List Bool) : Nat := ((List.range bs.length).map fun i => put (b2n (bs.getD i false)) i).sum

/-- STATE of an image (R342). -/
def stateNat (c : Ctx) : Nat := b2n (c.st == .waiting)

/-- s0 to the last register of a view; the s0 slot is zero (R341). -/
def scalarBytes (c : Ctx) (n : Nat) : List Byte := regBytes (0 :: (c.s.toList.take n).drop 1)

/-- Branch-target addresses, then the latches (R341, R343). -/
def targetBytes (c : Ctx) : List Byte := regBytes (c.b.toList.map (·.addr))

/-- The helpers of a core that a save takes (R338). -/
def savedHelpers (k : Core) : List Nat := (List.range 9).filter fun i => (k.ctx i).st != .idle

/-- LIVE (R345). -/
def liveNat (k : Core) : Nat :=
  let cs := k.ctl :: (savedHelpers k).map k.ctx
  bitsOf
    [k.tiles.toList.any Option.isSome, cs.any fun c => c.v.toList.any fun r => !r.isEmpty,
     cs.any fun c => (c.k.toList.drop 1).any fun r => !r.isEmpty, cs.any fun c => !c.pend.isEmpty,
     cs.any fun c => c.tv.isSome, k.layouts.toList.any Option.isSome,
     k.tcs.toList.any fun t => t.issued != 0 || t.done != 0, !(savedHelpers k).isEmpty, k.mfull.toList.any id,
     cs.any fun c => c.g.toList.any id]

/-- Whether feature `f` is live. -/
def featLive (live f : Nat) : Bool := live / 2 ^ f % 2 == 1

/-- Sections that are written only where their feature is live (R341). -/
def onLive (live f : Nat) (ss : List Section) : List Section := if featLive live f then ss else []

/-- The image of a helper at its offset (R343). -/
def helperSections (live base : Nat) (c : Ctx) : List Section :=
  let w10 := put (bitsOf (c.b.toList.map (·.valid))) 56 + put (bitsOf (c.g.toList.take 8)) 48 + put (c.group % 65536) 32 +
    put (c.vcore % 256) 24 + put c.pend.length 16 + put (b2n c.priv) 4 + stateNat c
  let w20 := put (b2n !c.code.isEmpty) 63 + put (b2n c.cellDone) 62 + c.code.length % 64
  let w28 := put (c.cls % 4) 24 + put (c.domain % 4) 20 + put (c.major % 256) 8 + c.minor % 256
  let vs := c.v.toList.take 4
  let ks := [] :: ((c.k.toList.take 4).drop 1).map maskRuns
  [(base, natBytes [c.pc.toNat, transferNat c, w10, c.cell.toNat, w20, w28])] ++
    (if c.code.isEmpty then [] else [(base + 0x40, (c.code.map fun w => natToBytes 4 w.toNat).flatten)]) ++
    [(base + 0x100, scalarBytes c 16), (base + 0x180, targetBytes c), (base + 0x1C0, regBytes [c.la, c.lb])] ++
    onLive live 3 (pendSection (base + 0x200) c :: slotSections (base + 0x1C00) c) ++
    onLive live 1 ((base + 0x300, natBytes (vs.map runHead)) :: runSections (base + 0x400) 512 vs) ++
    onLive live 2 ((base + 0x320, natBytes (ks.map runHead)) :: runSections (base + 0xC00) 1024 ks)

/-- Byte n of TILES (R342). -/
def tileByte (t : Option Tile) : Byte :=
  match t with
  | some t => BitVec.ofNat 8 (128 + t.tag.toNat)
  | none => 0

/-- The sections of the image of a core's contexts, but for the word at 0x038 (R341, R342). -/
def imageSections (s : State) (core : Nat) : List Section :=
  let k := s.core core
  let c := k.ctl
  let live := liveNat k
  let w0 := put (c.group % 65536) 48 + put (c.vcore % 256) 40 + put (k.pid % 64) 32 + put 1 24 + put 1 16 +
    put (c.major % 256) 8 + c.minor % 256
  let w20 := put c.pend.length 16 + put (b2n c.priv) 12 + put (c.domain % 4) 10 + put (c.cls % 4) 8 + stateNat c
  let w50 := put (bitsOf k.mfull.toList) 32 + put (bitsOf (c.b.toList.map (·.valid))) 16 + bitsOf c.g.toList
  let ks := [] :: (c.k.toList.drop 1).map maskRuns
  [(0x00, natBytes [w0, live, c.pc.toNat, transferNat c, w20, if c.full then 0 else c.cell.toNat, s.tick]),
   (0x40, k.tiles.toList.map tileByte),
   (0x50, natBytes [w50, if c.full then c.cell.toNat else 0, b2n c.full, 0, 0, 0]),
   (0x80, targetBytes c), (0xC0, regBytes [c.la, c.lb]), (0x100, scalarBytes c 48)] ++
    onLive live 8 [(0x280, regBytes k.m.toList)] ++
    onLive live 6 [(0x300, regBytes (k.tcs.toList.map fun t => [t.issued, t.done]).flatten)] ++
    onLive live 3 (pendSection 0x380 c :: slotSections 0x5000 c) ++
    onLive live 5 [(0x480, (k.layouts.toList.map fun l => l.getD (List.replicate 64 0)).flatten)] ++
    onLive live 1 ((0x880, natBytes (c.v.toList.map runHead)) :: runSections 0x900 512 c.v.toList) ++
    onLive live 2 ((0x2900, natBytes (ks.map runHead)) :: runSections 0x2A00 1024 ks) ++
    ((savedHelpers k).map fun n => helperSections live (0x8000 + n * 0x4000) (k.ctx n)).flatten ++
    ((List.range 16).filterMap fun n => match vget k.tiles n none with
      | some t => some (0x3_0000 + n * 0x4000, (t.rows.toList.map rowBytes).flatten)
      | none => none)

/-- The word at 0x038 (R342). -/
def completeNat (k : Core) (core : Nat) : Nat :=
  put 1 63 + put ((savedHelpers k).map (2 ^ ·)).sum 16 + core % 128

/-- Sections written through the tables of the PID, in order. -/
def writeSections (s : State) (w : Who) (id va : Word) : List Section → Res Unit
  | [] => .ok () s
  | (o, bs) :: r => (engineStore s w id 0 2 0 (va + BitVec.ofNat 64 o) bs).bind fun _ s => writeSections s w id va r

/-! ### The save (R336, R338, R339) -/

/-- The register-write message that a message register's value came in (R52). -/
def regMsg (k : Core) (n : Nat) : Msg :=
  let f := vget k.mfrom n (0, 0)
  { kind := 0, mreg := n, slot := 0, srcv := 0, dstv := f.2, pid := k.pid, group := f.1, domain := 0, peer := false,
    arga := vget k.m n 0, argb := 0, pay := List.replicate 5 0, code := [], priv := false, major := 3, minor := 2 }

/-- A register-write message goes to the head of the backlog; a full one spills (R55, R339). -/
def backlogFirst (s : State) (core : Nat) (m : Msg) : State :=
  let k := s.core core
  if k.backlog.length < 32 then s.setCore core { k with backlog := m :: k.backlog }
  else match spillTake s m.pid 1 with
    | .ok s =>
      s.setCore core { s.core core with backlog := m :: k.backlog.take 31, spBacklog := k.backlog.drop 31 ++ k.spBacklog }
    | .error off => breach (spillNote s m.pid) core m.pid m.group m.dstv 2 off

/-- A value takes a message register ahead of the one it holds (R339). -/
def regFirst (s : State) (core n : Nat) (v : Word) (group vcore : Nat) : State :=
  let k := s.core core
  let s := if vget k.mfull n false then backlogFirst s core (regMsg k n) else s
  let k := s.core core
  s.setCore core { k with m := k.m.setIfInBounds n v, mfull := k.mfull.setIfInBounds n true,
                          mfrom := k.mfrom.setIfInBounds n (group, vcore) }

/-- A value taken for an MRECV that has not retired returns to its register, from here on as a value sent to the context's own group
and virtual core (R33, R52, R338; log 43). -/
def giveBack (s : State) (core slot : Nat) : State :=
  let c := s.ctx core slot
  match c.wait, c.given with
  | .mrecv n, some v => regFirst (s.setCtx core slot { c with given := none, wait := .none }) core n v c.group c.vcore
  | _, _ => s

/-- The messages of a queue of a core that are for a virtual core are diverted one after another, each taken from the queue where a
stop of its group, by a breach of this very save perhaps, finds the rest (R339, R466). -/
def divertQueue (get : Core → List Msg) (put : Core → List Msg → Core) (core pid v : Nat) : Nat → State → State
  | 0, s => s
  | n + 1, s =>
    match takeFirst (fun (m : Msg) => m.pid == pid && m.dstv == v) (get (s.core core)) with
    | some (m, rest) => divertQueue get put core pid v n (divert (s.setCore core (put (s.core core) rest)) core m)
    | none => s

/-- The spilled messages of a queue of a core that are for a virtual core are diverted; they keep their units (R333, R339). -/
def divertSpilled (get : Core → List Msg) (put : Core → List Msg → Core) (core pid v : Nat) (s : State) : State :=
  let mine (m : Msg) : Bool := m.pid == pid && m.dstv == v
  let q := get (s.core core)
  let add (x : Saved) : Saved := { x with diverted := x.diverted ++ q.filter mine }
  let s := s.setCore core (put (s.core core) (q.filter fun m => !mine m))
  { s with saved := updFirst (fun x => x.pid == pid && x.vcore == v) add s.saved }

/-- The messages of the saved virtual core that its core holds are diverted, those of each queue in its order; those of a group that
is stopped on the way are discarded (R339, R466). -/
def divertHeld (s : State) (core pid v : Nat) : State :=
  let k := s.core core
  let s := s.setCore core { k with mfull := Vector.replicate 16 false }
  let s := divertQueue (·.backlog) (fun k q => { k with backlog := q }) core pid v k.backlog.length s
  let s := divertSpilled (·.spBacklog) (fun k q => { k with spBacklog := q }) core pid v s
  let s := divertQueue (·.inbox) (fun k q => { k with inbox := q }) core pid v k.inbox.length s
  divertSpilled (·.spInbox) (fun k q => { k with spInbox := q }) core pid v s

/-- The saved contexts leave the core: the slots are IDLE, the tiles dead (R336). -/
def leaveCore (k : Core) : Core :=
  let gone (k : Core) (i : Nat) : Core := k.setCtx i { (k.ctx i).ended with st := .idle }
  { ([15, 0, 1, 2, 3, 4, 5, 6, 7, 8].foldl gone k).tilesDead with preempt := none }

/-- Every saved context becomes SAVED; the parked helpers of its virtual core stay in the spill ring, and the prefetches that they held
are gone (R62, R332, R336, R338, R339). -/
def saveDone (s : State) (core : Nat) (p : Preempt) (image : List Byte) : State :=
  let k := s.core core
  let c := k.ctl
  let mine (h : Ctx) : Bool := h.vcore == c.vcore
  let x : Saved :=
    { pid := k.pid, vcore := c.vcore, core := core, va := c.save, task := c.full, image := image, group := c.group,
      groups := c.group :: (savedHelpers k).map fun i => (k.ctx i).group,
      cls := c.cls, waits := p.why != .request || c.full, helpers := ((savedHelpers k).map (2 ^ ·)).sum,
      parked := (k.parked.filter mine).map fun h => { h with b := h.b.map fun t => { t with pre := none } }, diverted := [] }
  let s := { s with saved := s.saved ++ [x] }
  let s := s.setCore core
    { leaveCore k with ctlStat := ctlWord 0 k.pid p.why.op 0 0 2, switched := if p.why = .request then none else some c.vcore,
                       parked := k.parked.filter fun h => !mine h }
  lowerReins (divertHeld s core k.pid c.vcore)

/-- The bytes of an image in the spill area: unwritten ones are zero there. -/
def imageBytes (ss : List Section) : List Byte :=
  let m := ss.foldl (fun m x => memWrite m x.1 x.2) []
  memRead m 0 ((ss.map fun x => x.1 + x.2.length).foldl max 0)

/-- The first tile with a failing word, and its bank (R454, R473). -/
def tileUe (k : Core) (core : Nat) : Option (Nat × Nat) :=
  k.tiles.toList.findSome? fun t => match t with
    | some t => if t.bad.isEmpty then none else some (bankUnit core (t.phys / 8))
    | none => none

/-- The image's last header word is written, as a release at system scope: once every word before it is performed at every place
(R148, R336, R342, R473). -/
def writeLast (s : State) (core : Nat) (p : Preempt) : State :=
  let k := s.core core
  match (released s core [] 4).bind fun _ s =>
      writeSections s ⟨core, 16, k.pid⟩ (s.ctxid core 15) k.ctl.save [(0x38, natToBytes 8 (completeNat k core))] with
  | .wait s => s
  | .flt f s => abandon (ueRecord s false (f.trap 2 k.ctl.save) 0) core p f.code 2
  | .ok _ s => saveDone s core p []

/-- An image is written to its SAVE address, or to the spill area (R335, R336, R426, R473). -/
def writeImage (s : State) (core : Nat) (p : Preempt) : State :=
  match tileUe (s.core core) core with
  | some (c, i) => abandon (unitRecord s c i 5) core p 0x0E 3
  | none =>
    let s := [15, 0, 1, 2, 3, 4, 5, 6, 7, 8].foldl (fun s i => giveBack s core i) s
    let k := s.core core
    let ss := imageSections s core
    if k.ctl.full then
      match spillTake s k.pid 7168 with
      | .ok s => saveDone s core p (imageBytes (ss ++ [(0x38, natToBytes 8 (completeNat k core))]))
      | .error _ => abandon (spillNote s k.pid) core p 0x0B 4
    else
      match writeSections s ⟨core, 16, k.pid⟩ (s.ctxid core 15) k.ctl.save ss with
      | .wait s => s
      | .flt f s => abandon (ueRecord s false (f.trap 2 k.ctl.save) 0) core p f.code 2
      | .ok _ s =>
        let p := { p with imaged := true }
        writeLast (s.setCore core { s.core core with preempt := some p }) core p

/-- PREEMPT_IMAGE_WRITE: the drain ends, host memory and the peer's window among its targets, then the image is written; a drain
that outlasts its limit abandons it (R145, R335, R336, R339, R473). -/
def execPreemptImageWrite (core : Nat) (s : State) : Host.Outcome State Fault Refusal :=
  agent
    (match (s.core core).preempt with
      | some p =>
        if p.held || !p.expired then s
        else if inHandlers (s.core core) then holdPreempt s core p
        else if p.imaged then writeLast s core p
        else
          let late (s : State) : State := if p.late s.tick then abandon s core p 0 1 else s
          if p.late s.tick && drainLeft s core then abandon s core p 0 1
          else match drain s core Posted.ofSaved with
            | .ok _ s =>
              let s := settleFlights s 2
              if drainLeft s core then late s else writeImage s core p
            | .flt _ s => late s
            | .wait s => late s
      | none => s)

/-! ### Loading an image (R346, R347, R475) -/

/-- A word of an image. -/
def imgWord (img : List Byte) (o : Nat) : Nat := bytesToNat (slice img o 8)

/-- The registers of an image from an offset. -/
def imgWords (img : List Byte) (o n : Nat) : List Word := (List.range n).map fun i => BitVec.ofNat 64 (imgWord img (o + 8 * i))

/-- The runs under a vector header, 64 or 128 at most. -/
def imgRuns (img : List Byte) (head runs most : Nat) : List Run :=
  (List.range (min (fld (imgWord img head) 39 32) most)).map fun i => recordRun (imgWord img (runs + 8 * i))

/-- A mask's runs. -/
def imgMask (img : List Byte) (head runs : Nat) : List KRun :=
  (imgRuns img head runs 128).map fun r => ⟨r.val.getLsbD 0, r.len⟩

/-- The valid pending write records of an image (R344). -/
def imgPend (img : List Byte) (recs slots : Nat) : List Pend :=
  ((List.range 16).filter fun i => fld (imgWord img (recs + 16 * i + 8)) 63 63 == 1).map fun i =>
    let v := imgWord img (recs + 16 * i)
    let w := imgWord img (recs + 16 * i + 8)
    let vec := fld w 7 6 == 1
    { isVec := vec, reg := fld w 5 0, word := BitVec.ofNat 64 v,
      runs := if vec then imgRuns img (slots + v % 4 * 1024) (slots + v % 4 * 1024 + 8) 64 else [],
      count := fld w 11 8, outer := false }

/-- The pending transfer of an image word (R342). -/
def imgTransfer (live w : Nat) : Option Word :=
  if featLive live 4 && fld w 63 63 == 1 then some (sextW 48 (BitVec.ofNat 64 w)) else none

/-- Branch targets of an image, not fetched for yet. -/
def imgTargets (img : List Byte) (o valid : Nat) (ver : Nat × Nat) : Vector BTarget 8 :=
  Vector.ofFn fun i : Fin 8 =>
    { addr := BitVec.ofNat 64 (imgWord img (o + 8 * i.val)), valid := featLive valid i.val, slot := 15, major := ver.1,
      minor := ver.2, pre := none }

/-- Guards of an image. -/
def imgGuards (live w n : Nat) : Vector Bool 16 :=
  Vector.ofFn fun i : Fin 16 => featLive live 9 && decide (i.val < n) && featLive w i.val

/-- The control context of an image, in a slot whose trap registers stay (R342, R346, R416). -/
def imgCtl (img : List Byte) (live : Nat) (old : Ctx) (save : Word) : Ctx :=
  let w0 := imgWord img 0
  let w20 := imgWord img 0x20
  let w50 := imgWord img 0x50
  let task := imgWord img 0x60 % 2 == 1
  let s := imgWords img 0x108 47
  { freshCtx old (BitVec.ofNat 64 (imgWord img 0x10)) s (fld w0 15 8, fld w0 7 0) with
    group := fld w0 63 48, vcore := fld w0 47 40, priv := fld w20 12 12 == 1, domain := fld w20 11 10, cls := fld w20 9 8,
    tv := imgTransfer live (imgWord img 0x18),
    cell := BitVec.ofNat 64 (imgWord img (if task then 0x58 else 0x28)), cellDone := !task, full := task, save := save,
    b := imgTargets img 0x80 (fld w50 23 16) (fld w0 15 8, fld w0 7 0), la := BitVec.ofNat 64 (imgWord img 0xC0),
    lb := BitVec.ofNat 64 (imgWord img 0xC8), g := imgGuards live (fld w50 15 0) 16,
    pend := if featLive live 3 then imgPend img 0x380 0x5000 else [],
    v := Vector.ofFn fun i : Fin 16 => if featLive live 1 then imgRuns img (0x880 + 8 * i.val) (0x900 + 512 * i.val) 64 else [],
    k := Vector.ofFn fun i : Fin 8 =>
      if featLive live 2 && i.val != 0 then imgMask img (0x2900 + 8 * i.val) (0x2A00 + 1024 * i.val) else [] }

/-- A helper of an image (R343, R346). -/
def imgHelper (img : List Byte) (live : Nat) (old : Ctx) (base : Nat) : Ctx :=
  let w10 := imgWord img (base + 0x10)
  let w20 := imgWord img (base + 0x20)
  let w28 := imgWord img (base + 0x28)
  { freshCtx old (BitVec.ofNat 64 (imgWord img base)) (imgWords img (base + 0x108) 15) (fld w28 15 8, fld w28 7 0) with
    group := fld w10 47 32, vcore := fld w10 31 24, priv := fld w10 4 4 == 1, domain := fld w28 21 20, cls := fld w28 25 24,
    tv := imgTransfer live (imgWord img (base + 8)), cell := BitVec.ofNat 64 (imgWord img (base + 0x18)),
    cellDone := fld w20 62 62 == 1,
    code := if fld w20 63 63 = 1 then codeOf (min (fld w20 5 0) 48) (slice img (base + 0x40) 192) else [],
    b := imgTargets img (base + 0x180) (fld w10 63 56) (fld w28 15 8, fld w28 7 0), la := BitVec.ofNat 64 (imgWord img (base + 0x1C0)),
    lb := BitVec.ofNat 64 (imgWord img (base + 0x1C8)), g := imgGuards live (fld w10 55 48) 8,
    pend := if featLive live 3 then imgPend img (base + 0x200) (base + 0x1C00) else [],
    v := Vector.ofFn fun i : Fin 16 =>
      if featLive live 1 && decide (i.val < 4) then imgRuns img (base + 0x300 + 8 * i.val) (base + 0x400 + 512 * i.val) 64 else [],
    k := Vector.ofFn fun i : Fin 8 =>
      if featLive live 2 && decide (0 < i.val) && decide (i.val < 4) then
        imgMask img (base + 0x320 + 8 * i.val) (base + 0xC00 + 1024 * i.val)
      else [] }

/-- Reserved bits of the header, by word (R342). -/
def headerReserved : List (Nat × Nat × Nat) :=
  [(0x00, 39, 38), (0x18, 62, 48), (0x20, 63, 21), (0x20, 15, 13), (0x20, 7, 2), (0x38, 62, 25), (0x38, 15, 7),
   (0x50, 63, 48), (0x50, 31, 24), (0x60, 63, 1), (0x68, 63, 0), (0x70, 63, 0), (0x78, 63, 0)]

/-- Whether the image moves against R340: a counter that is not complete, a target counter in use, a latched fault. -/
def moveBad (s : State) (core pid : Nat) (img : List Byte) : Bool :=
  let from' := fld (imgWord img 0x38) 6 0
  let k := s.core core
  let open' (i : Nat) : Bool :=
    featLive (imgWord img 8) 6 && imgWord img (0x300 + 16 * i) != imgWord img (0x308 + 16 * i)
  from' != core &&
    ((List.range 8).any open' || (k.pid == pid && k.tcs.toList.any fun t => t.issued != 0 || t.done != 0) ||
      (s.core from').tcs.toList.any fun t => t.latch.isSome)

/-- The lowest LIVE bit that the part lacks (R345, R347). -/
def lackedFeature (live : Nat) : Option Nat := ((List.range 64).drop 10).find? fun f => featLive live f

/-- Why an image is refused: REASON, CAUSE and FEATURE of R475; reasons 5, 7 and 8 stand in CTLRES. -/
def refusal (s : State) (core : Nat) (r : Resume) (img : List Byte) : Option (Nat × Nat × Nat) :=
  let w0 := imgWord img 0
  let live := imgWord img 8
  if (mapCore s r.pid (fld w0 47 40)).isNone then some (5, 0x02, 0)
  else if fld w0 37 32 ≠ r.pid then some (7, 0x02, 0)
  else if !(isSaved s r.pid (fld w0 47 40)) then some (8, 0x02, 0)
  else if fld (imgWord img 0x38) 63 63 = 0 ∨ fld w0 23 16 ≠ 1 ∨
      headerReserved.any (fun x => fld (imgWord img x.1) x.2.1 x.2.2 != 0) then some (1, 0x02, 0)
  else if fld w0 15 8 ≠ 3 then some (2, 0x0D, 0)
  else match lackedFeature live with
    | some f => some (3, 0x0D, f)
    | none => if moveBad s core r.pid img then some (4, 0x0D, 0) else none

/-- A resume is refused: nothing else changes (R475). -/
def refuseResume (s : State) (core : Nat) (r : Resume) (x : Nat × Nat × Nat) : State :=
  let op := if r.asked then 2 else 3
  let w := ctlWord x.2.2 r.pid op x.2.1 x.1 5
  let s := if 5 ≤ x.1 then { s with ctlRes := w } else s
  s.setCore core { s.core core with ctlStat := w }

/-- Tiles of an image, each in a free physical tile with its tag (R346). -/
def imgTiles (img : List Byte) (tick : Nat) (k : Core) : Core :=
  (List.range 16).foldl (fun k n =>
    let b := bytesToNat (slice img (0x40 + n) 1)
    match b / 128, freePhys k with
    | 1, some p =>
      let row (i : Nat) : Row := bytesRow (slice img (0x3_0000 + n * 0x4000 + i * 256) 256)
      let t : Tile :=
        { phys := p, tag := BitVec.ofNat 7 b, rows := Vector.ofFn fun i : Fin 64 => row i.val, t1 := none,
          written := tick, bad := [] }
      { k with tiles := k.tiles.setIfInBounds n (some t) }
    | _, _ => k) k

/-- Counters and layout slots of an image that resumes on another core (R340). -/
def imgCounters (img : List Byte) (core live : Nat) (k : Core) : Core :=
  if fld (imgWord img 0x38) 6 0 = core then k
  else
    let word (o : Nat) : Word := if featLive live 6 then BitVec.ofNat 64 (imgWord img o) else 0
    let slot (i : Nat) : Option (List Byte) :=
      let l := slice img (0x480 + 64 * i) 64
      if featLive live 5 && l.any (· != 0) then some l else none
    { k with tcs := Vector.ofFn fun i : Fin 8 => { issued := word (0x300 + 16 * i.val), done := word (0x308 + 16 * i.val), latch := none },
             layouts := Vector.ofFn fun i : Fin 16 => slot i.val }

/-- The helpers that an image names. -/
def imgHelpers (img : List Byte) : List Nat :=
  (List.range 9).filter fun n => featLive (imgWord img 8) 7 && featLive (fld (imgWord img 0x38) 24 16) n

/-- The prefetch of every valid branch target of a context is made again (R346). -/
def refetch (s : State) (core slot : Nat) : State :=
  (List.range 8).foldl (fun s i =>
    let t := vget (s.ctx core slot).b i BTarget.clear
    if t.valid then
      let (pre, s) := prefetchAt s core slot t.addr
      let c := s.ctx core slot
      s.setCtx core slot { c with b := c.b.setIfInBounds i { t with slot := slot, pre := pre } }
    else s) s

/-- The image's helpers take idle slots, the lowest first. -/
def startHelpers (s : State) (core : Nat) (img : List Byte) : List Nat → State
  | [] => s
  | n :: ns =>
    match freeHelper (s.core core) with
    | some slot =>
      startHelpers (refetch (startIn s core slot (imgHelper img (imgWord img 8) (s.ctx core slot) (0x8000 + n * 0x4000))) core slot)
        core img ns
    | none => s

/-- The message registers of an image are restored, ahead of what the core holds; the image names neither group nor virtual core of a
value, which are from here on those of the saved context (R33, R339; log 43). -/
def restoreRegs (s : State) (core : Nat) (img : List Byte) (group vcore : Nat) : State :=
  let full := if featLive (imgWord img 8) 8 then fld (imgWord img 0x50) 47 32 else 0
  ((List.range 16).filter (featLive full)).foldl (fun s n =>
    let s := regFirst s core n (BitVec.ofNat 64 (imgWord img (0x280 + 8 * n))) group vcore
    s.setCore core (giveReg (s.core core) n)) s

/-- A message that was diverted is delivered, its units returned, though another context of the virtual core be SAVED still (R339; log
43). -/
def undivert (core : Nat) (s : State) (m : Msg) : State := deliverHere (spillGive s m.pid m.units) core m

/-- The messages that were diverted for a SAVED context, which stands first in the list, are delivered one after another; a stop of their
group, by a breach of one of them perhaps, finds the rest there (R339, R466). -/
def undivertAll (core : Nat) : Nat → State → State
  | 0, s => s
  | n + 1, s =>
    match s.saved with
    | x :: rest => match x.diverted with
      | m :: ms => undivertAll core n (undivert core { s with saved := { x with diverted := ms } :: rest } m)
      | [] => s
    | [] => s

/-- What the spill rings hold for a virtual core goes with it to the core that resumes it: tasks, launches, messages (R332). -/
def moveSpilled (s : State) (a b pid v : Nat) : State :=
  if a = b then s
  else
    let ka := s.core a
    let kb := s.core b
    let mt (t : Task) : Bool := t.pid == pid && t.vcore == v
    let ml (l : Launch) : Bool := l.pid == pid && l.vcore == v
    let mm (m : Msg) : Bool := m.pid == pid && m.dstv == v
    let s := s.setCore a { ka with spTasks := ka.spTasks.filter fun t => !mt t, spLaunch := ka.spLaunch.filter fun l => !ml l,
                                   spBacklog := ka.spBacklog.filter fun m => !mm m, spInbox := ka.spInbox.filter fun m => !mm m }
    s.setCore b { kb with spTasks := kb.spTasks ++ ka.spTasks.filter mt, spLaunch := kb.spLaunch ++ ka.spLaunch.filter ml,
                          spBacklog := kb.spBacklog ++ ka.spBacklog.filter mm, spInbox := kb.spInbox ++ ka.spInbox.filter mm }

/-- An accepted image is loaded and its contexts start; parked helpers return to the core's spill ring (R332, R338 to R340,
R346). -/
def loadImage (s : State) (core : Nat) (r : Resume) (x : Saved) (img : List Byte) : State :=
  let live := imgWord img 8
  let s := pidTake s core r.pid
  let s := match takeSaved s core r with
    | some (_, rest) => { s with saved := rest }
    | none => s
  let s := moveSpilled (if x.task then spillGive s x.pid 7168 else s) x.core core x.pid x.vcore
  let k := imgCounters img core live (if featLive live 0 then imgTiles img s.tick (s.core core) else s.core core)
  let s := s.setCore core { k with ctlStat := ctlWord 0 r.pid (if r.asked then 2 else 3) 0 0 2, parked := k.parked ++ x.parked }
  let s := refetch (startIn s core 15 (imgCtl img live k.ctl x.va)) core 15
  let s := startHelpers s core img (imgHelpers img)
  let s := { s with saved := { x with groups := [], parked := [] } :: s.saved }
  let s := undivertAll core x.diverted.length (restoreRegs s core img x.group x.vcore)
  { s with saved := s.saved.drop 1 }

/-- The bytes of a resume's image: from the spill area, or read whole through the tables (R335, R475). -/
def readImage (s : State) (core : Nat) (r : Resume) (x : Saved) : Res (List Byte) :=
  if r.task then .ok x.image s else loadRange s ⟨core, 16, r.pid⟩ .scalar 2 0 r.va 0x7_0000 0x7_0000

/-- A resume of a core is loaded, refused, or waits (R346, R347). -/
def resumeOldest (s : State) (core : Nat) (r : Resume) : State :=
  let k := s.core core
  let done (s : State) : State := s.setCore core { s.core core with resumes := (s.core core).resumes.erase r }
  match takeSaved s core r with
  | none => refuseResume (done s) core r (8, 0x02, 0)
  | some (x, _) =>
    if k.ctl.st != .idle || !pidOk k r.pid || preempting k || decide (idleHelpers k < resumeNeed s core) ||
        decide (banksInService k < 3) then s
    else match readImage s core r x with
      | .wait s => s
      | .flt f s => refuseResume (done (ueRecord s false (f.trap 1 r.va) 0)) core r (6, f.code, 0)
      | .ok img s =>
        match refusal s core r img with
        | some y => refuseResume (done s) core r y
        | none => if idleHelpers k < (imgHelpers img).length then s else loadImage (done s) core r x img

/-- RESUME_LOAD (R346, R347, R475). -/
def execResumeLoad (core : Nat) (s : State) : Host.Outcome State Fault Refusal :=
  agent
    (match resumeNext (s.core core) with
      | some r => resumeOldest s core r
      | none => s)

/-! ### Which contexts can execute (R32, R67, R120, R336, R338, R392) -/

/-- Whether a context waits for the pre-emption of its core: h9 goes on, and a turn that is named lets an access that had issued
by cycle 0 retire, within the budget (R336, R338). -/
def preempted (k : Core) (slot : Nat) (named : Bool) : Bool :=
  match k.preempt with
  | some p => slot != 9 && !p.held && !(named && !p.expired && p.issued.contains (slot, (k.ctx slot).pc))
  | none => false

/-- Whether a context can execute: LIVE, at no breakpoint, and waiting on no queue unless its turn is named (R32, R67, R120,
R392). -/
def canRun (s : State) (named : Bool) (core slot : Nat) : Bool :=
  let k := s.core core
  let c := k.ctx slot
  s.enabled core && c.st == .live && (c.stall.isNone || named) && !s.dbg.atBp.contains (core, slot) && !preempted k slot named

/-- Whether a context stands at a breakpoint that it has not been let past (R392). -/
def atBreak (s : State) (core slot : Nat) : Bool :=
  let k := s.core core
  let c := k.ctx slot
  c.st == .live && !s.dbg.pastBp.contains (core, slot) && k.bps.toList.any fun b => b == some (k.pid, c.pc)

/-- A context becomes the one that moves, at this tick; it has gone past its breakpoint (R392). -/
def State.moveTo (s : State) (core slot : Nat) : State :=
  let past := s.dbg.pastBp
  let s := s.setCtx core slot { s.ctx core slot with now := s.tick }
  { s with curCore := core, curSlot := slot,
           dbg := if past.contains (core, slot) then { s.dbg with pastBp := past.filter (· != (core, slot)) } else s.dbg }

end Sys2Proof.Machine
end

