-- ==== Sys2Proof/Machine/EngineSteps.lean ====
section
/-! DEFINITION. The engines of a core: the taking of commands, copies, layout records and transforms, interleaved-lane
streams, collectives, and the completion of commands (R163 to R165, R284 to R305, R422, R442, R469 to R471, R492). -/

namespace Sys2Proof.Machine

/-! ### Commands (R163, R284, R289, R422, R425) -/

/-- The command of a core with the number and counter of `c` becomes `c`. -/
def setCmd (s : State) (core : Nat) (c : Cmd) : State :=
  let k := s.core core
  s.setCore core { k with cmds := k.cmds.map fun x => if x.tc = c.tc ∧ x.num = c.num then c else x }

/-- Who an engine of a core is: 17 and 18 the copy channels, 19 the transform engine, 20 the collective port. -/
def engineWho (s : State) (core n : Nat) : Who := ⟨core, n, (s.core core).pid⟩

/-- The trap that a command fault makes (R416, R425). -/
def cmdTrap (c : Cmd) (f : CmdFault) (unit : Option (Nat × Nat)) : Trap :=
  { code := f.code, info := f.info, acc := f.acc, addr := f.addr, eng := true, tc := c.tc, unit := unit }

/-- The latch of a counter after a command faults: the lowest number stays (R422). -/
def latchCmd (t : TCounter) (c : Cmd) (f : CmdFault) : TCounter :=
  let new : Latch := { num := c.num, code := f.code, acc := f.acc, addr := f.addr }
  match t.latch with
  | some l => if l.num.toNat ≤ c.num.toNat then t else { t with latch := some new }
  | none => { t with latch := some new }

/-- What an engine wrote is performed at every place, as far as it can be (R163, R165). -/
def engineRelease (s : State) : State := drainTo (drainTo (drainDies s) 2) 3

/-- A command faults: what it wrote is performed, it is complete for DONE, its counter keeps the latch, and a TYPE 1 record is
written; uncorrectable data has a record of its own (R289, R422, R425, R426). -/
def failCmd (s : State) (core : Nat) (c : Cmd) (f : CmdFault) (unit : Option (Nat × Nat)) : State :=
  let t := cmdTrap c f unit
  let s := ueRecord (engineRelease s) false t c.pc
  let s := faultRecord s 1 c.ctxid (causeWord false t) c.pc f.addr c.num
  let s := setCmd s core { c with stage := .complete, fault := some f, word := none }
  let k := s.core core
  s.setCore core (k.setTc c.tc (latchCmd (k.tcOf c.tc) c f))

/-- A memory fault of an engine's access at an address; an access that must wait is tried again (R457). -/
def failMem (s : State) (core : Nat) (c : Cmd) (f : MemFault) (acc : Nat) (a : Word) : State :=
  if f.code = 0 then s else failCmd s core c { code := f.code, info := f.info, acc := acc, addr := a + BitVec.ofNat 64 f.off } f.unit

/-- A command has made its writes (R163). -/
def doneCmd (s : State) (core : Nat) (c : Cmd) : State := setCmd (engineRelease s) core { c with stage := .complete, word := none }

/-- Whether a command goes to a copy channel. -/
def CmdOp.isCopy : CmdOp → Bool
  | .copy .. => true
  | _ => false

/-- Whether a command goes to the transform engine. -/
def CmdOp.isXfm : CmdOp → Bool
  | .xfm .. => true
  | .layv _ => true
  | _ => false

/-- The place where a sent command is taken now, if its engine is free (R284). The collective port holds every COLL that it
has taken until its set is matched. -/
def takenAt (k : Core) (c : Cmd) : Option Stage :=
  let busy (g : Stage) : Bool := k.cmds.any fun x => x.stage == g
  if c.stage != .sent then none
  else if c.op.isCopy then (if !busy (.chan 0) then some (.chan 0) else if !busy (.chan 1) then some (.chan 1) else none)
  else if c.op.isXfm then (if busy .engine then none else some .engine)
  else some .port

/-! ### Accesses of the engines -/

/-- The fault of a FIFO bank met in a form it does not take (R287, R436, R440). -/
def fifoFault (lg : Nat) : MemFault := { code := 0x07, info := lg, off := 0, unit := none }

/-- A fault whose offset is made an address. -/
def Res.atAddr {α : Type} (r : Res α) (a : Word) : Res α :=
  match r with
  | .flt f s => .flt { f with off := (a + BitVec.ofNat 64 f.off).toNat } s
  | r => r

/-- A read of 1 to 8 bytes by the transform engine or the collective port; no FIFO bank takes it (log 29). -/
def engineRead (s : State) (w : Who) (space csel : Nat) (a : Word) (n : Nat) : Res (List Byte) :=
  let s := settleFor s w space csel a
  if !spaceOk space a then .flt (xlate 1 0) s
  else match fifoAt s w.core space csel a with
    | some b => .flt (fifoFault (3 + b.esize)) s
    | none => loadRange s w .scalar space csel a n n

/-- Bytes read `step` at a time; the offset of a fault is the address. -/
def readBytes (w : Who) (space csel step : Nat) : Nat → Nat → Word → State → Res (List Byte)
  | 0, _, _, s => .ok [] s
  | _, 0, _, s => .ok [] s
  | k + 1, n, a, s =>
    let m := min n step
    ((engineRead s w space csel a m).atAddr a).bind fun x s =>
      (readBytes w space csel step k (n - m) (a + BitVec.ofNat 64 m) s).bind fun y s => .ok (x ++ y) s

/-- Whether a checked piece of an engine's write can be performed now: what left the core before it on its path is performed, the host
has given up its line, and the overflow mask is collected (R144, R156, R367). -/
def pieceReady (s : State) (w : Who) (p : Piece) : Res Unit :=
  (clearPath s w p).bind fun _ s =>
  match p.dest with
  | .glb t =>
    if isAlias t.leaf then aliasFree s (aliasDesc t.leaf) (t.pa / 64)
    else if regionOf t.pa == .hbm || regionOf t.pa == .host then
      writeReady s (dieOf w.core) w.pid (vlnOf (va48 p.addr)) (t.pa / 128) (t.pa % 128) p.bytes.length false
    else .ok () s
  | _ => .ok () s

/-- Whether all of some pieces can be performed now; each that cannot asks for what it needs. -/
def piecesReady (w : Who) : List Piece → Bool → State → Bool × State
  | [], ok, s => (ok, s)
  | p :: ps, ok, s =>
    match pieceReady s w p with
    | .ok _ s => piecesReady w ps ok s
    | .flt _ s => piecesReady w ps ok s
    | .wait s => piecesReady w ps false s

/-- A checked piece that is ready is performed. -/
def forcePiece (id pc : Word) (space : Nat) (w : Who) (s : State) (p : Piece) : State :=
  match p.dest with
  | .glb t =>
    if regionOf t.pa == .hbm || (regionOf t.pa == .host && !s.hostDown) then
      cacheWrite (countMiss s w.core w.pid (va48 p.addr) t.pa) (dieOf w.core) (some (padOf w.core)) false w.pid (va48 p.addr) p.bytes t
    else match performGlobal s w (va48 p.addr) t p.bytes p.also false pc with
      | .ok _ s => s
      | .flt _ s => s
      | .wait s => s
  | _ =>
    match performPiece s w false id pc space p with
    | .ok _ s => s
    | .flt _ s => s
    | .wait s => s

/-- Checked pieces that are ready are performed, but for what goes to alias blocks. `masks` are the overflow masks collected for the
engine's step: what a step writes of one line is one write of it, for which its mask was collected once (R156; log 43). -/
def forcePieces (masks : List (Nat × Nat × Nat)) (id pc : Word) (space : Nat) (w : Who) (ps : List Piece) (s : State) : State :=
  (ps.filter fun p => p.block.isNone).foldl (fun s p => forcePiece id pc space w { s with collected := masks } p) s

/-- The overflow masks of the lines that an engine's step wrote are used (R156). -/
def spendMasks (masks : List (Nat × Nat × Nat)) (w : Who) (ps : List Piece) (s : State) : State :=
  { s with collected := masks.filter fun x => !(x.1 == dieOf w.core && ps.any fun p => match p.dest with
      | .glb t => t.pa / 128 == x.2.1
      | _ => false) }

/-- The pieces of a step of an engine that go to one alias block are one write of it (R108, R142). -/
def forceBlock (pc : Word) (w : Who) (ps : List Piece) (s : State) (b : Nat × Nat) : State :=
  match mergeBlock ps b with
  | some p => stampNotice (aliasUpdate s b.1 b.2 ((p.blockOff, p.bytes) :: p.also) false pc p.addr) (dieOf w.core)
  | none => s

/-- The pieces of a step of an engine, all of them ready, that go to alias blocks are performed. -/
def forceBlocks (s : State) (pc : Word) (w : Who) (ps : List Piece) : State := (blocksOf ps).foldl (forceBlock pc w ps) s

/-- The pieces of an engine's write, checked; the offset of a fault is the address. -/
def forceCheck (s : State) (w : Who) (space csel : Nat) (a : Word) (bs : List Byte) : Except MemFault (List Piece) × State :=
  let s := settleFor s w space csel a
  if !spaceOk space a then (.error { xlate 1 0 with off := a.toNat }, s)
  else match fifoAt s w.core space csel a with
    | some b => (.error { fifoFault (3 + b.esize) with off := a.toNat }, s)
    | none =>
      match storePieces s w .scalar space csel a (bs.length + 1) 0 bs with
      | (.error f, s) => (.error { f with off := (a + BitVec.ofNat 64 f.off).toNat }, s)
      | r => r

/-! ### Copies (R164, R165, R285 to R288) -/

/-- What a word of a copy fails before it is read or written: its address lies outside the space, or in a FIFO bank that takes no
copy (R109, R287, R440). -/
def copyForm (s : State) (core space csel : Nat) (a : Word) : Option MemFault :=
  if !spaceOk space a then some (xlate 1 0)
  else match fifoAt s core space csel a with
    | some b => if b.entryBytes = 8 then none else some (fifoFault 3)
    | none => none

/-- Whether an address lies on a BF16 alias page. -/
def onAlias (s : State) (w : Who) (space : Nat) (a : Word) : Bool :=
  space == 2 && canonical a &&
    match (translateAny s (dieOf w.core) w.pid (va48 a)).1 with
    | .ok t => isAlias t.leaf
    | .error _ => false

/-- Bytes that a copy channel reads next, of `left`: one word; on an alias page all that it takes of the block, which it sees at one
moment (R142, R286, R287). -/
def copyTake (s : State) (w : Who) (space : Nat) (a : Word) (left : Nat) : Nat :=
  if onAlias s w space a then min left (64 - a.toNat % 64) else 8

/-- What a copy channel reads next, at an address. -/
def copyRead (s : State) (w : Who) (space csel : Nat) (a : Word) (left : Nat) : Res (List Byte) :=
  let s := settleFor s w space csel a
  match copyForm s w.core space csel a with
  | some f => .flt f s
  | none => loadPiece s w .scalar space csel a (copyTake s w space a left)

/-- A word, or words of one alias block, written by a copy channel. -/
def copyWrite (s : State) (w : Who) (id pc : Word) (space csel : Nat) (a : Word) (bs : List Byte) : Res Unit :=
  let s := settleFor s w space csel a
  match copyForm s w.core space csel a with
  | some f => .flt f s
  | none => engineStore s w id pc space csel a bs

/-- CPYW_POINTER_STORE and the end of a copy: the pointer is stored once every word before it is performed at every place, as a
release (R148, R150, R165, R286). -/
def copyTail (s : State) (core : Nat) (w : Who) (ptr : Option (Nat × Nat × Word)) (c : Cmd) : State :=
  let n := c.len.toNat
  let due := decide (0 < c.off) && (c.off % 256 == 0 || c.off == n) && c.cellAt != c.off
  match ptr, due with
  | some (sp, cs, a), true =>
    let s := engineRelease s
    if s.flights.isEmpty then
      match copyWrite s w c.ctxid c.pc sp cs a (natToBytes 8 c.off) with
      | .ok _ s =>
        let c := { c with cellAt := c.off }
        if c.off = n then doneCmd s core c else setCmd s core c
      | .flt f s => failMem s core c f 6 a
      | .wait s => setCmd s core c
    else setCmd s core c
  | _, _ => if c.off = n then doneCmd s core c else setCmd s core c

/-- The first `m` of the bytes that a copy has read are written (R164, R286); they are kept while they cannot be. -/
def copyPut (s : State) (core : Nat) (w : Who) (dsp dcs : Nat) (ptr : Option (Nat × Nat × Word)) (bs : List Byte) (m : Nat) (c : Cmd) :
    State :=
  let a := copyAddr (settleFor s w dsp dcs c.b) core dsp dcs c.b c.off
  let rest := bs.drop m
  match copyWrite s w c.ctxid c.pc dsp dcs a (bs.take m) with
  | .ok _ s => copyTail s core w ptr { c with off := c.off + m, word := if rest.isEmpty then none else some rest }
  | .flt f s => failMem s core c f 6 a
  | .wait s => setCmd s core { c with word := some bs }

/-- How many of the `n` bytes that it has read a copy writes next: a word; on an alias page a whole block, or what comes before the
copy's end or a store of the write pointer, and none before it has read so many (R137, R142, R286, R287). -/
def copyOut (s : State) (w : Who) (dsp : Nat) (ptr : Bool) (c : Cmd) (n : Nat) : Nat :=
  let b := c.b + BitVec.ofNat 64 c.off
  let due := if onAlias s w dsp b then
      let m := min (64 - b.toNat % 64) (c.len.toNat - c.off)
      if ptr then min m (256 - c.off % 256) else m
    else 8
  if due ≤ n then due else 0

/-- COPY_CHANNEL_TRANSFER: one word of the command of a channel, or the words of one alias block (R142, R286). -/
def copyStep (s : State) (core chan : Nat) (c : Cmd) : State :=
  match c.op with
  | .copy ssp scs dsp dcs ptr =>
    let w := engineWho s core (17 + chan)
    let due := decide (0 < c.off) && (c.off % 256 == 0 || c.off == c.len.toNat) && c.cellAt != c.off && ptr.isSome
    let have' := c.word.getD []
    let out := copyOut s w dsp ptr.isSome c have'.length
    if c.len.toNat ≤ c.off || due then copyTail s core w ptr c
    else if 0 < out then copyPut s core w dsp dcs ptr have' out c
    else
      let s := settleFor s w ssp scs c.a
      let done := c.off + have'.length
      let a := copyAddr s core ssp scs c.a done
      match copyRead s w ssp scs a (c.len.toNat - done) with
      | .ok bs s =>
        let bs := have' ++ bs
        let out := copyOut s w dsp ptr.isSome c bs.length
        if 0 < out then copyPut s core w dsp dcs ptr bs out c else setCmd s core { c with word := some bs }
      | .flt f s => if have'.isEmpty then failMem s core c f 5 a else copyPut s core w dsp dcs ptr have' have'.length c
      | .wait s => s
  | _ => s

/-- The command that stands at a stage of a core. -/
def cmdAt (s : State) (core : Nat) (g : Stage) : Option Cmd := (s.core core).cmds.find? fun c => c.stage == g

/-- COPY_CHANNEL_TRANSFER (R286). -/
def execCopyChannelTransfer (core chan : Nat) (s : State) : Host.Outcome State Fault Refusal :=
  agent
    (match cmdAt s core (.chan chan) with
      | some c => copyStep s core chan c
      | none => s)

/-! ### Layout records (R290 to R292, R469) -/

/-- A layout record's fields (R290). -/
structure Tensor where
  base : Nat
  sbase : Nat
  s1 : Nat
  s2 : Nat
  e0 : Nat
  e1 : Nat
  e2 : Nat
  ctrl : Nat
  /-- Bytes 48 to 63. -/
  rest : Nat
  deriving DecidableEq, Repr

/-- The fields of 64 bytes. -/
def tensorOf (bs : List Byte) : Tensor :=
  let n (o k : Nat) : Nat := bytesToNat (slice bs o k)
  { base := n 0 8, sbase := n 8 8, s1 := n 16 8, s2 := n 24 8, e0 := n 32 4, e1 := n 36 4, e2 := n 40 4, ctrl := n 44 4,
    rest := n 48 16 }

/-- FMT. -/
def Tensor.fmt (t : Tensor) : Nat := fld t.ctrl 3 0
/-- SPACE. -/
def Tensor.space (t : Tensor) : Nat := fld t.ctrl 7 6
/-- CSEL. -/
def Tensor.csel (t : Tensor) : Nat := fld t.ctrl 9 8
/-- ORG: 0 ROW, 1 TILED, 2 PLANE, 3 MX. -/
def Tensor.org (t : Tensor) : Nat := fld t.ctrl 11 10
/-- PCNT. -/
def Tensor.pcnt (t : Tensor) : Nat := fld t.ctrl 15 12
/-- SGN. -/
def Tensor.sgn (t : Tensor) : Bool := fld t.ctrl 16 16 == 1
/-- MXF. -/
def Tensor.mxf (t : Tensor) : Nat := fld t.ctrl 19 17
/-- Elements. -/
def Tensor.count (t : Tensor) : Nat := t.e0 * t.e1 * t.e2

/-- The plane-mode format of a tile format (R97, R261). -/
def planeOf (fmt : Nat) : Option Nat :=
  if fmt = 13 then some 4 else if fmt = 11 then some 5 else if fmt = 12 then some 8 else if fmt = 0 then some 6
  else if fmt = 1 then some 7 else if fmt = 14 then some 2 else if fmt = 15 then some 3 else none

/-- The plane-mode format of a PLANE tensor. -/
def Tensor.plane (t : Tensor) : Nat := (planeOf t.fmt).getD 0

/-- Planes of a PLANE tensor, its sign plane among them. -/
def Tensor.slots (t : Tensor) : Nat := (planeSpec t.plane).1 + b2n (planeSpec t.plane).2

/-- Width of an element's field: of FMT, or of the MX element (R96, R261). -/
def Tensor.width (t : Tensor) : Nat := if t.org = 3 then mxWidth t.mxf else tileWidth t.fmt

/-- C of R291: elements of a row of a tile. -/
def Tensor.cap (t : Tensor) : Nat := if t.org = 2 then planeSlot t.plane else rowCap t.width

/-- Quotient rounded up. -/
def ceilDiv (a b : Nat) : Nat := (a + b - 1) / b

/-- Bytes of a row of a ROW or MX tensor. -/
def Tensor.rowBytes (t : Tensor) : Nat := if t.org = 3 then t.e0 / 32 * mxBytes t.mxf else ceilDiv (t.e0 * t.width) 8

/-- Bytes that the tiles of one plane of dimension 2 take. -/
def Tensor.tileBytes (t : Tensor) : Nat := ceilDiv t.e1 64 * ceilDiv t.e0 t.cap * 16384

/-- Bytes from BASE to the highest byte of a tensor (R291, R292). -/
def Tensor.length (t : Tensor) : Nat :=
  if t.org = 0 ∨ t.org = 3 then (t.e2 - 1) * t.s2 + (t.e1 - 1) * t.s1 + t.rowBytes
  else
    let k := (t.e0 - 1) % t.cap + 1
    let last := ceilDiv t.e1 64 * ceilDiv t.e0 t.cap - 1
    let bits := if t.org = 2 then (t.slots - 1) * t.cap + k else k * t.width
    (t.e2 - 1) * t.s2 + last * 16384 + (t.e1 - 1) % 64 * 256 + ceilDiv bits 8

/-- Scale bytes of a tensor. -/
def Tensor.scales (t : Tensor) : Nat := if t.org = 3 then t.e2 * t.e1 * (t.e0 / 32) else 0

/-- Whether every byte of a range passes R109 for a space. -/
def rangeOk (space lo n : Nat) : Bool :=
  n == 0 || (decide (lo + n ≤ 2 ^ 64) && spaceOk space (BitVec.ofNat 64 lo) && spaceOk space (BitVec.ofNat 64 (lo + n - 1)) &&
    decide (lo / 2 ^ 63 = (lo + n - 1) / 2 ^ 63))

/-- Reason 0x05: BASE not aligned. -/
def Tensor.badBase (t : Tensor) : Bool := t.base % (if t.org = 1 ∨ t.org = 2 then 256 else 8) != 0

/-- Reason 0x09: a byte outside the space. -/
def Tensor.badSpan (t : Tensor) : Bool := !(rangeOk t.space t.base t.length) || !(rangeOk t.space t.sbase t.scales)

/-- The first reason for which a record is inconsistent (R292, R469; log 39). -/
def Tensor.reason (t : Tensor) : Option Nat :=
  let big (n : Nat) : Bool := n == 0 || decide (2 ^ 24 < n)
  let s1min := if t.org = 0 ∨ t.org = 3 then t.rowBytes else 0
  let s2min := if t.org = 0 ∨ t.org = 3 then t.e1 * t.s1 else t.tileBytes
  let checks : List (Nat × Bool) :=
    [(1, t.rest != 0 || fld t.ctrl 31 20 != 0 || fld t.ctrl 5 4 != 0),
     (2, t.space == 3 || decide (2 ≤ t.csel) || (t.csel != 0 && t.space != 1) ||
        (if t.org = 3 then decide (5 < t.mxf) || t.fmt != 0 else t.mxf != 0)),
     (3, t.org == 2 && ((planeOf t.fmt).isNone || (planeSpec t.plane).1 != t.pcnt || (planeSpec t.plane).2 != t.sgn)),
     (4, big t.e0 || big t.e1 || big t.e2),
     (5, t.badBase),
     (6, if t.org = 1 ∨ t.org = 2 then t.s1 != 0 else decide (t.s1 < s1min) || (t.org == 0 && t.s1 % 8 != 0)),
     (7, decide (t.s2 < s2min) || (t.org == 0 && t.s2 % 8 != 0)),
     (8, t.org == 3 && t.e0 % 32 != 0),
     (9, t.badSpan)]
  (checks.find? (·.2)).map (·.1)

/-- LAYV: the record is read, checked and placed, or its slot is left empty (R292, R469). -/
def runLayv (s : State) (core slot : Nat) (c : Cmd) : State :=
  match readBytes (engineWho s core 19) 0 0 8 8 64 c.a s with
  | .wait s => s
  | .flt f s => failCmd s core c { code := f.code, info := f.info, acc := 5, addr := BitVec.ofNat 64 f.off } f.unit
  | .ok bs s =>
    let put' (l : Option (List Byte)) : State :=
      s.setCore core { s.core core with layouts := (s.core core).layouts.setIfInBounds slot l }
    match (tensorOf bs).reason with
    | some r => failCmd (put' none) core c { code := 0x0A, info := r, acc := 5, addr := c.a } none
    | none => doneCmd (put' (some bs)) core c

/-! ### Places of elements (R291) -/

/-- A run of bits of memory: byte address, first bit in it, width. -/
structure BitSeg where
  addr : Nat
  bit : Nat
  width : Nat
  deriving DecidableEq, Repr

/-- The segment of `n` bits at bit `b` of the row at `a`. -/
def segAt (a b n : Nat) : BitSeg := ⟨a + b / 8, b % 8, n⟩

/-- The row of the tile that holds an element, in TILED and PLANE. -/
def Tensor.tileRow (t : Tensor) (i0 i1 i2 : Nat) : Nat :=
  t.base + i2 * t.s2 + (i1 / 64 * ceilDiv t.e0 t.cap + i0 / t.cap) * 16384 + i1 % 64 * 256

/-- The bits of an element, lowest first (R291). -/
def Tensor.segs (t : Tensor) (i : Nat × Nat × Nat) : List BitSeg :=
  let (i0, i1, i2) := i
  if t.org = 0 then [segAt (t.base + i2 * t.s2 + i1 * t.s1) (t.width * i0) t.width]
  else if t.org = 1 then [segAt (t.tileRow i0 i1 i2) (t.width * (i0 % t.cap)) t.width]
  else if t.org = 2 then (List.range t.slots).map fun q => segAt (t.tileRow i0 i1 i2) (q * t.cap + i0 % t.cap) 1
  else [segAt (t.base + i1 * t.s1 + i2 * t.s2 + i0 / 32 * mxBytes t.mxf) (t.width * (i0 % 32)) t.width]

/-- The scale byte of a block (R291). -/
def Tensor.scaleSeg (t : Tensor) (i : Nat × Nat × Nat) : BitSeg :=
  ⟨t.sbase + (i.2.2 * t.e1 + i.2.1) * (t.e0 / 32) + i.1 / 32, 0, 8⟩

/-- The elements of a tensor, dimension 0 innermost. -/
def Tensor.indices (t : Tensor) : List (Nat × Nat × Nat) :=
  (List.range t.e2).flatMap fun i2 => (List.range t.e1).flatMap fun i1 => (List.range t.e0).map fun i0 => (i0, i1, i2)

/-- A read of a segment: whole bytes at once, others byte by byte. -/
def readSeg (w : Who) (t : Tensor) (g : BitSeg) (s : State) : Res Nat :=
  let n := ceilDiv (g.bit + g.width) 8
  (readBytes w t.space t.csel (if g.width % 8 = 0 then n else 1) n n (BitVec.ofNat 64 g.addr) s).bind fun bs s =>
    .ok (bytesToNat bs / 2 ^ g.bit % 2 ^ g.width) s

/-- The bits of an element. -/
def readSegs (w : Who) (t : Tensor) : List BitSeg → State → Res Nat
  | [], s => .ok 0 s
  | g :: gs, s => (readSeg w t g s).bind fun x s => (readSegs w t gs s).bind fun y s => .ok (x + y * 2 ^ g.width) s

/-- Writes of a unit of a transform: segments and their values. -/
abbrev Writes := List (BitSeg × Nat)

/-- The writes that put bits at segments. -/
def segWrites : List BitSeg → Nat → Writes
  | [], _ => []
  | g :: gs, v => (g, v % 2 ^ g.width) :: segWrites gs (v / 2 ^ g.width)

/-! ### Element forms (R97, R257, R295) -/

/-- The bits of a plane position as an integer code (R97, R257). -/
def planeRaw (f raw : Nat) : Int :=
  let p := (planeSpec f).1
  if (planeSpec f).2 then (if raw / 2 ^ p % 2 = 1 then -((raw % 2 ^ p : Nat) : Int) else ((raw % 2 ^ p : Nat) : Int))
  else intOf (f == 1 || f == 2 || f == 6) p (raw % 2 ^ p)

/-- The bits of an integer code at a plane position. -/
def rawPlane (f : Nat) (c : Int) : Nat :=
  packElems 1 ((List.range ((planeSpec f).1 + b2n (planeSpec f).2)).map (planeBit f c))

/-- The element that has a plane code; a code that no element has gives free bits (log 25). -/
def planeElem (f fresh : Nat) (c : Int) : Nat :=
  ((List.range (2 ^ planeWidth f)).find? fun x => planeCode f x == c).getD ((Config.freeByte fresh).toNat % 2 ^ planeWidth f)

/-- The element bits of a source for a destination: only a change between PLANE and another ORG changes them (R295). -/
def convBits (src dst : Tensor) (fresh raw : Nat) : Nat :=
  if src.org = 2 ∧ dst.org ≠ 2 then planeElem src.plane fresh (planeRaw src.plane raw)
  else if src.org ≠ 2 ∧ dst.org = 2 then rawPlane dst.plane (planeCode dst.plane raw)
  else raw

/-- The value of a source element of a float format (R296). -/
def elemValue (src : Tensor) (fresh raw : Nat) : FVal :=
  let bits := if src.org = 2 then planeElem src.plane fresh (planeRaw src.plane raw) else raw
  match tileFloat src.fmt with
  | some fl => fl.decode bits
  | none => .nan

/-- RTO to a format (R94, R296). -/
def rtoVia (f : Option Nat) (x : FVal) : FVal :=
  match f.bind tileFloat with
  | some fl => fl.decode (fl.round .rto x)
  | none => x

/-- Narrow (R296). -/
def narrowBits (src dst : Tensor) (i1 i2 : Option Nat) (rnd fresh raw : Nat) : Nat :=
  match tileFloat dst.fmt with
  | some fl =>
    let x := fl.round (Rnd.of rnd) (rtoVia i2 (rtoVia i1 (elemValue src fresh raw)))
    if dst.org = 2 then rawPlane dst.plane (planeCode dst.plane x) else x
  | none => 0

/-! ### The checks of a transform (R294, R295, R297, R469, R470) -/

/-- A record as a transform uses it: its base replaced where the command says (R294). -/
def slotTensor (k : Core) (slot : Nat) (base : Bool) (a : Word) : Option Tensor :=
  (vget k.layouts slot none).map fun bs =>
    let t := tensorOf bs
    if base then { t with base := a.toNat } else t

/-- What breaks a record alone, or both: WHERE of R469. -/
def whereOf (a b both : Bool) : Option Nat :=
  if both || (a && b) then some 3 else if a then some 1 else if b then some 2 else none

/-- Reason 0x0B: the shapes. -/
def shapeBad (xop : Nat) (a b : Tensor) : Option Nat :=
  if xop = 6 then whereOf (a.e1 != 1 || a.e2 != 1) false false
  else if xop = 1 then whereOf false false (a.e0 != b.e1 || a.e1 != b.e0 || a.e2 != b.e2)
  else whereOf false false (a.e0 != b.e0 || a.e1 != b.e1 || a.e2 != b.e2)

/-- Reason 0x0C: formats and organisations (log 39). -/
def formatBad (xop : Nat) (a b : Tensor) : Option Nat :=
  let mx (t : Tensor) : Bool := t.org == 3
  if xop = 0 then whereOf false false (if mx a || mx b then !(mx a && mx b && a.mxf == b.mxf) else a.fmt != b.fmt)
  else if xop = 1 then whereOf (mx a) (mx b) (!mx a && !mx b && a.fmt != b.fmt)
  else if xop = 2 then
    whereOf (a.org != 0 && a.org != 1) (b.org != 2) ((a.org == 0 || a.org == 1) && b.org == 2 && a.fmt != b.fmt)
  else if xop = 3 then whereOf (mx a || (a.fmt != 6 && a.fmt != 8)) (!mx b) false
  else if xop = 4 then whereOf (!mx a) (mx b || b.fmt != 6) false
  else if xop = 5 then whereOf (mx a || (tileFloat a.fmt).isNone) (mx b || (tileFloat b.fmt).isNone) false
  else
    whereOf (a.org != 0 || a.fmt != 1)
      (if mx b then decide (b.mxf < 3) else b.fmt != 0 && b.fmt != 1 && b.fmt != 9 && b.fmt != 10) false

/-- The span of a tensor: its lowest byte and its length (R297). -/
def Tensor.span (t : Tensor) : Nat × Nat :=
  if t.scales = 0 then (t.base, t.length)
  else
    let lo := min t.base t.sbase
    (lo, max (t.base + t.length) (t.sbase + t.scales) - lo)

/-- Whether the spans of two tensors overlap (R297); pad spans are compared by the bytes reached. -/
def spansMeet (core : Nat) (a b : Tensor) : Bool :=
  let (la, na) := a.span
  let (lb, nb) := b.span
  if a.space = b.space ∧ a.csel = b.csel then decide (la < lb + nb) && decide (lb < la + na)
  else if a.space = 2 ∨ b.space = 2 then false
  else (List.range na).any fun i => inRange core a.space a.csel b.space b.csel (BitVec.ofNat 64 (la + i)) (BitVec.ofNat 64 lb) nb

/-- The first reason that applies to a transform, and WHERE (R469, R470). -/
def xfmReason (core xop : Nat) (a b : Option Tensor) : Option (Nat × Nat) :=
  let is (f : Tensor → Bool) (t : Option Tensor) : Bool := (t.map f).getD false
  match whereOf (is Tensor.badBase a) (is Tensor.badBase b) false with
  | some w => some (5, w)
  | none => match whereOf (is Tensor.badSpan a) (is Tensor.badSpan b) false with
    | some w => some (9, w)
    | none => match a, b with
      | some a, some b =>
        match shapeBad xop a b with
        | some w => some (0x0B, w)
        | none => match formatBad xop a b with
          | some w => some (0x0C, w)
          | none => if spansMeet core a b then some (0x0D, 3) else none
      | none, none => some (0x0A, 3)
      | none, _ => some (0x0A, 1)
      | _, none => some (0x0A, 2)

/-! ### Interleaved-lane streams (R298 to R300, R471) -/

/-- The code lengths of the 256 symbols. -/
def codeLengths (head : List Byte) : List Nat :=
  ((head.drop 16).take 128).flatMap fun b => [b.toNat % 16, b.toNat / 16]

/-- Symbols of each length in turn, each by increasing value: length and symbol. -/
def codeOrder (lens : List Nat) : List (Nat × Nat) :=
  ((List.range 12).map (· + 1)).flatMap fun n => ((List.range 256).filter fun s => lens.getD s 0 == n).map fun s => (n, s)

/-- The canonical codes: length, code, symbol (R299). -/
def canonCodes : Nat → Nat → List (Nat × Nat) → List (Nat × Nat × Nat)
  | _, _, [] => []
  | next, len, (n, s) :: r =>
    let code := next * 2 ^ (n - len)
    (n, code, s) :: canonCodes (code + 1) n r

/-- A lane: bits held, how many, and its last claimed word (R300). -/
structure Lane where
  bits : Nat
  n : Nat
  last : Nat
  deriving DecidableEq, Repr

/-- The decoder: lanes and the next word. -/
structure SDec where
  lanes : List Lane
  next : Nat
  deriving DecidableEq, Repr

/-- The payload of a stream: who reads it, where it begins, and NWORDS (R298). -/
structure Payload where
  who : Who
  space : Nat
  csel : Nat
  base : Word
  count : Nat

/-- A lane claims the next payload word, if there is one: it is read then, and no sooner (R300, R471). -/
def SDec.claim (d : SDec) (p : Payload) (l : Nat) (s : State) : Option (Res SDec) :=
  let x := d.lanes.getD l ⟨0, 0, 0⟩
  if d.next < p.count then
    let a := p.base + BitVec.ofNat 64 (4 * d.next)
    some (((engineRead s p.who p.space p.csel a 4).atAddr a).bind fun bs s =>
      .ok { lanes := d.lanes.set l { bits := x.bits + bytesToNat bs * 2 ^ x.n, n := x.n + 32, last := d.next }, next := d.next + 1 } s)
  else none

/-- The symbol at the head of a bit buffer, and its length: the code grows by a bit at a time (R299). -/
def headSymbol (codes : List (Nat × Nat × Nat)) (bits have' : Nat) : Nat → Nat → Nat → Option (Nat × Nat)
  | 0, _, _ => none
  | k + 1, len, code =>
    if have' ≤ len then none
    else
      let code := code * 2 + bits / 2 ^ len % 2
      match codes.find? fun c => c.1 == len + 1 && c.2.1 == code with
      | some c => some (c.2.2, len + 1)
      | none => headSymbol codes bits have' k (len + 1) code

/-- How a decoding ended: well; with a reason of R471, its lane and the byte offset above BASE; or with the fault of a payload word
that a lane claimed. -/
inductive SEnd where
  | well
  | bad (reason lane off : Nat)
  | fault (f : MemFault)
  deriving DecidableEq, Repr

/-- Symbols `e` on are decoded, one after the other (R300, R471). -/
def decodeFrom (codes : List (Nat × Nat × Nat)) (p : Payload) (out : Nat) : Nat → Nat → SDec → List Nat → State → Res (List Nat × SEnd)
  | 0, _, d, acc, s => .ok (acc.reverse, if d.next < p.count then .bad 3 0 (144 + 4 * d.next) else .well) s
  | k + 1, e, d, acc, s =>
    let l := e % 16
    let x := d.lanes.getD l ⟨0, 0, 0⟩
    match headSymbol codes x.bits x.n 12 0 0 with
    | none => .ok (acc.reverse, .bad 6 l (144 + 4 * x.last)) s
    | some (sym, n) =>
      let d : SDec := { d with lanes := d.lanes.set l { x with bits := x.bits / 2 ^ n, n := x.n - n } }
      if e + 16 < out ∧ x.n - n < 32 then
        match d.claim p l s with
        | some (.ok d s) => decodeFrom codes p out k (e + 1) d (sym :: acc) s
        | some (.flt f s) => .ok ((sym :: acc).reverse, .fault f) s
        | some (.wait s) => .wait s
        | none => .ok ((sym :: acc).reverse, .bad 2 l (144 + 4 * p.count)) s
      else decodeFrom codes p out k (e + 1) d (sym :: acc) s

/-- The first claims, in lane order (R300), and the decoding after them. -/
def firstClaims (p : Payload) (go : SDec → State → Res (List Nat × SEnd)) : List Nat → SDec → State → Res (List Nat × SEnd)
  | [], d, s => go d s
  | l :: ls, d, s =>
    match d.claim p l s with
    | some (.ok d s) => firstClaims p go ls d s
    | some (.flt f s) => .ok ([], .fault f) s
    | some (.wait s) => .wait s
    | none => .ok ([], .bad 2 l (144 + 4 * p.count)) s

/-- A stream's symbols, and how its decoding ended (R300). -/
def decodeStream (lens : List Nat) (p : Payload) (out : Nat) (s : State) : Res (List Nat × SEnd) :=
  firstClaims p (fun d s => decodeFrom (canonCodes 0 0 (codeOrder lens)) p out out 0 d [] s) (List.range (min out 16))
    { lanes := List.replicate 16 ⟨0, 0, 0⟩, next := 0 } s

/-- The reasons of R471 that are checked before decoding, in their order. -/
def streamBad (head : List Byte) (e0 count : Nat) : Option Nat :=
  let lens := codeLengths head
  let out := bytesToNat (slice head 0 4)
  let nw := bytesToNat (slice head 4 4)
  if (slice head 8 8).any (· != 0) || lens.any (fun n => decide (12 < n)) then some 7
  else if e0 < 144 + 4 * nw then some 4
  else if (canonCodes 0 0 (codeOrder lens)).any fun c => decide (2 ^ c.1 ≤ c.2.1) then some 5
  else if out ≠ count then some 1
  else none

/-! ### Running a transform (R295, R422) -/

/-- A unit of a transform: the writes it comes to. -/
abbrev XUnit := State → Res Writes

/-- The unit of one element: its source bits, changed by `f`. -/
def elemUnit (w : Who) (a b : Tensor) (src dst : Nat × Nat × Nat) (f : Nat → Nat → Nat) : XUnit := fun s =>
  (readSegs w a (a.segs src) s).bind fun raw s => .ok (segWrites (b.segs dst) (f s.fresh raw)) s

/-- The blocks of an MX tensor, each by its first element. -/
def Tensor.blocks (t : Tensor) : List (Nat × Nat × Nat) := t.indices.filter fun i => i.1 % 32 == 0

/-- The 32 elements of a block. -/
def blockElems (i : Nat × Nat × Nat) : List (Nat × Nat × Nat) := (List.range 32).map fun j => (i.1 + j, i.2)

/-- Several elements are read. -/
def readElems (w : Who) (t : Tensor) : List (Nat × Nat × Nat) → State → Res (List Nat)
  | [], s => .ok [] s
  | i :: is, s => (readSegs w t (t.segs i) s).bind fun x s => (readElems w t is s).bind fun xs s => .ok (x :: xs) s

/-- The writes that put the elements of a block. -/
def blockWrites (t : Tensor) (i : Nat × Nat × Nat) (xs : List Nat) : Writes :=
  ((List.range 32).map fun j => segWrites (t.segs (i.1 + j, i.2)) (xs.getD j 0)).flatten

/-- mxpack of one block (R108, R295). -/
def packUnit (w : Who) (a b : Tensor) (i : Nat × Nat × Nat) : XUnit := fun s =>
  (readElems w a (blockElems i) s).bind fun raws s =>
    let (sc, codes) := mxPack b.mxf (raws.map fun x => elemValue a s.fresh x)
    .ok (blockWrites b i codes ++ [(b.scaleSeg i, sc)]) s

/-- mxunpack of one block (R107, R295). -/
def unpackUnit (w : Who) (a b : Tensor) (i : Nat × Nat × Nat) : XUnit := fun s =>
  (readElems w a (blockElems i) s).bind fun raws s =>
    (readSeg w a (a.scaleSeg i) s).bind fun sc s => .ok (blockWrites b i (raws.map (mxRead a.mxf sc))) s

/-- copy of one MX block with its scale (R295). -/
def mxCopyUnit (w : Who) (a b : Tensor) (i : Nat × Nat × Nat) : XUnit := fun s =>
  (readElems w a (blockElems i) s).bind fun raws s =>
    (readSeg w a (a.scaleSeg i) s).bind fun sc s => .ok (blockWrites b i raws ++ [(b.scaleSeg i, sc)]) s

/-- The units of a transform but sdec (R295). -/
def xfmUnits (w : Who) (xop : Nat) (a b : Tensor) (i1 i2 : Option Nat) (rnd : Nat) : List XUnit :=
  if xop = 0 ∧ a.org = 3 then b.blocks.map (mxCopyUnit w a b)
  else if xop = 0 ∨ xop = 2 then b.indices.map fun i => elemUnit w a b i i (convBits a b)
  else if xop = 1 then b.indices.map fun i => elemUnit w a b (i.2.1, i.1, i.2.2) i (convBits a b)
  else if xop = 3 then b.blocks.map (packUnit w a b)
  else if xop = 4 then a.blocks.map (unpackUnit w a b)
  else b.indices.map fun i => elemUnit w a b i i (narrowBits a b i1 i2 rnd)

/-- The bits of a plane position or element that a code byte makes (R295). -/
def symbolBits (b : Tensor) (sym : Nat) : Nat := if b.org = 2 then rawPlane b.plane (planeCode b.plane sym) else sym

/-- The units of an sdec: symbol e at its element (R295). -/
def sdecUnits (b : Tensor) (syms : List Nat) : List XUnit :=
  (b.indices.zip syms).map fun x s => .ok (segWrites (b.segs x.1) (symbolBits b x.2)) s

/-- The first fault of a transform: CODE, INFO, ACC, address, unit. -/
abbrev XFault := Option (CmdFault × Option (Nat × Nat))

/-- A memory fault whose offset is its address, as a command fault. -/
def MemFault.cmd (f : MemFault) (acc : Nat) : CmdFault × Option (Nat × Nat) :=
  ({ code := f.code, info := f.info, acc := acc, addr := BitVec.ofNat 64 f.off }, f.unit)

/-- Bytes that a segment write covers, as they stand, for the merge of bits outside it; a write needs no permission to
read. -/
def peekBytes (s : State) (w : Who) (t : Tensor) (a : Word) (n : Nat) : Res (List Byte) :=
  if t.space < 2 then
    match padRead s (padOfAddr w.core t.space t.csel a) n with
    | .ok bs => .ok bs s
    | .error f => .flt f s
  else (Res.of (resolve s w .scalar .store (va48 a) n)).bind fun x s => loadGlobal s w (va48 a) n x

/-- The bytes that put a value at a segment. -/
def segBytes (w : Who) (t : Tensor) (g : BitSeg) (v : Nat) (s : State) : Res (List Byte) :=
  let n := ceilDiv (g.bit + g.width) 8
  if g.bit = 0 ∧ g.width % 8 = 0 then .ok (natToBytes n v) s
  else
    let a := BitVec.ofNat 64 g.addr
    ((peekBytes s w t a n).atAddr a).bind fun old s =>
      let o := bytesToNat old
      .ok (natToBytes n (o - o / 2 ^ g.bit % 2 ^ g.width * 2 ^ g.bit + v * 2 ^ g.bit)) s

/-- Whether the writes of a unit can be made. -/
def checkWrites (w : Who) (t : Tensor) : Writes → State → Except MemFault Unit × State
  | [], s => (.ok (), s)
  | (g, v) :: r, s =>
    match segBytes w t g v s with
    | .flt f s => (.error f, s)
    | .wait s => checkWrites w t r s
    | .ok bs s =>
      match forceCheck s w t.space t.csel (BitVec.ofNat 64 g.addr) bs with
      | (.error f, s) => (.error f, s)
      | (.ok _, s) => checkWrites w t r s

/-- A segment write cut where an 8-byte word of its destination ends (R422). -/
def splitWord (x : BitSeg × Nat) : Writes :=
  let n := 64 - (x.1.addr % 8 * 8 + x.1.bit)
  if x.1.width ≤ n then [x]
  else [(⟨x.1.addr, x.1.bit, n⟩, x.2 % 2 ^ n), (⟨x.1.addr / 8 * 8 + 8, 0, x.1.width - n⟩, x.2 / 2 ^ n)]

/-- The units of a transform run without writing: the first fault, and the writes that can be made; a wait stops it. -/
def runUnits (w : Who) (t : Tensor) : List XUnit → XFault → List Writes → State → Res (XFault × List Writes)
  | [], f, ws, s => .ok (f, ws.reverse) s
  | u :: us, f, ws, s =>
    match u s with
    | .wait s => .wait s
    | .flt e s => runUnits w t us (f.or (some (e.cmd 5))) ws s
    | .ok x s =>
      let x := x.flatMap splitWord
      match checkWrites w t x s with
      | (.ok _, s) => runUnits w t us f (x :: ws) s
      | (.error e, s) => if e.code = 0 then .wait s else runUnits w t us (f.or (some (e.cmd 6))) ws s

/-- The checked pieces of a segment's write. -/
def segPieces (w : Who) (t : Tensor) (x : BitSeg × Nat) (s : State) : List Piece × State :=
  match segBytes w t x.1 x.2 s with
  | .ok bs s =>
    (match forceCheck s w t.space t.csel (BitVec.ofNat 64 x.1.addr) bs with
      | (.ok ps, s) => (ps, s)
      | (.error _, s) => ([], s))
  | .flt _ s => ([], s)
  | .wait s => ([], s)

/-- The pieces of several segments. -/
def segsPieces (w : Who) (t : Tensor) (xs : Writes) (s : State) : List Piece × State :=
  xs.foldl (fun r x => let (ps, s) := segPieces w t x r.2; (r.1 ++ ps, s)) ([], s)

/-- The writes of a transform that are made: all, or after a fault those of any subset of the destination's words (R422,
log 20). -/
def chosenWrites (s : State) (all : Bool) (ws : List Writes) : Writes :=
  ws.flatten.filter fun x => all || Config.freeBit (s.fresh + x.1.addr / 8)

/-- They are made, none of which has to wait; each segment on what the one before it left. -/
def putWrites (w : Who) (c : Cmd) (t : Tensor) (all : Bool) (xs : Writes) (s : State) : State :=
  let masks := s.collected
  let put' (s : State) (x : BitSeg × Nat) : State :=
    let (ps, s) := segPieces w t x s
    forcePieces masks c.ctxid c.pc t.space w ps s
  let (ps, u) := segsPieces w t xs (xs.foldl put' s)
  let u := forceBlocks (spendMasks masks w ps u) c.pc w ps
  if all then u else { u with fresh := u.fresh + 2 ^ 62 }

/-- A transform's units are run and its command ends; it waits while a line that it writes cannot be written (R156, R367).
`sfault` is the fault of its stream, and `whole` whether that leaves every symbol written (R471). -/
def runXfm (s : State) (core : Nat) (c : Cmd) (b : Tensor) (us : List XUnit) (sfault : XFault) (whole : Bool) : State :=
  let w := engineWho s core 19
  match runUnits w b us none [] s with
  | .wait s => s
  | .flt _ s => s
  | .ok (f, ws) s =>
    let all := f.isNone && (sfault.isNone || whole)
    let xs := chosenWrites s all ws
    let (ps, s) := segsPieces w b xs s
    match piecesReady w ps true s with
    | (false, s) => s
    | (true, s) =>
      let s := putWrites w c b all xs s
      match f.or sfault with
      | some (x, u) => failCmd s core c x u
      | none => doneCmd s core c

/-- A free word (log 25). -/
def freeWord (fresh : Nat) : Word := bytesWord ((List.range 8).map fun i => Config.freeByte (fresh + i))

/-- The BASE that a fault of a transform reports: of the source for both; an empty slot whose base is not replaced has none,
and the spec states no value (R469; logs 25, 39). -/
def xfmAddr (s : State) (c : Cmd) (a b : Option Tensor) (baseA baseB : Bool) (wh : Nat) : Word :=
  let of (t : Option Tensor) (rep : Bool) (r : Word) : Word :=
    match t with
    | some t => BitVec.ofNat 64 t.base
    | none => if rep then r else freeWord s.fresh
  if wh = 2 then of b baseB c.b else of a baseA c.a

/-- sdec: the header, the checks before decoding, the symbols (R298 to R300, R471). -/
def runSdec (s : State) (core : Nat) (c : Cmd) (a b : Tensor) : State :=
  let w := engineWho s core 19
  let at' (o : Nat) : Word := BitVec.ofNat 64 (a.base + o)
  let bad (r l o : Nat) : CmdFault × Option (Nat × Nat) :=
    ({ code := 0x10, info := r + put (if r = 2 ∨ r = 6 then l else 0) 4, acc := 5, addr := at' o }, none)
  let readFault (f : MemFault) (s : State) : State := failCmd s core c (f.cmd 5).1 f.unit
  match readBytes w a.space a.csel 8 18 144 (at' 0) s with
  | .wait s => s
  | .flt f s => readFault f s
  | .ok head s =>
    match streamBad head a.e0 b.count with
    | some r => failCmd s core c (bad r 0 0).1 none
    | none =>
      let pay : Payload := { who := w, space := a.space, csel := a.csel, base := at' 144, count := bytesToNat (slice head 4 4) }
      match decodeStream (codeLengths head) pay (bytesToNat (slice head 0 4)) s with
      | .wait s => s
      | .flt f s => readFault f s
      | .ok (syms, e) s =>
        match e with
        | .well => runXfm s core c b (sdecUnits b syms) none true
        | .bad r l o => runXfm s core c b (sdecUnits b syms) (some (bad r l o)) (r == 3)
        | .fault f => runXfm s core c b (sdecUnits b syms) (some (f.cmd 5)) false

/-- TRANSFORM_RUN: the command of the transform engine (R293, R294). -/
def execTransformRun (core : Nat) (s : State) : Host.Outcome State Fault Refusal :=
  agent
    (match cmdAt s core .engine with
      | none => s
      | some c => match c.op with
        | .layv slot => runLayv s core slot c
        | .xfm xop slay dlay i1 i2 rnd baseA baseB =>
          let a := slotTensor (s.core core) slay baseA c.a
          let b := slotTensor (s.core core) dlay baseB c.b
          match xfmReason core xop a b, a, b with
          | some (r, wh), _, _ =>
            failCmd { s with fresh := s.fresh + 8 } core c
              { code := 0x0A, info := put wh 12 + r, acc := 7, addr := xfmAddr s c a b baseA baseB wh } none
          | none, some a, some b =>
            if xop = 6 then runSdec s core c a b
            else runXfm s core c b (xfmUnits (engineWho s core 19) xop a b i1 i2 rnd) none true
          | none, _, _ => s
        | _ => s)

/-! ### Collectives (R302 to R305, R442, R492) -/

/-- A participant of a matched set: its core and command, or what the peer sent. -/
inductive Part where
  | own (core : Nat) (c : Cmd)
  | far (f : CollFlit)
  deriving DecidableEq, Repr

/-- OP, RED, TYPE, SPAN, count and ROOT of a participant's command (R302). -/
def Part.fields : Part → List Nat
  | .own _ c => match c.op with
    | .coll op red ty span root _ _ _ => [op, red, ty, b2n span, c.len.toNat, root]
    | _ => []
  | .far f => [f.op, f.red, f.ty, b2n f.span, f.count, f.root]

/-- The COLL of a participant of this box that the ports hold. -/
def ownColl (s : State) (pid group v seq : Nat) : Option Part :=
  (List.range 96).findSome? fun core =>
    let k := s.core core
    if k.pid ≠ pid then none
    else (k.cmds.find? fun c => c.stage == .port && c.group == group && c.vcore == v && (match c.op with
      | .coll _ _ _ _ _ _ _ n => n == seq
      | _ => false)).map fun c => .own core c

/-- Tandem role of this box (R378). -/
def tandemRole (s : State) : Nat := wfld s.tandemCfg 62 62

/-- The COLL of a participant of the peer's box that it has sent. -/
def farColl (s : State) (pid group part seq : Nat) : Option Part :=
  (s.peerColl.find? fun f => !f.last && f.pid == pid && f.group == group && f.seq == seq && f.part == part).map .far

/-- The participants of the set of a command, in their numbering; none while one of them is missing (R302, R443). The peer's grid is
among them where a command of either box has SPAN 1 (R302, R442); commands of SPAN 0 that are all there before the peer has sent
one of SPAN 1 are a set of their own (log 17). -/
def matchedSet (s : State) (core : Nat) (c : Cmd) : Option (List Part) :=
  let k := s.core core
  match c.op with
  | .coll _ _ _ _ _ _ _ seq =>
    let n := k.gx * k.gy
    let lo := if tandemRole s = 0 then n else 0
    let own := (List.range n).map fun v => ownColl s k.pid c.group v seq
    let far := (List.range n).map fun v => farColl s k.pid c.group (lo + v) seq
    let span (p : Part) : Bool := p.fields.getD 3 0 == 1
    let ps := if !((own ++ far).filterMap id).any span then own else if tandemRole s = 0 then own ++ far else far ++ own
    if ps.any Option.isNone then none else some (ps.filterMap id)
  | _ => none

/-- The fields in which a set disagrees: INFO of R442. -/
def mismatch (ps : List Part) : Nat :=
  bitsOf ((List.range 6).map fun i => ps.any fun p => p.fields.getD i 0 != ((ps.map Part.fields).headD []).getD i 0)

/-- One step of a reduction (R303). -/
def collOp (red ty x y : Nat) : Nat :=
  if ty = 0 then
    let a := f32 x
    let b := f32 y
    rneF32 (if red = 0 then a.add b else if red = 1 then a.max b else a.min b)
  else
    let sg := ty == 1
    if red = 0 then (x + y) % 2 ^ 32
    else if red = 1 then (if intOf sg 32 x < intOf sg 32 y then y else x)
    else if intOf sg 32 y < intOf sg 32 x then y else x

/-- One level of the tree: neighbours are joined, the lower on the left; a value that is missing makes the result miss. -/
def redLevel (f : Nat → Nat → Nat) : List (Option Nat) → List (Option Nat)
  | a :: b :: r =>
    (match a, b with
      | some x, some y => some (f x y)
      | _, _ => none) :: redLevel f r
  | r => r

/-- The tree of R303 over the participants' values. -/
def redTree (f : Nat → Nat → Nat) : Nat → List (Option Nat) → Option Nat
  | 0, xs => xs.headD none
  | k + 1, xs => if xs.length ≤ 1 then xs.headD none else redTree f k (redLevel f xs)

/-- The value of a destination element (R304). `src p e` is source element e of participant p. -/
def collValue (op red ty t count root q j : Nat) (src : Nat → Nat → Option Nat) : Option Nat :=
  let red' (e : Nat) : Option Nat := redTree (collOp red ty) t ((List.range t).map fun p => src p e)
  if op = 0 then red' j
  else if op = 1 then red' (q * (count / t) + j)
  else if op = 2 then src (j / count) (j % count)
  else src root j

/-- A fault met by a participant. -/
abbrev CFault := Option (Nat × CmdFault × Option (Nat × Nat))

/-- The source elements of one participant, each read at its own; those that fail are missing. -/
def readSource (w : Who) (space p : Nat) (a : Word) : Nat → CFault → List (Option Nat) → State → Res (List (Option Nat) × CFault)
  | 0, f, xs, s => .ok (xs.reverse, f) s
  | k + 1, f, xs, s =>
    match (engineRead s w space 0 a 4).atAddr a with
    | .wait s => .wait s
    | .ok bs s => readSource w space p (a + 4) k f (some (bytesToNat bs) :: xs) s
    | .flt e s => readSource w space p (a + 4) k (f.or (some (p, (e.cmd 5).1, e.unit))) (none :: xs) s

/-- The space of a participant's source, and of its destination. -/
def collSpaces (c : Cmd) : Nat × Nat :=
  match c.op with
  | .coll _ _ _ _ _ ssp dsp _ => (ssp, dsp)
  | _ => (0, 0)

/-- What a command of SPAN 1 took as it was dispatched: its source elements, or the fault that reading them met, which is the one that
the peer was told (R492). -/
def Cmd.taken (c : Cmd) (p : Nat) (f : CFault) : Option (List (Option Nat) × CFault) :=
  match c.fault, c.word with
  | some x, _ => some ([], f.or (some (p, x, none)))
  | none, some bs => some ((elems 4 c.len.toNat bs).map some, f)
  | none, none => none

/-- The sources of a set, in participant order. -/
def readSources : Nat → List Part → CFault → State → Res (List (List (Option Nat)) × CFault)
  | _, [], f, s => .ok ([], f) s
  | p, .far x :: r, f, s =>
    (readSources (p + 1) r (f.or (x.fault.map fun y => (p, { code := y.1, info := y.2, acc := 0, addr := 0 }, none))) s).bind fun y s =>
      .ok (x.words.map (fun v => some v.toNat) :: y.1, y.2) s
  | p, .own core c :: r, f, s =>
    (match c.taken p f with
      | some x => Res.ok x s
      | none => readSource (engineWho s core 20) (collSpaces c).1 p c.a c.len.toNat f [] s).bind fun x s =>
      (readSources (p + 1) r x.2 s).bind fun y s => .ok (x.1 :: y.1, y.2) s

/-- The destination elements of a participant that can be written, and the first that cannot. -/
def checkDest (w : Who) (space q : Nat) (a : Word) (vals : List (Option Nat)) : Nat → CFault → List (Word × Nat) → State →
    (List (Word × Nat) × CFault) × State
  | 0, f, ws, s => ((ws.reverse, f), s)
  | k + 1, f, ws, s =>
    let j := vals.length - (k + 1)
    let x := a + BitVec.ofNat 64 (4 * j)
    match vals.getD j none with
    | none => checkDest w space q a vals k f ws s
    | some v =>
      match forceCheck s w space 0 x (natToBytes 4 v) with
      | (.ok _, s) => checkDest w space q a vals k f ((x, v) :: ws) s
      | (.error e, s) => checkDest w space q a vals k (f.or (some (q, (e.cmd 6).1, e.unit))) ws s

/-- The destinations of a set: for each participant its writes. -/
def checkDests (vals : Nat → List (Option Nat)) : Nat → List Part → CFault → State →
    (List (Nat × Cmd × List (Word × Nat)) × CFault) × State
  | _, [], f, s => (([], f), s)
  | q, .far _ :: r, f, s => checkDests vals (q + 1) r f s
  | q, .own core c :: r, f, s =>
    let xs := vals q
    let ((ws, f), s) := checkDest (engineWho s core 20) (collSpaces c).2 q c.b xs xs.length f [] s
    let ((rest, f), s) := checkDests vals (q + 1) r f s
    (((core, c, ws) :: rest, f), s)

/-- The writes of a participant that are made: all, or after a fault any subset (R492, log 20). -/
def chosenWords (s : State) (all : Bool) (x : Nat × Cmd × List (Word × Nat)) : List (Word × Nat) :=
  x.2.2.filter fun y => all || Config.freeBit (s.fresh + y.1.toNat / 4)

/-- The checked pieces of a participant's writes. -/
def destPieces (all : Bool) (x : Nat × Cmd × List (Word × Nat)) (s : State) : List Piece × State :=
  (chosenWords s all x).foldl (fun r y =>
    match forceCheck r.2 (engineWho r.2 x.1 20) (collSpaces x.2.1).2 0 y.1 (natToBytes 4 y.2) with
    | (.ok ps, s) => (r.1 ++ ps, s)
    | (.error _, s) => (r.1, s)) ([], s)

/-- Whether every write of a set can be made now; each that cannot asks for what it needs (R156, R367). -/
def destsReady (all : Bool) (ws : List (Nat × Cmd × List (Word × Nat))) (s : State) : Bool × State :=
  ws.foldl (fun r x =>
    let (ps, s) := destPieces all x r.2
    piecesReady (engineWho s x.1 20) ps r.1 s) (true, s)

/-- The writes of one participant are made. -/
def putDest (all : Bool) (s : State) (x : Nat × Cmd × List (Word × Nat)) : State :=
  let (ps, s) := destPieces all x s
  let w := engineWho s x.1 20
  let masks := s.collected
  let s := spendMasks masks w ps (forcePieces masks x.2.1.ctxid x.2.1.pc (collSpaces x.2.1).2 w ps s)
  let s := forceBlocks s x.2.1.pc w ps
  if all then s else { s with fresh := s.fresh + 2 ^ 62 }

/-- Every command of a set faults: the failing participant keeps the address and the ACC (R442, R492). -/
def failSet (s : State) (f : CmdFault) (who : Nat) (unit : Option (Nat × Nat)) : Nat → List Part → State
  | _, [] => s
  | q, .far _ :: r => failSet s f who unit (q + 1) r
  | q, .own core c :: r =>
    let x := if q = who then f else { f with acc := 0, addr := 0 }
    failSet (failCmd s core c x (if q = who then unit else none)) f who unit (q + 1) r

/-- PID, group and sequence number of a participant's command. -/
def Part.name (s : State) : Part → Nat × Nat × Nat
  | .own core c => ((s.core core).pid, c.group, match c.op with
    | .coll _ _ _ _ _ _ _ seq => seq
    | _ => 0)
  | .far f => (f.pid, f.group, f.seq)

/-- The peer's commands that a set matches have been used. -/
def dropFar (s : State) (ps : List Part) : State :=
  { s with peerColl := s.peerColl.filter fun f => f.last || !ps.any fun p => p.name s == (f.pid, f.group, f.seq) }

/-- Whether a set spans Tandem. -/
def spans (ps : List Part) : Bool := ps.any fun p => match p with
  | .far _ => true
  | .own _ _ => false

/-- The peer is told what came of each of this box's participants, once their destinations are written or one could not be (R492;
log 17). -/
def tellVerdict (f : CFault) (s : State) (x : Nat × Part) : State :=
  match x.2 with
  | .own core c => (match c.op with
    | .coll op red ty _ root _ _ seq =>
      { s with peerOut := s.peerOut ++
          [.coll { pid := (s.core core).pid, group := c.group, part := x.1, seq := seq, op := op, red := red, ty := ty, span := true,
                   count := c.len.toNat, root := root, words := [], fault := f.map fun y => (y.2.1.code, y.2.1.info), last := true }] }
    | _ => s)
  | .far _ => s

/-- What becomes of a set whose accesses are made: each command is complete, or, in a set that spans Tandem, waits for what came of
the peer's (R492). -/
def endPart (span : Bool) (s : State) (p : Part) : State :=
  match p with
  | .own core c => if span then setCmd (engineRelease s) core { c with stage := .judged } else doneCmd s core c
  | .far _ => s

/-- A matched set is performed, once every line that it writes can be written and told (R303, R304, R442, R457, R492). -/
def runColl (s : State) (ps : List Part) : State :=
  let m := mismatch ps
  if m ≠ 0 then failSet (dropFar s ps) { code := 0x02, info := m, acc := 0, addr := 0 } ps.length none 0 ps
  else
    let fs := (ps.map Part.fields).headD []
    let op := fs.getD 0 0
    let count := fs.getD 4 0
    let t := ps.length
    match readSources 0 ps none s with
    | .wait s => s
    | .flt _ s => s
    | .ok (xs, f0) s =>
      let src (p e : Nat) : Option Nat := (xs.getD p []).getD e none
      let vals (q : Nat) : List (Option Nat) :=
        (List.range (collDst op count t)).map fun j => collValue op (fs.getD 1 0) (fs.getD 2 0) t count (fs.getD 5 0) q j src
      let ((ws, f), s) := checkDests vals 0 ps f0 s
      match destsReady f.isNone ws s, f.any (·.2.1.code == 0) with
      | (false, s), _ => s
      | (true, s), true => s
      | (true, s), false =>
        let s := dropFar (engineRelease (ws.foldl (putDest f.isNone) s)) ps
        let s := if spans ps && f0.isNone then ((List.range t).zip ps).foldl (tellVerdict f) s else s
        match f with
        | some (q, x, u) => failSet s x q u 0 ps
        | none => ps.foldl (endPart (spans ps)) s

/-- What the peer has told of the participants of a judged command, once it has of every one (R492). -/
def verdicts (s : State) (core : Nat) (c : Cmd) : Option (List CollFlit) :=
  let k := s.core core
  match c.op with
  | .coll _ _ _ _ _ _ _ seq =>
    let fs := s.peerColl.filter fun f => f.last && f.pid == k.pid && f.group == c.group && f.seq == seq
    if k.gx * k.gy ≤ fs.length then some fs else none
  | _ => none

/-- The commands of this box that belong to the set of a judged one. -/
def judgedSet (s : State) (pid : Nat) (c : Cmd) : List (Nat × Cmd) :=
  let seqOf (x : Cmd) : Option Nat := match x.op with
    | .coll _ _ _ _ _ _ _ n => some n
    | _ => none
  (List.range 96).flatMap fun core =>
    if (s.core core).pid ≠ pid then []
    else ((s.core core).cmds.filter fun x => x.stage == .judged && x.group == c.group && seqOf x == seqOf c).map fun x => (core, x)

/-- A set that spans Tandem ends: with the fault of a peer's participant, or well (R305, R492). -/
def endJudged (s : State) (core : Nat) (c : Cmd) (fs : List CollFlit) : State :=
  let mine := judgedSet s (s.core core).pid c
  let s := { s with peerColl := s.peerColl.filter fun f => !fs.contains f }
  match fs.findSome? (·.fault) with
  | some (code, info) => mine.foldl (fun s x => failCmd s x.1 x.2 { code := code, info := info, acc := 0, addr := 0 } none) s
  | none => mine.foldl (fun s x => doneCmd s x.1 x.2) s

/-- COLLECTIVE_MATCH: a set of the core whose peer's participants have all ended ends, else the set of its oldest COLL whose set
is complete is performed (R302, R305, R492). -/
def execCollectiveMatch (core : Nat) (s : State) : Host.Outcome State Fault Refusal :=
  let cs := (s.core core).cmds
  agent
    (match (cmdAt s core .judged).bind fun c => (verdicts s core c).map fun fs => (c, fs) with
      | some (c, fs) => endJudged s core c fs
      | none => match (cs.filter fun c => c.stage == .port).findSome? (matchedSet s core) with
        | some ps => runColl s ps
        | none => s)

/-! ### Dispatch and completion -/

/-- A COLL goes to the peer: one with SPAN 1 with its source words, which the command keeps, or with the fault that reading them met,
whose unit is recorded then; one with SPAN 0 alone, while Tandem is up (R302, R377, R442, R492; log 17). -/
def collToPeer (s : State) (core : Nat) (c : Cmd) : Res Cmd :=
  match c.op with
  | .coll op red ty span root ssp _ seq =>
    let k := s.core core
    let part := c.vcore + (if tandemRole s = 1 then k.gx * k.gy else 0)
    let send (s : State) (ws : List (BitVec 32)) (f : Option (Nat × Nat)) : State :=
      { s with peerOut := s.peerOut ++
          [.coll { pid := k.pid, group := c.group, part := part, seq := seq, op := op, red := red, ty := ty, span := span,
                   count := c.len.toNat, root := root, words := ws, fault := f, last := false }] }
    if span then
      match readBytes (engineWho s core 20) ssp 0 4 c.len.toNat (4 * c.len.toNat) c.a s with
      | .ok bs s => .ok { c with word := some bs } (send s ((elems 4 c.len.toNat bs).map fun x => BitVec.ofNat 32 x) none)
      | .flt f s =>
        let x := (f.cmd 5).1
        .ok { c with fault := some x } (send (ueRecord s false (cmdTrap c x f.unit) c.pc) [] (some (f.code, f.info)))
      | .wait s => .wait s
    else .ok c (if s.tandemUp then send s [] none else s)
  | _ => .ok c s

/-- COMMAND_DISPATCH: the oldest sent command whose engine is free is taken (R284). -/
def execCommandDispatch (core : Nat) (s : State) : Host.Outcome State Fault Refusal :=
  let k := s.core core
  agent
    (match k.cmds.findSome? fun c => (takenAt k c).map fun g => (c, g) with
      | some (c, g) =>
        match collToPeer s core c with
        | .ok c s => setCmd s core { c with stage := g }
        | .flt _ s => s
        | .wait s => s
      | none => s)

/-- COMPLETION_NOTIFY: the message of a command with NV, or the record of a virtual core that has no entry (R289, R422). -/
def notify (s : State) (core : Nat) (c : Cmd) : State :=
  match c.notify with
  | none => s
  | some (reg, v) =>
    let k := s.core core
    let arga := if c.fault.isSome then c.num ||| 0x8000_0000_0000_0000 else c.num
    match s.pcoreOf core v with
    | some dest =>
      sendTo s dest
        { kind := 0, mreg := reg, slot := 0, srcv := c.vcore, dstv := v, pid := k.pid, group := c.group, domain := 0,
          peer := false, arga := arga, argb := 0, pay := List.replicate 5 0, code := [], priv := c.priv, major := 3,
          minor := 2 }
    | none =>
      let t : Trap := cmdTrap c { code := 0x02, info := 0x8213, acc := 0, addr := 0 } none
      faultRecord s 1 c.ctxid (causeWord false t) c.pc 0 c.num

/-- DONE of a counter passes complete commands, each with its notification (R163, R289). -/
def raiseDone (core tc : Nat) : Nat → State → State
  | 0, s => s
  | n + 1, s =>
    let k := s.core core
    let t := k.tcOf tc
    match takeFirst (fun c => c.tc == tc && c.num == t.done + 1 && c.stage == .complete) k.cmds with
    | some (c, rest) =>
      raiseDone core tc n (notify (s.setCore core ({ k with cmds := rest }.setTc tc { t with done := c.num })) core c)
    | none => s

/-- COMMAND_COMPLETE: DONE moves once what the engines wrote is performed at every place (R163, R289). -/
def execCommandComplete (core tc : Nat) (s : State) : Host.Outcome State Fault Refusal :=
  let t := engineRelease s
  agent (if t.flights.isEmpty then raiseDone core tc (t.core core).cmds.length t else t)

end Sys2Proof.Machine
end

