-- ==== Sys2Proof/Machine/MemSteps.lean ====
section
/-! DEFINITION. The steps of banks, translation stations, caches, memory controllers, the alias converter, the places and the
directory overflow handler (R63, R107, R108, R113 to R120, R121 to R137, R144, R154, R156 to R161, R446 to R463, R491). -/

namespace Sys2Proof.Machine

/-! ### Banks (R115 to R120, R451) -/

/-- Home core and local number of bank 0 to 127 of a paddock (R15). -/
def bankAt (paddock bank : Nat) : Nat × Nat := (paddock * 8 + bank / 16, bank % 16)

/-- BANK_SWITCH_POINT (R116, R451). -/
def execBankSwitchPoint (paddock bank : Nat) (s : State) : Host.Outcome State Fault Refusal :=
  agent (switchPoint s (bankAt paddock bank).1 (bankAt paddock bank).2)

/-- BANK_TILE_COPY: one mapped tile of a bank that a switch on its way takes out of TILE mode moves (R118). -/
def execBankTileCopy (paddock bank : Nat) (s : State) : Host.Outcome State Fault Refusal :=
  let (home, b) := bankAt paddock bank
  agent
    (if (s.bank home b).switches.any fun w => w.mode != 4 then
       match tileCopyOne (s.core home) b with
       | some k => s.setCore home k
       | none => s
     else s)

/-- BANK_CLEAR_DONE (R117). -/
def execBankClearDone (paddock bank : Nat) (s : State) : Host.Outcome State Fault Refusal :=
  agent (clearDone s (bankAt paddock bank).1 (bankAt paddock bank).2)

/-- The oldest posted store of a list that need not wait is performed; `kept` are those that wait, oldest first (R120, R144,
R491). -/
def postedFirst (core : Nat) : List Posted → List Posted → State → State
  | [], _, s => s
  | x :: xs, kept, s =>
    if kept.any (holdsBack s · x) then postedFirst core xs (kept ++ [x]) s
    else match performStore s core x with
      | .ok _ s => setPosted s core (kept ++ xs)
      | .flt _ s => s
      | .wait s => postedFirst core xs (kept ++ [x]) s

/-- The oldest posted store of a core that need not wait is performed (R144, R491). -/
def postedOldest (s : State) (core : Nat) : State := postedFirst core (s.core core).posted [] s

/-- POSTED_STORE_PERFORM (R144, R491). -/
def execPostedStorePerform (core : Nat) (s : State) : Host.Outcome State Fault Refusal := agent (postedOldest s core)

/-- The stores of a core to a queue are performed, as many as find room (R120). -/
def serveStores (home b : Nat) (s : State) (core : Nat) : State :=
  if (s.core core).posted.any (Posted.toBank home b) then
    match drain s core (Posted.toBank home b) with
    | .ok _ s => s
    | .flt _ s => s
    | .wait s => s
  else s

/-- The first load that waits on a queue is served: a context takes its turn to execute it again, a copy channel goes on; while
the queue cannot serve it, the stores that stand before the queue are performed (R120). -/
def serveFifo (s : State) (home b : Nat) : State :=
  let x := s.bank home b
  match x.waiters with
  | (core, slot) :: _ =>
    let s := if x.count < 256 then (List.range 96).foldl (serveStores home b) s else s
    if (s.bank home b).count = 0 then s
    else if 16 ≤ slot then
      match cmdAt s core (.chan (slot - 17)) with
      | some c => copyStep s core (slot - 17) c
      | none => s.setBank home b { s.bank home b with waiters := x.waiters.drop 1 }
    else if s.turns.contains (.ctx core slot) then s
    else { s with turns := .ctx core slot :: s.turns }
  | [] => (List.range 96).foldl (serveStores home b) s

/-- FIFO_WAIT_SERVE (R120). -/
def execFifoWaitServe (paddock bank : Nat) (s : State) : Host.Outcome State Fault Refusal :=
  agent (serveFifo s (bankAt paddock bank).1 (bankAt paddock bank).2)

/-! ### Atomics (R154, R160) -/

/-- The rows of major 0x1D. -/
def atomRows : List OpRow := rows11 ++ rows12

/-- The meaning of an atomic, of no other instruction. -/
def atomMeaning : Instr → Option (State → Host.Outcome State Fault Refusal)
  | .aswp d a b sz m x => some (execAswp d a b sz m x)
  | .acas d a b sz c m x => some (execAcas d a b sz c m x)
  | .aadd d a b sz m x => some (execAadd d a b sz m x)
  | .aand d a b sz m x => some (execAand d a b sz m x)
  | .aor d a b sz m x => some (execAor d a b sz m x)
  | .axor d a b sz m x => some (execAxor d a b sz m x)
  | .aminI d a b sz m x => some (execAminI d a b sz m x)
  | .aminN d a b sz m x => some (execAminN d a b sz m x)
  | .amaxI d a b sz m x => some (execAmaxI d a b sz m x)
  | .amaxN d a b sz m x => some (execAmaxN d a b sz m x)
  | .afaddF32 d a b m x => some (execAfaddF32 d a b m x)
  | _ => none

/-- ATOMIC_PERFORM: the atomic at the head of a context that can execute is performed, by executing it (R154, R160, R392;
log 4). -/
def execAtomicPerform (core slot : Nat) (s : State) : Host.Outcome State Fault Refusal :=
  let c := s.ctx core slot
  if canRun s true core slot && !atBreak s core slot then
    match fetchWords s core slot c.pc 3 with
    | .ok ws t =>
      match decodeIn atomRows (slot != 15) (wordsToNat ws) with
      | .ok i _ =>
        match atomMeaning i with
        | some f => f (t.moveTo core slot)
        | none => agent s
      | _ => agent s
    | _ => agent s
  else agent s

/-! ### Translation (R126 to R129, R446, R447) -/

/-- STORE_PROBE_ANSWER: the station translates the page of a store; a walk's valid result stays in its TLB (R127, R446). -/
def execStoreProbeAnswer (die pid va : Nat) (s : State) : Host.Outcome State Fault Refusal :=
  agent (translateFor s die pid va .store).2

/-- PAGE_WALK (R126, R127, R447). -/
def execPageWalk (die pid va : Nat) (s : State) : Host.Outcome State Fault Refusal := agent (translate s die pid va).2

/-- XINV_WRITE (R129). -/
def execXinvWrite (w : Word) (s : State) : Host.Outcome State Fault Refusal := agent (xinv s w)

/-! ### L2 (R121 to R123, R448) -/

/-- L2_LOAD_MISS_FILL: the bytes of the line of a virtual address that a die's L2 lacks are fetched, where a load may read
them (R122, R123). -/
def execL2LoadMissFill (die pid va : Nat) (s : State) : Host.Outcome State Fault Refusal :=
  agent
    (match resolve s ⟨die * 48, 16, pid⟩ .scalar .load va 1 with
      | (.error _, s) => s
      | (.ok t, s) =>
        let whole := match l2Phys s die (t.pa / 128) with
          | some l => l.valid.all id
          | none => false
        let cached := !isAlias t.leaf && (regionOf t.pa == .hbm || (regionOf t.pa == .host && !s.hostDown))
        if whole || !cached || dirBusyLine s die pid (vlnOf va) (t.pa / 128) then s
        else (l2Fill s die pid (vlnOf va) (t.pa / 128) (wbit t.leaf 5) false).2)

/-- L2_WRITEBACK: a dirty line goes to its recorded physical line (R122, R448). -/
def execL2Writeback (die pid va : Nat) (s : State) : Host.Outcome State Fault Refusal :=
  agent
    (match (s.l2Of die).find? fun (l : L2Line) => l.pid == pid && l.vln == vlnOf va with
      | some l => l2Writeback s die l
      | none => s)

/-! ### Controllers (R131 to R134, R408, R456, R457) -/

/-- CONTROLLER_LINE_WRITE: it waits while the line's tag cannot be told (R131, R457). -/
def execControllerLineWrite (pa : Nat) (c : Bool) (bytes : List Byte) (s : State) : Host.Outcome State Fault Refusal :=
  agent (if regionOf pa = .hbm ∧ bytes.length = 128 ∧ metaReady s (pa / 128) then lineWrite s (pa / 128) bytes c else s)

/-- CONTROLLER_PARTIAL_MERGE (R133, R456). -/
def execControllerPartialMerge (pa : Nat) (c : Bool) (bytes : List Byte) (s : State) : Host.Outcome State Fault Refusal :=
  agent
    (if regionOf pa = .hbm ∧ pa % 128 + bytes.length ≤ 128 ∧ bytes ≠ [] ∧ metaReady s (pa / 128) then
       lineMerge s (pa / 128) (rangeMask (pa % 128) bytes.length) (lineWith (pa % 128) bytes) c
     else s)

/-- CONTROLLER_LINE_READ: the tag is read through the metadata cache (R132). -/
def execControllerLineRead (pa : Nat) (s : State) : Host.Outcome State Fault Refusal :=
  agent (if regionOf pa = .hbm then (lineRead s (pa / 128)).2 else s)

/-- METADATA_MISS: it waits for the controller that serves the line (R134, R457). -/
def execMetadataMiss (ctrl line : Nat) (s : State) : Host.Outcome State Fault Refusal :=
  agent (if wbit s.ready (32 + ctrlOf (line * 64)) then metaLoad s ctrl line else s)

/-- METADATA_WRITEBACK: a line leaves the cache, the tags it changed written back (R134, R408). -/
def execMetadataWriteback (ctrl line : Nat) (s : State) : Host.Outcome State Fault Refusal := agent (metaEvict s ctrl line)

/-! ### The alias converter (R107, R108, R136, R458, R459) -/

/-- Whether a descriptor holds a block (R135, R458). -/
def aliasHolds (s : State) (desc blk : Nat) : Bool :=
  decide (desc < 64) && wbit (aliasWord s desc 2) 35 && decide (aliasFmt s desc < 6) && decide (blk < wfld (aliasWord s desc 2) 31 0)

/-- ALIAS_READ: the block's element and scale bytes are read (R107). -/
def execAliasRead (desc blk : Nat) (s : State) : Host.Outcome State Fault Refusal :=
  agent
    (if aliasHolds s desc blk then
       match aliasRead s desc blk 0 64 with
       | .ok _ s => s
       | .flt _ s => s
       | .wait s => s
     else s)

/-- ALIAS_WRITE_REPACK: whole elements of a block are replaced and the block is packed again (R108, R459). -/
def execAliasWriteRepack (desc blk pos : Nat) (bytes : List Byte) (s : State) : Host.Outcome State Fault Refusal :=
  agent
    (if aliasHolds s desc blk && pos % 2 == 0 && bytes.length % 2 == 0 && decide (pos + bytes.length ≤ 64) then
       match aliasFree s desc blk with
       | .ok _ s => aliasWrite s desc blk pos bytes false 0 0
       | .flt _ s => s
       | .wait s => s
     else s)

/-! ### Places (R158, R159) -/

/-- STAMPED_WRITE_APPLY (R156, R158, R159). -/
def execStampedWriteApply (place : Nat) (s : State) : Host.Outcome State Fault Refusal := agent (applyOne s place)

/-! ### The directory overflow handler (R156, R157, R463) -/

/-- The request word of s1 (R156). -/
def dirRequestWord (r : DirReq) : Word :=
  BitVec.ofNat 64 (put r.reason 62 + if r.reason = 1 then 0 else 2 ^ (r.sharer % 8))

/-- The line key of s2 (R156). -/
def dirLineKey (r : DirReq) : Word := BitVec.ofNat 64 (put (r.pid % 64) 41 + r.vln % 2 ^ 41)

/-- DIRECTORY_OVERFLOW_REQUEST: an idle h9 starts on the oldest request of its slices; in broadcast mode requests are
dropped (R156, R463). -/
def execDirectoryOverflowRequest (core : Nat) (s : State) : Host.Outcome State Fault Refusal :=
  let k := s.core core
  agent
    (match k.dirQ with
      | [] => s
      | r :: rest =>
        if k.bcast then s.setCore core { k with dirQ := [] }
        else if (k.ctx 9).st == .idle && k.dirReq.isNone then
          let pc := sextW 48 k.dirPc
          let c := freshCtx (k.ctx 9) pc [dirRequestWord r, dirLineKey r, BitVec.ofNat 64 r.slice] (codeVersion s k.pid pc)
          startIn (s.setCore core { k with dirQ := rest, dirReq := some r }) core 9 c
        else s)

/-- DIRECTORY_CONFIG_WRITE: a reserved field reads as zero (R9, R157, R463). -/
def execDirectoryConfigWrite (core : Nat) (area : Bool) (w : Word) (s : State) : Host.Outcome State Fault Refusal :=
  agent (dirConfig s core area (w &&& sysMask (if area then 0x1D else 0x1C) 0))

end Sys2Proof.Machine
end

