-- ==== Sys2Proof/Machine/LinkSteps.lean ====
section
/-! DEFINITION. The links: the loss of the host port and of Tandem, the Tandem bring-up, and the flits of the peer (R56, R158,
R161, R377 to R379, R383, R384, R476, R480 to R483). -/

namespace Sys2Proof.Machine

/-! ### The host port goes down (R481, R482) -/

/-- Physical lines of host memory leave an L2; whether one of them was dirty (R482). -/
def dropHostLines (s : State) (die : Nat) : Bool × State :=
  let (out, keep) := (s.l2Of die).partition fun (l : L2Line) => regionOf (l.pln * 128) == .host
  let s := out.foldl (fun s l => dropCodeDie (dropPaddocks s die l.pln) die l.pln) s
  (out.any fun l => l.dirty.any id, s.setL2 die keep)

/-- The host's share of the lines it caches ends (R155, R482). -/
def hostForgets (s : State) : State :=
  s.hostLines.foldl (fun s l => dropSharer s (memPlace (l * 128)) l 7) { s with hostLines := [], bisnp := [] }

/-- Whether a host request is a read, whose answer a link that is down cannot bring. -/
def HostReq.isRead : HostReq → Bool
  | .read _ _ => true
  | _ => false

/-- The device no longer reaches host memory: dirty lines and images on their way there are discarded with the record of
R482, the lines that the host caches are its own no more, and what waited for them goes on (R482, log 30). -/
def hostLoss (s : State) : State :=
  let (d0, s) := dropHostLines s 0
  let (d1, s) := dropHostLines s 1
  let away (d : Delivery) : Bool := d.dst == 2 && (d.images ++ d.parts).any fun x => regionOf x.1 == .host
  let lost := d0 || d1 || s.flights.any away
  let s := { hostForgets s with hostDown := true, cxlOpen := [], hostWait := s.hostWait.filter fun r => !r.isRead,
                                flights := s.flights.map fun d => if away d then { d with images := [], parts := [] } else d }
  devRun (if lost then discardRecord s 7 else s)

/-- The record of a link declared down (R481). -/
def linkRecord (s : State) (cls : Nat) : State := faultRecord s 2 (unitWord cls 0xFF) 0 0 0 0

/-- READY without the bits of a mask. -/
def State.clearReady (s : State) (mask : Word) : State := { s with ready := s.ready &&& ~~~mask }

/-- The host port is down (R481). -/
def hostLinkDown (s : State) : State := hostLoss ((linkRecord s 7).clearReady 7)

/-! ### Tandem goes down (R483) -/

/-- Whether a command is an incomplete COLL with SPAN = 1. -/
def Cmd.spansTandem (c : Cmd) : Bool :=
  match c.op with
  | .coll _ _ _ true _ _ _ _ => c.stage != .complete
  | _ => false

/-- The COLLs with SPAN = 1 of a core that the loss leaves incomplete: FLT_LINK, and their group's rein line (R483). -/
def failSpans (s : State) (core : Nat) : State :=
  ((s.core core).cmds.filter Cmd.spansTandem).foldl (fun s c =>
    let s := failCmd s core c { code := 0x0F, info := 2, acc := 0, addr := 0 } none
    reinLine s core [] (s.core core).pid c.group) s

/-- The rein lines of the groups that sent to the peer within 2,000 ticks (R483), with the release of R56 by the cores of
their process. -/
def reinSenders (s : State) : State :=
  (s.peerSends.filter fun x => decide (s.tick ≤ x.2.2 + 2000)).foldl (fun s x =>
    let mine (s : State) (c : Nat) : Bool := (s.core c).pid == x.1 && s.enabled c
    let s := (List.range 96).foldl (fun s c => if mine s c then asked (drain s c fun _ => true) else s) s
    reinLine s 0 [] x.1 x.2.1) s

/-- TANDEM_LOSS: what the peer sent and is not applied is discarded; what waited for a place-3 counter waits for it no more, since
stampReady looks at none while Tandem is down; no place changes its own (R482, R483). -/
def tandemLoss (s : State) : State :=
  let s := s.clearReady 0x40
  let s := { s with peerMsgs := [], peerCtrl := [], peerColl := [], flights := s.flights.filter fun d => d.origin != 3 && d.dst != 3 }
  let s := drainTo (drainDies s) 2
  let s := (List.range 96).foldl failSpans s
  { reinSenders s with peerSends := [] }

/-- Tandem is down, until EN is written 0 and then 1 (R481, R483). -/
def tandemLinkDown (s : State) : State :=
  if s.tandemUp then tandemLoss { linkRecord s 8 with tandemArmed := false } else s

/-- Lanes of a link that are retired, or widths that it gave up. -/
def lostLanes (s : State) (cls : Nat) : Nat := (s.retired.filter fun x => x.1 == cls).length

/-- LINK_DOWN: class 7 the host port, class 8 Tandem (R481). -/
def execLinkDown (cls : Nat) (s : State) : Host.Outcome State Fault Refusal :=
  agent
    (if cls = 7 then (if s.hostDown then s else hostLinkDown s)
     else if cls = 8 then tandemLinkDown s
     else s)

/-- LINK_RETRAIN_DONE: flits that waited go on; retraining changes timing only (R480). -/
def execLinkRetrainDone (_cls : Nat) (s : State) : Host.Outcome State Fault Refusal := agent s

/-! ### Bring-up (R379, R383, R384, R483) -/

/-- The tick of a role-1 box on role 0's value: a higher one is taken at once; for a lower one the counter stands still
until it is reached (R384). -/
def tickSync (s : State) (t : Word) : State :=
  if tandemRole s = 1 then
    if s.tick ≤ t.toNat then { s with tick := t.toNat, tickWait := 0 } else { s with tickWait := s.tick - t.toNat }
  else s

/-- Place-3 numbering starts at zero at every place, and the peer's vector counts the writes this device has made (R483;
log 17). -/
def restartPlace3 (s : State) : State :=
  let zero (v : List Nat) : List Nat := v.set 3 0
  let s := { s with vecs := s.vecs.map zero, stamps := s.stamps.map fun (x : SectorStamp) => ({ x with stamp := zero x.stamp } : SectorStamp),
                    flights := s.flights.map fun (d : Delivery) => ({ d with stamp := zero d.stamp } : Delivery) }
  s.setVec 3 ((List.range 4).map fun i => if i = 3 then 0 else (s.vec i).getD i 0)

/-- The box of role 0 sends its tick while Tandem is up (R383; log 17). -/
def sendTick (s : State) : State :=
  if s.tandemUp ∧ tandemRole s = 0 then { s with peerOut := s.peerOut ++ [.tick (BitVec.ofNat 64 s.tick)] } else s

/-- Whether Tandem may come up: EN written 1 since it was last declared down, two lanes left, its function not failed (R372,
R378, R481, R486). -/
def mayComeUp (s : State) : Bool :=
  wbit s.tandemCfg 63 && s.tandemArmed && !s.tandemUp && wbit s.ready 7 && !wbit s.failed 6 && decide (lostLanes s 8 < 7)

/-- Whether the counters of the two boxes have met, so that READY.TANDEM may be set: none of the box of role 1 stands still for role
0's value (R383, R384). -/
def tickMet (s : State) (peerTick : Word) : Bool :=
  if tandemRole s = 1 then decide (s.tick ≤ peerTick.toNat) else decide (peerTick.toNat ≤ s.tick)

/-- TANDEM_BRING_UP: the counter of a role-1 box takes role 0's value or stands still until it is reached; once the counters have
met, the boxes exchange their WSIZE and role 0's tick, and READY.TANDEM is set; READY.TICK stays as it is (R372, R373, R378, R379,
R383, R384, R483; log 17). -/
def execTandemBringUp (peerSize : Nat) (peerTick : Word) (s : State) : Host.Outcome State Fault Refusal :=
  agent
    (if mayComeUp s && decide (peerSize ≤ 286) then
       if tickMet s peerTick then
         let t := { restartPlace3 (tickSync s peerTick) with ready := s.ready ||| 0x40, peerSize := peerSize }
         sendTick { t with peerOut := t.peerOut ++ [.size (wfld s.tandemCfg 29 21)] }
       else tickSync s peerTick
     else s)

/-! ### Flits of the peer (R158, R161, R377, R379) -/

/-- The Tandem port stamps a write that enters from the peer as place 3, after what the flit's stamp says the peer has seen
(R158, R377; log 17). -/
def stampPeer (s : State) (seen : List Nat) : List Nat × State :=
  stampNext (s.setVec 3 (vecMax (s.vec 3) (seen.set 3 0))) 3

/-- A write of the peer within one line of HBM, which comes through no leaf, so that its C is 0 (R131, R158, R159, R379; log
43). -/
def peerWriteLine (s : State) (seen : List Nat) (pa : Nat) (bs : List Byte) : State :=
  let pln := pa / 128
  let (v, s) := portView s 3 pln
  let (stamp, s) := stampPeer s seen
  originate s 3 pln stamp (imagesIn pln (pa % 128) bs v.data v.good) false true

/-- Whether a write of the peer still waits at a die. -/
def peerWaiting (s : State) : Bool := s.flights.any fun d => d.origin == 3 && decide (d.dst < 2)

/-- Whether a counter notice of the peer still waits at a die: the CTRL flits behind it wait (R377). -/
def ctrlWaiting (s : State) : Bool := s.flights.any fun d => d.origin == 3 && decide (d.dst < 2) && d.line.isNone

/-- A CTRL flit is applied: a notice is stamped, and applied at the places in its turn. -/
def ctrlFlit (s : State) : CtrlFlit → State
  | .notice stamp =>
    let (v, s) := stampPeer s stamp
    sendStamped s 3 0 v Images.none false false
  | .rein pid group => raiseRein s pid group
  | .tick t => tickSync s t
  | .credit _ _ => s

/-- CTRL flits are applied in the order sent, as far as they can be; the others wait (R377). -/
def runCtrl : List CtrlFlit → State → State
  | [], s => s
  | f :: fs, s =>
    let s := drainDies s
    if ctrlWaiting s then { s with peerCtrl := f :: fs } else runCtrl fs (ctrlFlit s f)

/-- CTRL flits that wait are applied, and MSG flits are delivered once every WRITE and CTRL flit before them has been applied
(R377). -/
def deliverPeer (s : State) : State :=
  let s := drainDies (runCtrl s.peerCtrl { drainDies s with peerCtrl := [] })
  if peerWaiting s || !s.peerCtrl.isEmpty then s
  else
    s.peerMsgs.foldl (fun s m =>
      let s := mapNote s m.pid m.dstv
      match mapCore s m.pid m.dstv with
      | some core => sendTo s core m
      | none => s) { s with peerMsgs := [] }

/-- TANDEM_WRITE_FLIT: a write into the exported window. One that WBASE leads out of HBM is an access that R21 calls a fault and
gives no outcome: it stops the model (R21, R158, R161, R377 to R379; log 33). -/
def execTandemWriteFlit (off : Nat) (bytes : List Byte) (stamp : List Nat) (s : State) : Host.Outcome State Fault Refusal :=
  let pa := wfld s.tandemCfg 45 30 * 2 ^ 30 + off
  let inside := decide (off + bytes.length ≤ wfld s.tandemCfg 29 21 * 2 ^ 30)
  let oneRange := decide (bytes ≠ []) && decide (off % 64 + bytes.length ≤ 64)
  if s.tandemUp && inside && oneRange then
    if pa + bytes.length ≤ metaBase then agent (deliverPeer (peerWriteLine s stamp pa bytes)) else .fault .hostHole
  else agent s

/-- The message that flits carry for a virtual core, with the version that inline code takes (R50, R357; log 17). -/
def peerMsg (dstv major minor : Nat) (bytes : List Byte) : Msg :=
  let h := msgWord bytes 0
  { kind := wfld h 1 0, mreg := wfld h 7 4, slot := wfld h 13 8, srcv := wfld h 27 20, dstv := dstv, pid := wfld h 33 28,
    group := wfld h 49 34, domain := wfld h 52 51, peer := true, arga := msgWord bytes 1, argb := msgWord bytes 2,
    pay := wordsOf 5 (bytes.drop 24),
    code := (elems 4 (wfld h 19 14) (bytes.drop 64)).map fun x => BitVec.ofNat 32 x, priv := false, major := major, minor := minor }

/-- TANDEM_MSG_FLIT (R50, R357, R377). -/
def execTandemMsgFlit (head : MsgHead) (bytes : List Byte) (s : State) : Host.Outcome State Fault Refusal :=
  let m := peerMsg head.dstv head.major head.minor bytes
  let whole := decide (bytes.length = 64 * (1 + wfld (msgWord bytes 0) 3 2)) && decide (m.kind < 3)
  agent (if s.tandemUp && whole then deliverPeer { s with peerMsgs := s.peerMsgs ++ [m] } else s)

/-- Whether a flit of the peer's COLLs is of use: a participant's command, or what came of one whose set has still to end here
(R302, R492). -/
def collUse (s : State) (f : CollFlit) : Bool :=
  !f.last || (List.range 96).any fun i =>
    (s.core i).pid == f.pid && (s.core i).cmds.any fun c => c.spansTandem && c.group == f.group && (match c.op with
      | .coll _ _ _ _ _ _ _ n => n == f.seq
      | _ => false)

/-- TANDEM_COLL_FLIT: a participant's command of the peer, for the set of R302, or what came of it (R377, R492). -/
def execTandemCollFlit (f : CollFlit) (s : State) : Host.Outcome State Fault Refusal :=
  agent (if s.tandemUp && collUse s f then { s with peerColl := s.peerColl ++ [f] } else s)

/-- TANDEM_CTRL_FLIT: applied after the CTRL flits before it (R56, R158, R377, R383, R476). -/
def execTandemCtrlFlit (f : CtrlFlit) (s : State) : Host.Outcome State Fault Refusal :=
  agent
    (if !s.tandemUp then s
     else if !s.peerCtrl.isEmpty || ctrlWaiting s then deliverPeer { s with peerCtrl := s.peerCtrl ++ [f] }
     else match f with
       | .notice _ => deliverPeer (ctrlFlit s f)
       | _ => ctrlFlit s f)

end Sys2Proof.Machine
end

