-- ==== Sys2Proof/Machine/DebugSteps.lean ====
section
/-! DEFINITION. The debugger: commands of the Stirrup port, precise stops, breakpoints, and the debugger's reads and writes of
registers and memory (R169, R170, R385 to R392, R488, R489). -/

namespace Sys2Proof.Machine

/-! ### Responses (R385, R488) -/

/-- A command has the STATUS, and VALUE and PEND are what it returns; a SCAN's stream ends with the next command. -/
def respond (s : State) (status : Nat) (value : Word) (pend : Bool) : State :=
  { s with dbg := { s.dbg with status := status, value := value, pendBit := pend, stream := [] } }

/-- The 128 bits of DBGRSP: VALUE in [127:64], PEND in bit 8, STATUS in [7:0] (R385, R488). -/
def dbgRsp (d : Dbg) : BitVec 128 := BitVec.ofNat 128 (put d.value.toNat 64 + put (b2n d.pendBit) 8 + d.status % 256)

/-- The debugger captures DBGRSP once more: VALUE is the next 64 bits of the stream of a SCAN (R389). -/
def capture (s : State) : State :=
  match s.dbg.stream.drop 8 with
  | [] => s
  | bs => { s with dbg := { s.dbg with stream := bs, value := bytesWord (bs.take 8) } }

/-- A command that is not done: it has no effect but its STATUS (R488). -/
def dbgRefuse (s : State) (status : Nat) : State := respond s status 0 false

/-- A command is done. -/
def dbgDone (s : State) : State := respond s 0 0 false

/-- Whether a command's OP is the row's and its reserved bits are zero. -/
def dbgClean (c : DbgCmd) (op : Nat) : Bool := c.op == op && c.rsv == 0

/-- Whether a command names an enabled core. -/
def dbgCoreOk (c : DbgCmd) (s : State) : Bool := s.enabled c.pcore

/-! ### Stops (R386 to R388, R392, R488) -/

/-- Ticks by which a STOP precedes its tick (R387). -/
def stopLead (pair : Bool) : Nat := if pair then 4096 else 1024

/-- The peer is to stop at the same tick (R387, R392). -/
def stopPeer (s : State) (t : Nat) : State := if s.tandemUp then { s with peerOut := s.peerOut ++ [.stop t] } else s

/-- A stop is requested for the end of a tick; an earlier one stays (R392, log 40). -/
def requestStop (d : Dbg) (t : Nat) : Dbg :=
  match d.stopReq with
  | some u => if u ≤ t then d else { d with stopReq := some t, byBp := false }
  | none => { d with stopReq := some t, byBp := false }

/-- STOP (R387, R488). -/
def execStop (c : DbgCmd) (s : State) : Host.Outcome State Fault Refusal :=
  agent
    (if !dbgClean c 1 then dbgRefuse s 4
     else if s.tandemUp && !c.pair then dbgRefuse s 3
     else if !s.tandemUp && c.pair then dbgRefuse s 7
     else if c.addr.toNat < s.tick + stopLead c.pair then dbgRefuse s 2
     else
       let s := { s with dbg := requestStop s.dbg c.addr.toNat }
       dbgDone (if c.pair then stopPeer s c.addr.toNat else s))

/-- A stop that the peer asks for (R387, R392). -/
def peerStop (s : State) (t : Nat) : State :=
  if s.tandemUp && decide (s.tick ≤ t) && !s.dbg.stopped then { s with dbg := requestStop s.dbg t } else s

/-- STOP_TICK_REACHED: at the end of the tick every clock domain is gated (R387). -/
def execStopTickReached (s : State) : Host.Outcome State Fault Refusal :=
  agent
    (match s.dbg.stopReq with
      | some t => if t ≤ s.tick then { s with dbg := { s.dbg with stopped := true, stopTick := t, stopReq := none } } else s
      | none => s)

/-- RESUME: the stop ends; a context that stands at a breakpoint goes past it (R388, R392). -/
def execDebugResume (c : DbgCmd) (s : State) : Host.Outcome State Fault Refusal :=
  agent
    (if !dbgClean c 2 then dbgRefuse s 4
     else if s.dbg.stopped then
       dbgDone { s with dbg := { s.dbg with stopped := false, byBp := false, pastBp := s.dbg.atBp, atBp := [] } }
     else dbgDone s)

/-- VALUE of STAT (R386). -/
def statWord (d : Dbg) : Word :=
  BitVec.ofNat 64 (put (b2n d.stopped) 63 + put (b2n (d.stopped && d.byBp)) 62 +
    (if d.stopped && d.byBp then put (d.bpCore % 128) 55 + put (d.bpSlot % 16) 51 else 0) + d.stopTick % 2 ^ 51)

/-- STAT (R386). -/
def execStat (c : DbgCmd) (s : State) : Host.Outcome State Fault Refusal :=
  agent (if !dbgClean c 3 then dbgRefuse s 4 else respond s 0 (statWord s.dbg) false)

/-! ### SCAN (R389) -/

/-- The 448 KiB that SCAN streams: the sections of a context image, and free bytes where an image has none (R341, R389;
log 25). -/
def scanBytes (s : State) (core : Nat) : List Byte :=
  let ss : List Section := imageSections s core ++ [(0x38, natToBytes 8 (completeNat (s.core core) core))]
  (List.range 0x7_0000).map fun i =>
    match ss.find? fun x => decide (x.1 ≤ i) && decide (i < x.1 + x.2.length) with
    | some x => x.2.getD (i - x.1) 0
    | none => Config.freeByte (s.fresh + i)

/-- A command that meets uncorrectable data: a record of TYPE 3 for its unit, and no other effect (R426, R488). -/
def dbgFails (s : State) (unit : Option (Nat × Nat)) (src : Nat) : State :=
  dbgRefuse (match unit with
    | some (c, i) => unitRecord s c i src
    | none => s) 6

/-- SCAN: the first 64 bits of the stream stand in DBGRSP (R389, R426, R488). -/
def execScan (c : DbgCmd) (s : State) : Host.Outcome State Fault Refusal :=
  agent
    (if !dbgClean c 4 || !dbgCoreOk c s then dbgRefuse s 4
     else if !s.dbg.stopped then dbgRefuse s 1
     else match tileUe (s.core c.pcore) c.pcore with
       | some u => dbgFails s (some u) 5
       | none =>
         let bs := scanBytes s c.pcore
         let s := respond { s with fresh := s.fresh + 0x7_0000 } 0 (bytesWord (bs.take 8)) false
         { s with dbg := { s.dbg with stream := bs } })

/-! ### Registers (R170, R390, R488, R489) -/

/-- Registers of a family that a slot has (R31, R385); the latches are 0 A and 1 B (log 40). -/
def famCount (slot fam : Nat) : Nat :=
  let ctl := slot == 15
  if fam = 0 then (if ctl then 48 else 16)
  else if fam = 1 then 8
  else if fam = 2 then (if ctl then 16 else 8)
  else if fam = 3 then 16
  else if fam = 4 then (if ctl then 16 else 0)
  else if fam = 5 then 2
  else 0

/-- Whether a command names a register. -/
def dbgRegOk (c : DbgCmd) (s : State) : Bool :=
  dbgCoreOk c s && (decide (c.slot ≤ 8) || c.slot == 15) && decide (c.num < famCount c.slot c.fam)

/-- Word `w` of a tile's 16 KiB (R390). -/
def tileWord (t : Tile) (w : Nat) : Word := bytesWord (slice (rowBytes (vget t.rows (w / 32) 0)) (w % 32 * 8) 8)

/-- Word `w` of a tile becomes `v`, and fails no more (R390, R455). -/
def tileSetWord (t : Tile) (w : Nat) (v : Word) : Tile :=
  let row := splice (rowBytes (vget t.rows (w / 32) 0)) (w % 32 * 8) (wordBytes 8 v)
  { t with rows := t.rows.setIfInBounds (w / 32) (bytesRow row), bad := t.bad.filter (· != w) }

/-- The word of a tile that a command names (R390). -/
def dbgTileWord (c : DbgCmd) : Nat := wfld c.addr 13 3

/-- A register as RDREG returns it; a dead tile has no value, and its bits are free (R390, log 40). -/
def debugRead (s : State) (c : DbgCmd) : Word :=
  let k := s.core c.pcore
  let x := k.ctx c.slot
  if c.fam = 0 then x.sreg c.num
  else if c.fam = 1 then (vget x.b c.num BTarget.clear).addr
  else if c.fam = 2 then BitVec.ofNat 64 (b2n (vget x.g c.num false))
  else if c.fam = 3 then vget k.m c.num 0
  else if c.fam = 4 then
    match vget k.tiles c.num none with
    | some t => tileWord t (dbgTileWord c)
    | none => bytesWord ((List.range 8).map fun i => Config.freeByte (s.fresh + i))
  else if c.num = 0 then x.la else x.lb

/-- A guard's resolved instance becomes `v`; an unresolved one stays unresolved (R390). -/
def Ctx.debugG (x : Ctx) (n : Nat) (v : Bool) : Ctx := if vget x.gres n true then { x with g := x.g.setIfInBounds n v } else x

/-- The state after WRREG (R170, R390). -/
def debugWrite (s : State) (c : DbgCmd) : State :=
  let k := s.core c.pcore
  let x := k.ctx c.slot
  let put (y : Ctx) : State := s.setCtx c.pcore c.slot y
  if c.fam = 0 then put (x.setS c.num c.value)
  else if c.fam = 1 then put { x with b := x.b.setIfInBounds c.num ⟨c.value, true, c.slot, x.major, x.minor, none⟩ }
  else if c.fam = 2 then put (x.debugG c.num (wbit c.value 0))
  else if c.fam = 3 then s.setCore c.pcore { k with m := k.m.setIfInBounds c.num c.value }
  else if c.fam = 4 then
    match vget k.tiles c.num none with
    | some t => s.setCore c.pcore { k with tiles := k.tiles.setIfInBounds c.num (some (tileSetWord t (dbgTileWord c) c.value)) }
    | none => s
  else put (if c.num = 0 then { x with la := c.value } else { x with lb := c.value })

/-- The rows of the loads that a queue can hold: scalar loads and TLD. -/
def queueRows : List OpRow := rows8 ++ rows9 ++ rows10 ++ rows26

/-- The register, by its family of R385, that a load which a queue can hold writes. -/
def loadDest : Instr → Option (Nat × Nat)
  | .ldl64 _ _ _ d => some (0, d)
  | .ldli32 _ _ _ d => some (0, d)
  | .ldln32 _ _ _ d => some (0, d)
  | .memxLdI8 d _ _ _ _ _ => some (0, d)
  | .memxLdN8 d _ _ _ _ _ => some (0, d)
  | .memxLdI16 d _ _ _ _ _ => some (0, d)
  | .memxLdN16 d _ _ _ _ _ => some (0, d)
  | .memxLdI32 d _ _ _ _ _ => some (0, d)
  | .memxLdN32 d _ _ _ _ _ => some (0, d)
  | .memxLdI64 d _ _ _ _ _ => some (0, d)
  | .tld d _ _ _ _ _ _ _ => some (4, d)
  | _ => none

/-- The first word of the unretired instruction of a context: of a load that waits on a queue, or of an MRECV, a JOIN or a TCWAIT that
waits, or whose wait is over. No other instruction of this model is unretired at a stop (log 4). -/
def openWord (s : State) (core slot : Nat) : Option Nat :=
  let c := s.ctx core slot
  if c.stall.isSome || c.wait != .none then
    match fetchWord s core slot c.pc with
    | .ok ws _ => some (wordsToNat ws)
    | _ => none
  else none

/-- Whether a word is an instruction of a major and a minor in the base form (R172). -/
def isOp (w major minor : Nat) : Bool := fld w 7 2 == major && fld w 31 26 == minor

/-- The register that the unretired instruction of a context writes: a load that waits on a queue, or MRECV. -/
def openDest (s : State) (core slot : Nat) : Option (Nat × Nat) :=
  let c := s.ctx core slot
  match c.stall.isSome, c.wait, openWord s core slot with
  | true, _, some w => match fetchWords s core slot c.pc (lenOf w) with
    | .ok ws _ => match decodeIn queueRows (slot != 15) (wordsToNat ws) with
      | .ok i _ => loadDest i
      | _ => none
    | _ => none
  | false, .mrecv _, some w => if isOp w 0x2D 0 then some (0, fld w 25 20) else none
  | _, _, _ => none

/-- Whether the unretired instruction of a context loads a latch as it retires, 0 A and 1 B: field a of a load, JOIN or TCWAIT, field
b of an extended load, where the field names a register (R79). -/
def openLatch (s : State) (core slot n : Nat) : Bool :=
  let c := s.ctx core slot
  let names (f : Nat) : Bool := f != 0x30 && f != 0x31
  match c.stall.isSome, c.wait, openWord s core slot with
  | true, _, some w => if n = 0 then names (fld w 19 14) else decide (1 < lenOf w) && names (fld w 13 8)
  | false, .tcwait _ _, some w => n == 0 && isOp w 0x2C 0 && names (fld w 19 14)
  | false, .join _, some w => n == 0 && isOp w 0x2D 2 && names (fld w 19 14)
  | false, .joined _, some w => n == 0 && isOp w 0x2D 2 && names (fld w 19 14)
  | _, _, _ => false

/-- PEND: the register has a pending write record, or an older writer that has not retired; a guard, a writer that has not resolved
it; a latch, a reader that has not retired (R79, R488). -/
def debugPend (s : State) (c : DbgCmd) : Bool :=
  let x := s.ctx c.pcore c.slot
  (c.fam == 0 && x.pend.any fun p => !p.isVec && p.reg == c.num) || (c.fam == 2 && !vget x.gres c.num true) ||
    (c.fam == 5 && openLatch s c.pcore c.slot c.num) || openDest s c.pcore c.slot == some (c.fam, c.num)

/-- The unretired instruction of a context is squashed, and executes again: a load leaves the queue it waits on, the value that an MRECV
was given returns to its register, and a wait, or a JOIN whose cell has read zero, begins anew (R83, R337, R489). -/
def squash (s : State) (core slot : Nat) : State :=
  let s := match (s.ctx core slot).stall with
    | some b => fifoLeave s (b / 16) (b % 16) core slot
    | none => s
  let s := giveBack s core slot
  let c := s.ctx core slot
  s.setCtx core slot { c with st := if c.st == .waiting then .live else c.st, wait := .none }

/-- The bank whose failing word of a tile RDREG meets (R454, R488). -/
def debugUe (s : State) (c : DbgCmd) : Option (Nat × Nat) :=
  match vget (s.core c.pcore).tiles c.num none with
  | some t => if c.fam = 4 ∧ t.bad.contains (dbgTileWord c) then some (bankUnit c.pcore (t.phys / 8)) else none
  | none => none

/-- RDREG (R390, R426, R488). -/
def execRdreg (c : DbgCmd) (s : State) : Host.Outcome State Fault Refusal :=
  agent
    (if !dbgClean c 5 || !dbgRegOk c s then dbgRefuse s 4
     else if !s.dbg.stopped then dbgRefuse s 1
     else match debugUe s c with
       | some u => dbgFails s (some u) 5
       | none => respond { s with fresh := s.fresh + 8 } 0 (debugRead s c) (debugPend s c))

/-- WRREG: the context's unretired instruction is squashed (R170, R390, R488, R489). -/
def execWrreg (c : DbgCmd) (s : State) : Host.Outcome State Fault Refusal :=
  agent
    (if !dbgClean c 6 || !dbgRegOk c s then dbgRefuse s 4
     else if !s.dbg.stopped then dbgRefuse s 1
     else respond (debugWrite (squash s c.pcore c.slot) c) 0 0 (debugPend s c))

/-! ### Memory (R169, R391) -/

/-- Where a memory command goes: a physical address as named, or the translation of a virtual one without permission
checks (R391); else the fault of the walk or of an alias block that its descriptor does not hold (R444, R458), with no CODE where
there was none to make: a physical address that R21 leaves unmapped, or that R134 keeps for the controllers, is a failed translation,
STATUS 0x05 (R488; log 40). -/
def debugDest (s : State) (c : DbgCmd) : Except MemFault DbgDest × State :=
  if c.phys then ((match regionOf c.addr.toNat with
    | .hole | .metadata => .error stall
    | _ => .ok (.phys c.addr.toNat)), s)
  else if !canonical c.addr then (.error stall, s)
  else match walk s c.pid (va48 c.addr) with
    | (.error f, s) => (.error f, s)
    | (.ok t, s) => ((match (transHole s t).or (if isAlias t.leaf then aliasCheck s .scalar .load t 8 else none) with
      | some f => .error f
      | none => .ok (if isAlias t.leaf then .view (aliasDesc t.leaf) t.pa else .phys t.pa)), s)

/-- A memory command whose translation failed; a table entry that failed is recorded (R426, R488; log 40). -/
def destFails (s : State) (f : MemFault) : State :=
  dbgRefuse (match f.unit with
    | some (c, i) => unitRecord s c i 1
    | none => s) 5

/-- An 8-byte word as the memory place of its address holds it, through the caches there; nothing on its way is moved (R387,
R391). Behind a link that is down its bits are free (log 40). -/
def debugLoad (s : State) : DbgDest → Res (List Byte)
  | .view d o => aliasRead s d (o / 64) (o % 64) 8
  | .phys pa =>
    match regionOf pa with
    | .device =>
      let (bs, s) := devRead s (pa - devBase) 8
      .ok bs s
    | .tandem => if s.tandemUp then .ok (memRead s.phys pa 8) s else .ok (freeBytes s 8) { s with fresh := s.fresh + 8 }
    | .host => if s.hostDown then .ok (freeBytes s 8) { s with fresh := s.fresh + 8 } else physLoad s pa 8
    | _ => physLoad s pa 8
where
  freeBytes (s : State) (n : Nat) : List Byte := (List.range n).map fun i => Config.freeByte (s.fresh + i)

/-- A write within one line at its memory place, stamped there; the place's copies above it go, and its images leave for the
other places, the host among those that are told to give the line up (R155, R158, R159, R169, R367). Its tick is fixed, so that it
waits for no answer (R169; log 40). It comes through no leaf, so that its C is 0 (R131; log 43). -/
def placeWrite (s : State) (p pa : Nat) (bs : List Byte) : State :=
  let pln := pa / 128
  let s := if p < 2 then asked (hostFree s pln) else s
  let (v, s) := placeView s pln
  let im := imagesIn pln (pa % 128) bs v.data v.good
  let (stamp, s) := stampNext s p
  let s := if p < 2 then dropCodeDie (dropReached s p pln 0 true none) p pln else s
  let s := (im.sectors ++ im.parts).foldl (fun s x => sectorApply s p x.1 x.2 false) s
  originate (if p = memPlace pa then noteSpill s pa bs.length else s) p pln stamp im false true

/-- A place's counter notice of a write whose bytes no other place holds (R158). -/
def placeNotice (s : State) (p : Nat) : State :=
  let (v, s) := stampNext s p
  sendStamped s p 0 v Images.none false false

/-- A debugger's write of the peer's memory, at the peer's place; the peer is sent it (R169, R377). -/
def peerWrite (s : State) (pa : Nat) (bs : List Byte) : State :=
  let (v, s) := stampNext s 3
  sendStamped { s with phys := memWrite s.phys pa bs, peerOut := s.peerOut ++ [.write (pa - tandemBase) bs v] } 3 0 v Images.none
    false false

/-- The debugger's write, applied at the memory place of its target and stamped there (R169, R391); a device register is
written by the host only (R368). -/
def debugStore (s : State) (d : DbgDest) (bs : List Byte) : State :=
  match d with
  | .view k o =>
    if aliasHolds s k (o / 64) then
      placeNotice (aliasWrite (asked (aliasFree s k (o / 64))) k (o / 64) (o % 64) bs false 0 0) (memPlace (aliasElems s k (o / 64)))
    else s
  | .phys pa =>
    match regionOf pa with
    | .hbm => placeWrite s (memPlace pa) pa bs
    | .host => if s.hostDown then s else placeWrite s 2 pa bs
    | .tandem => if s.tandemUp then peerWrite s pa bs else s
    | _ => s

/-- RDMEM (R391, R426, R488). -/
def execRdmem (c : DbgCmd) (s : State) : Host.Outcome State Fault Refusal :=
  agent
    (if !dbgClean c 7 || c.addr.toNat % 8 != 0 then dbgRefuse s 4
     else match debugDest s c with
       | (.error f, s) => destFails s f
       | (.ok d, s) => match debugLoad s d with
         | .ok bs s => respond s 0 (bytesWord bs) false
         | .flt f s => dbgFails s f.unit (f.info / 4096)
         | .wait s => dbgRefuse s 6)

/-- WRMEM: at once during a stop, else at the tick that TICKSET named (R169, R386, R391, R488). -/
def execWrmem (c : DbgCmd) (s : State) : Host.Outcome State Fault Refusal :=
  agent
    (if !dbgClean c 8 || c.addr.toNat % 8 != 0 then dbgRefuse s 4
     else
       let late := match s.dbg.tickSet with
         | some t => decide (t.toNat < s.tick + 1024)
         | none => true
       if !s.dbg.stopped && late then dbgRefuse s 8
       else match debugDest s c with
         | (.error f, s) => destFails s f
         | (.ok d, s) =>
           if s.dbg.stopped then dbgDone (debugStore s d (wordBytes 8 c.value))
           else
             let w := ((s.dbg.tickSet.getD 0).toNat, d, wordBytes 8 c.value)
             dbgDone { s with dbg := { s.dbg with writes := s.dbg.writes ++ [w], tickSet := none } })

/-- DEBUGGER_WRITE_APPLY (R169). -/
def execDebuggerWriteApply (s : State) : Host.Outcome State Fault Refusal :=
  agent
    (match takeFirst (fun (x : Nat × DbgDest × List Byte) => decide (x.1 ≤ s.tick)) s.dbg.writes with
      | some (x, rest) =>
        if s.dbg.stopped then s else debugStore { s with dbg := { s.dbg with writes := rest } } x.2.1 x.2.2
      | none => s)

/-- TICKSET (R386). -/
def execTickset (c : DbgCmd) (s : State) : Host.Outcome State Fault Refusal :=
  agent (if !dbgClean c 9 then dbgRefuse s 4 else dbgDone { s with dbg := { s.dbg with tickSet := some c.value } })

/-! ### Breakpoints (R392) -/

/-- A breakpoint of a core becomes `x`. -/
def setBreak (c : DbgCmd) (op : Nat) (x : Option (Nat × Word)) (s : State) : State :=
  if !dbgClean c op || !dbgCoreOk c s || decide (4 ≤ c.num) then dbgRefuse s 4
  else
    let k := s.core c.pcore
    dbgDone (s.setCore c.pcore { k with bps := k.bps.setIfInBounds c.num x })

/-- SETBP (R392). -/
def execSetbp (c : DbgCmd) (s : State) : Host.Outcome State Fault Refusal :=
  agent (setBreak c 0x0A (some (c.pid, c.addr)) s)

/-- CLRBP (R392). -/
def execClrbp (c : DbgCmd) (s : State) : Host.Outcome State Fault Refusal := agent (setBreak c 0x0B none s)

/-- Order of STAT among contexts that match in one tick: the lower core, then the control context, then the lower slot
(R392). -/
def bpRank (core slot : Nat) : Nat := core * 16 + if slot = 15 then 0 else slot + 1

/-- BREAKPOINT_MATCH: the context retires nothing more, and a stop at the end of tick M + 256 is asked for, of the peer too while
Tandem is up (R392). -/
def execBreakpointMatch (core slot : Nat) (s : State) : Host.Outcome State Fault Refusal :=
  agent
    (if atBreak s core slot && !s.dbg.atBp.contains (core, slot) then
       let d := { s.dbg with atBp := (core, slot) :: s.dbg.atBp }
       let t := s.tick + 256
       let mine := match d.stopReq with
         | none => true
         | some u => decide (t < u) || (d.byBp && u == t && decide (bpRank core slot < bpRank d.bpCore d.bpSlot))
       if mine then
         let s := { s with dbg := { d with stopReq := some t, byBp := true, bpCore := core, bpSlot := slot } }
         if s.peerOut.contains (.stop t) then s else stopPeer s t
       else { s with dbg := d }
     else s)

end Sys2Proof.Machine
end

