-- ==== Sys2Proof/Machine/Keccak.lean ====
section
/-! DEFINITION. SHAKE256, the extendable-output function of FIPS 202 by which the device measures (R361, R380 to R382; log
15): the permutation Keccak-f[1600], and the sponge with a rate of 136 bytes and 64 bytes of output. -/

namespace Sys2Proof.Machine

/-- The 25 lanes of a state, lane x + 5 y. -/
abbrev Lanes := Vector Word 25

/-- Lane (x, y). -/
def lane (a : Lanes) (x y : Nat) : Word := vget a (x % 5 + 5 * (y % 5)) 0

/-- Parity of column x. -/
def column (a : Lanes) (x : Nat) : Word := lane a x 0 ^^^ lane a x 1 ^^^ lane a x 2 ^^^ lane a x 3 ^^^ lane a x 4

/-- Step theta. -/
def keccakTheta (a : Lanes) : Lanes :=
  let c : Vector Word 5 := Vector.ofFn fun x : Fin 5 => column a x.val
  let d : Vector Word 5 := Vector.ofFn fun x : Fin 5 => vget c ((x.val + 4) % 5) 0 ^^^ (vget c ((x.val + 1) % 5) 0).rotateLeft 1
  Vector.ofFn fun i : Fin 25 => a[i] ^^^ vget d (i.val % 5) 0

/-- Steps rho and pi, along the walk on which each lane (x, y) goes to (y, 2 x + 3 y): the lane of step `t` moves there, rotated
by the triangular number (t + 1)(t + 2) / 2. Lane (0, 0) stays. -/
def keccakWalk (a : Lanes) : Nat → Nat → Nat → Nat → Lanes → Lanes
  | 0, _, _, _, out => out
  | n + 1, t, x, y, out =>
    let y' := (2 * x + 3 * y) % 5
    keccakWalk a n (t + 1) y y' (out.setIfInBounds (y + 5 * y') ((lane a x y).rotateLeft ((t + 1) * (t + 2) / 2 % 64)))

/-- Steps rho and pi. -/
def keccakRhoPi (a : Lanes) : Lanes := keccakWalk a 24 0 1 0 a

/-- Step chi. -/
def keccakChi (a : Lanes) : Lanes :=
  Vector.ofFn fun i : Fin 25 =>
    let x := i.val % 5
    let y := i.val / 5
    lane a x y ^^^ (~~~ lane a (x + 1) y &&& lane a (x + 2) y)

/-- One shift of the register of 8 bits, with feedback into bits 0, 4, 5 and 6, whose bit 0 makes the constants of step iota. -/
def iotaShift (r : Nat) : Nat := if r < 128 then 2 * r else (2 * r % 256) ^^^ 0x71

/-- The constant of one round, bits 2 ^ j - 1 from seven shifts of the register, and the register after them. -/
def iotaConst (r : Nat) : Nat × Nat :=
  (List.range 7).foldl (fun (c, r) j => (c + r % 2 * 2 ^ (2 ^ j - 1), iotaShift r)) (0, r)

/-- Rounds to come, with the register of step iota. -/
def keccakRounds : Nat → Nat → Lanes → Lanes
  | 0, _, a => a
  | n + 1, r, a =>
    let b := keccakChi (keccakRhoPi (keccakTheta a))
    keccakRounds n (iotaConst r).2 (b.setIfInBounds 0 (vget b 0 0 ^^^ BitVec.ofNat 64 (iotaConst r).1))

/-- Keccak-f[1600]: 24 rounds. -/
def keccakF (a : Lanes) : Lanes := keccakRounds 24 1 a

/-- A block of 136 bytes is absorbed. -/
def absorbBlock (a : Lanes) (bs : List Byte) : Lanes :=
  keccakF (Vector.ofFn fun i : Fin 25 => a[i] ^^^ if i.val < 17 then bytesWord (slice bs (8 * i.val) 8) else 0)

/-- The message with its suffix 1111 and its padding 10…01, up to a whole number of blocks. -/
def shakePad (bs : List Byte) : List Byte :=
  let n := 135 - bs.length % 136
  bs ++ if n = 0 then [0x9F] else [0x1F] ++ List.replicate (n - 1) 0 ++ [0x80]

/-- Blocks are absorbed, `n` at most. -/
def absorbAll (a : Lanes) : Nat → List Byte → Lanes
  | 0, _ => a
  | _, [] => a
  | n + 1, bs => absorbAll (absorbBlock a (bs.take 136)) n (bs.drop 136)

/-- SHAKE256 with 512 bits of output; byte 0 of the output is bits 7 to 0. -/
@[irreducible] def shake256 (bs : List Byte) : BitVec 512 :=
  let p := shakePad bs
  let a := absorbAll (Vector.replicate 25 0) p.length p
  BitVec.ofNat 512 (bytesToNat ((a.toList.take 8).map (wordBytes 8)).flatten)

end Sys2Proof.Machine
end

