-- ==== Sys2Proof/Machine/PlatformSteps.lean ====
section
/-! DEFINITION. The platform: power-up and bring-up, host writes of device registers, measurement and quotes, power and
thermal limits, error events, and the records of the profiler (R26, R114, R361, R368 to R382, R393 to R399, R419, R424, R428,
R429, R452, R454, R457, R480, R485 to R487). -/

namespace Sys2Proof.Machine

/-! ### Power-up (R113, R114, R372, R380) -/

/-- A disabled core at power-up: its banks are OFF (R29, R114). -/
def Core.disabled : Core := { Core.reset with banks := Vector.replicate 16 (Bank.init 0 0) }

/-- POWER_UP: the device as reset leaves it. Fuses, and the memory of the host and of the peer, are not the device's to
clear (R29, R114). -/
def powerUp (s : State) : State :=
  let on (c : Nat) : Bool := (vget s.coresen (dieOf c) 0).getLsbD (c % 48)
  { State.reset with turns := s.turns, fresh := s.fresh, coresen := s.coresen,
                     phys := s.phys.filter fun x => decide (hostBase ≤ x.1),
                     cores := Vector.ofFn fun c : Fin 96 => if on c.val then Core.reset else Core.disabled }

/-- POWER_UP (R114, R380). -/
def execPowerUp (s : State) : Host.Outcome State Fault Refusal := agent (powerUp s)

/-- An attestation log entry (R380). -/
def logEntry (seq tick kind pid major minor : Nat) (base : Word) (meas : BitVec 512) : List Byte :=
  natToBytes 8 seq ++ natToBytes 8 tick ++ [BitVec.ofNat 8 kind, BitVec.ofNat 8 pid, BitVec.ofNat 8 major, BitVec.ofNat 8 minor] ++
    natToBytes 4 0 ++ wordBytes 8 base ++ natToBytes 64 meas.toNat ++ List.replicate 32 0

/-- Whether a bit of READY has a function (R372). -/
def readyField (bit : Nat) : Bool := decide (bit < 8) || (decide (20 ≤ bit) && decide (bit < 56))

/-- Whether a function may become usable now, by the order of R372 and what R481 and R486 hold down; TANDEM comes up with
its link alone, and TICK, while it is up, once the counter has met the peer's (R383). -/
def mayBeReady (s : State) (bit : Nat) : Bool :=
  readyField bit && bit != 6 && !wbit s.failed bit && !(decide (bit < 3) && s.hostDown) && !s.halted &&
    (bit == 0 || wbit s.ready 0 || s.hostDown) && (bit == 0 || bit == 7 || wbit s.ready 7) &&
    !(bit == 5 && s.tickWait != 0) && (!(decide (20 ≤ bit) && decide (bit < 32)) || wbit s.ready 5) &&
    (!(decide (32 ≤ bit) && decide (bit < 48)) || wbit s.ready (48 + (bit - 32) / 2))

/-- A bit of a word is set. -/
def setBit (w : Word) (bit : Nat) : Word := w ||| BitVec.ofNat 64 (2 ^ bit)

/-- Whether the firmware image passes the ROM's check: its signature verifies under a key whose digest is fused, and its security
version is at least the rollback counter (R380; log 15). -/
@[irreducible] def firmwareGood : Bool :=
  shake256 Config.firmwareKey == Config.fusedKeyDigest &&
    Config.signatureVerifies Config.firmwareKey (shake256 Config.firmwareImage) && decide (Config.rollbackCounter ≤ Config.firmwareVersion)

/-- FUNCTION_READY: a function sets its READY bit, and what waited for it goes on. SEC is set once the firmware passes its
check; its measurement is log entry 0 (R372, R373, R380). -/
def functionReady (s : State) (bit : Nat) : State :=
  if !mayBeReady s bit || wbit s.ready bit then s
  else if bit = 7 then
    if firmwareGood then
      { s with ready := setBit s.ready 7, attest := [logEntry 0 s.tick 0 0 0 0 0 (shake256 Config.firmwareImage)] }
    else { s with failed := setBit s.failed 7 }
  else retryHost { s with ready := setBit s.ready bit }

/-- FUNCTION_READY (R372, R373, R380). -/
def execFunctionReady (bit : Nat) (s : State) : Host.Outcome State Fault Refusal := agent (functionReady s bit)

/-- FUNCTION_FAILED: a function that is not usable yet fails its self-test; requests that wait for it are answered
(R486). -/
def execFunctionFailed (bit : Nat) (s : State) : Host.Outcome State Fault Refusal :=
  agent (if readyField bit && !wbit s.ready bit then retryHost { s with failed := setBit s.failed bit } else s)

/-! ### Measurement and quotes (R361, R380 to R382, R485) -/

/-- MSTART opens a measurement, discarding one that is open (R381, R485). BASE of the entry is the 48 bits that MSTART carries, with
zeros above (R361; log 43). -/
def execMstart (w : Word) (s : State) : Host.Outcome State Fault Refusal :=
  agent { s with meas := some (wfld w 53 48, BitVec.ofNat 64 (wfld w 47 0), []), measErr := s.meas.isSome, measFull := false }

/-- MDATA (R381, R485). -/
def execMdata (bytes : List Byte) (s : State) : Host.Outcome State Fault Refusal :=
  agent
    (match s.meas with
      | some (pid, base, bs) => { s with meas := some (pid, base, bs ++ bytes) }
      | none => { s with measErr := true })

/-- MEND: the measurement of the first bytes is appended to a log that is not full (R361, R381, R485). MAJOR and MINOR are bytes 5 and 6
of what was measured, in a container too (R364, R380; log 43). -/
def execMend (w : Word) (s : State) : Host.Outcome State Fault Refusal :=
  agent
    (match s.meas with
      | some (pid, base, bs) =>
        let s := { s with meas := none }
        if 4096 ≤ s.attest.length then { s with measFull := true }
        else
          let bs := bs.take w.toNat
          let ver (i : Nat) : Nat := (bs.getD i 0).toNat
          { s with attest := s.attest ++ [logEntry s.attest.length s.tick 1 pid (ver 5) (ver 6) base (shake256 bs)] }
      | none => { s with measErr := true })

/-- QNONCE: a quote starts over the log as it stands; one in progress is replaced (R382). -/
def execQnonce (bytes : List Byte) (s : State) : Host.Outcome State Fault Refusal :=
  agent (if bytes.length = 64 then { s with quote := some (bytes, s.attest.length) } else s)

/-- QUOTE_COMPLETE: the digest of nonce and entries is signed, then QSTAT is set (R382). -/
def execQuoteComplete (s : State) : Host.Outcome State Fault Refusal :=
  agent
    (match s.quote with
      | some (nonce, n) =>
        { s with quote := none, signed := some (shake256 (nonce ++ (s.attest.take n).flatten)),
                 qstat := BitVec.ofNat 64 (put 1 63 + n % 2 ^ 32) }
      | none => s)

/-! ### Host writes of registers (R9, R326, R357, R368, R374, R378, R393, R419, R424, R487) -/

/-- STAMPBASE_WRITE (R393). -/
def execStampbaseWrite (core : Nat) (w : Word) (s : State) : Host.Outcome State Fault Refusal :=
  agent (stampConfig s core (w &&& sysMask 0x20 0))

/-- FLTRING_WRITE: COUNT of the ring that it names becomes zero (R424). -/
def execFltringWrite (w : Word) (s : State) : Host.Outcome State Fault Refusal :=
  let v := w &&& 0x80F0_3FFF_FFFF_F000
  agent (devStoreAll { s with fltRing := v } (ringAddr v) 8 (natToBytes 8 0))

/-- POWERCAP_WRITE: a CAP that R487 refuses is discarded (R374, R487). -/
def execPowercapWrite (w : Word) (s : State) : Host.Outcome State Fault Refusal :=
  agent (if capOk (wfld w 15 0) then { s with cap := wfld w 15 0 } else s)

/-- TANDEMCFG_WRITE (R378, R483). -/
def execTandemcfgWrite (w : Word) (s : State) : Host.Outcome State Fault Refusal :=
  let v := w &&& 0xC000_3FFF_FFE0_0000
  agent
    (if !wbit s.tandemCfg 63 then { s with tandemCfg := v, tandemArmed := wbit v 63 }
     else if wbit w 63 then s
     else { (if s.tandemUp then tandemLoss s else s) with tandemCfg := v, tandemArmed := false })

/-- One half of a code version entry is written (R357). -/
def versionWrite (s : State) (o : Nat) (w : Word) : State :=
  let i := (o - 0x1_0000) / 16
  let e := vget s.versions i 0
  let x : BitVec 128 :=
    if o / 8 % 2 = 0 then (e >>> 64) <<< 64 ||| (w &&& 0x0000_FFFF_FFFF_0000).setWidth 128
    else (e.setWidth 64).setWidth 128 ||| ((w &&& 0x8000_FFFF_FFFF_FFFF).setWidth 128 <<< 64)
  { s with versions := s.versions.setIfInBounds i x }

/-- HOST_REGISTER_WRITE: an 8-byte write through BAR0. A register of its own row goes there; a reserved field reads as zero
whatever is written to it; other offsets discard the write. A window or an aperture answers for itself (R9, R368 to R370,
R484). -/
def execHostRegisterWrite (off : Nat) (w : Word) (s : State) : Host.Outcome State Fault Refusal :=
  if 0x10_0000 ≤ off ∧ off < 0x14_0000 ∧ off % 4096 < 0x40 then execLaunch ((off - 0x10_0000) / 4096) (off % 4096) (wordBytes 8 w) s
  else if 0x10_0000 ≤ off ∧ off < 0x14_0000 ∧ off % 4096 < 0x80 then
    execMessagePortWrite ((off - 0x10_0000) / 4096) (off % 4096 - 0x40) (wordBytes 8 w) s
  else if 0x2000_0000 ≤ off ∧ off < 0x4000_0000 then
    execApertureWrite ((off - 0x2000_0000) / 0x80_0000) ((off - 0x2000_0000) % 0x80_0000) (wordBytes 8 w) s
  else if off % 8 ≠ 0 then agent s
  else if off = 0x10 then execPowercapWrite w s
  else if off = 0x18 then execTandemcfgWrite w s
  else if off = 0x30 then execFltringWrite w s
  else if off = 0x100 then execMstart w s
  else if off = 0x108 then execMend w s
  else if 0x1000 ≤ off ∧ off < 0x1200 then
    agent { s with clients := s.clients.setIfInBounds ((off - 0x1000) / 8) (w &&& 0x0000_00FF_0000_00FF) }
  else if 0x1200 ≤ off ∧ off < 0x1400 then
    agent { s with apBase := s.apBase.setIfInBounds ((off - 0x1200) / 8) (w &&& 0x0000_3FFF_FF80_0000) }
  else if off = 0x2000 then agent (ctlRequest s w)
  else if 0x1_0000 ≤ off ∧ off < 0x1_4000 then agent (versionWrite s off w)
  else if 0x1_4000 ≤ off ∧ off < 0x1_4200 then
    agent { s with trapEnt := s.trapEnt.setIfInBounds ((off - 0x1_4000) / 8) (w &&& 0x8000_FFFF_FFFF_FFFF) }
  else agent s

/-! ### Error events (R428, R429, R452, R454, R457, R480) -/

/-- The threshold N and the window W of a class (R428, R480). -/
def errLimit (cls : Nat) (unc : Bool) : Option (Nat × Nat) :=
  if cls = 1 then some (if unc then 2 else 16, 2 ^ 30)
  else if cls = 2 then some (if unc then 2 else 32, 2 ^ 30)
  else if cls = 3 ∨ cls = 4 then some (8, 2 ^ 30)
  else if cls = 5 then some (if unc then 1 else 8, 2 ^ 34)
  else if cls = 6 ∨ cls = 7 ∨ cls = 8 then some (64, 2 ^ 20)
  else if cls = 9 then some (1, 0)
  else none

/-- Sectors of HBM from an address on fail: table entries written there before are good no longer (R426, R454). -/
def failSectors (s : State) (pa n : Nat) : State :=
  { s with hbmBad := pa :: s.hbmBad.filter (· != pa), wordGood := s.wordGood.filter fun a => decide (a < pa) || decide (pa + n ≤ a) }

/-- The failing unit of storage; a tag's unit is the 8 bytes that hold 16 tags (R426, R454, R457). -/
def markBad (s : State) : BadUnit → State
  | .hbm pa =>
    if regionOf pa = .hbm then
      let (t, s) := tagRead s (pa / 128)
      if t = 0 then failSectors s (pa / 32 * 32) 32
      else if t = 1 then s
      else failSectors s (pa / 128 * 128) 128
    else s
  | .tag pa =>
    if regionOf pa = .hbm then
      let l := pa / 128 / 16 * 16
      let ls := (List.range 16).map (l + ·)
      unitRecord { s with tagBad := ls ++ s.tagBad.filter fun x => !ls.contains x } 3
        (2 * 65536 + ctrlOf pa * 256 + (Config.wayOf 2 (pa / 128)).toNat) 2
    else s
  | .l2 die pid va =>
    match (s.l2Of die).find? fun (l : L2Line) => l.pid == pid && l.vln == vlnOf va with
    | some l =>
      if l.dirty.any id then
        let o := va % 128 / 32 * 32
        l2Upd s die l.pln fun x =>
          { x with bad := (List.range 32).map (o + ·) ++ x.bad.filter fun b => decide (b < o) || decide (o + 32 ≤ b) }
      else l2Evict s die l
    | none => s
  | .way pad pid va =>
    s.setPc pad ((s.pc pad).map fun l => if l.pid == pid && l.vln == vlnOf va then { l with bad := true } else l)
  | .pad pad bank off =>
    let (home, b) := bankAt pad bank
    let x := s.bank home b
    let key := padKey home b (off / 8 * 8)
    if x.mode = 1 ∨ (x.mode = 3 ∧ x.count ≠ 0) then { s with padBad := key :: s.padBad.filter (· != key) } else s
  | .tile core n word =>
    let k := s.core core
    match vget k.tiles n none with
    | some t => s.setCore core { k with tiles := k.tiles.setIfInBounds n (some { t with bad := word :: t.bad.filter (· != word) }) }
    | none => s
  | .filter die pa =>
    match l2Phys s die (pa / 128) with
    | some l =>
      let s := unitRecord s 2 (l2Index die (filterSlice l.pln) l.pln) 3
      l2Evict s die l
    | none => s
  | .corrected => s

/-- A record of TYPE 4: a unit is retired, or its retirement is refused (R425, R429). -/
def retireRecord (s : State) (cls idx : Nat) (refused : Bool) : State :=
  faultRecord s 4 (unitWord cls idx) 0 0 0 (BitVec.ofNat 64 (b2n refused))

/-- Every switch on its way to a bank is performed. -/
def switchAll (s : State) (home b : Nat) : Nat → State
  | 0 => s
  | n + 1 => switchAll (switchPoint s home b) home b n

/-- Whether the retirement of a bank is refused: its tiles cannot be copied, fewer than three TILE banks would be left, or
accesses wait on its queue (R117, R118, R429). -/
def retireRefused (s : State) (home b : Nat) : Bool :=
  let k := s.core home
  let x := s.bank home b
  (x.mode == 4 && (decide (tileBanks k < 4) || decide (8 * (tileBanks k - 1) < liveTiles k) || failingTile k b)) ||
    (x.mode == 3 && (!x.waiters.isEmpty || storeWaits s home b))

/-- The launches of KIND 00 that wait at a core which takes no control context any more are discarded (R114, R486). -/
def flushLaunches (s : State) (core : Nat) : State :=
  let k := s.core core
  let gone (l : Launch) : Bool := !l.helper
  let s := s.setCore core { k with launchQ := k.launchQ.filter fun l => !gone l, spLaunch := k.spLaunch.filter fun l => !gone l }
  let s := (k.spLaunch.filter gone).foldl (fun s l => spillGive s l.pid 1) s
  ((k.launchQ ++ k.spLaunch).filter gone).foldl (fun s l => launchFailed s core l) s

/-- A bank is retired as the device's own switch to OFF; a core left with fewer than three banks in service is recorded, its launches are discarded, and recorded is
a failing word that the copies would move (R114, R426, R429). -/
def retireBank (s : State) (idx : Nat) : State :=
  let home := idx / 768 * 48 + idx % 768 / 16
  let b := idx % 16
  let s := switchAll s home b (s.bank home b).switches.length
  if retireRefused s home b then
    let s := if (s.bank home b).mode = 4 ∧ failingTile (s.core home) b then unitRecord s 1 idx 5 else s
    retireRecord s 1 idx true
  else
    let s := switchEffect s home b { core := home, mode := 0, esize := 0, pid := (s.bank home b).pid }
    let s := s.setBank home b { s.bank home b with retired := true, clearing := false }
    let s := retireRecord s 1 idx false
    if banksInService (s.core home) < 3 then flushLaunches (retireRecord s 1 idx true) home else s

/-- The action of a lasting fault (R428, R429, R480, R481). -/
def lastingAction (s : State) (cls idx : Nat) : State :=
  let kept (s : State) : State := { s with retired := (cls, idx) :: s.retired }
  if cls = 1 then retireBank s idx
  else if cls = 2 ∨ cls = 3 ∨ cls = 4 then retireRecord (kept s) cls idx false
  else if cls = 6 then kept s
  else if cls = 7 then
    let s := kept s
    if 3 ≤ lostLanes s 7 ∧ !s.hostDown then hostLinkDown s else s
  else if cls = 8 then
    let s := retireRecord (kept s) 8 idx false
    if 7 ≤ lostLanes s 8 then tandemLinkDown s else s
  else s

/-- ERROR_EVENT: the unit that fails is left failing, the event is counted, and a fault that becomes lasting is recorded and
acted on (R426, R428, R480). -/
def errorEvent (s : State) (e : ErrEvent) : State :=
  let s := { markBad s e.unit with errors := (e.cls, e.index, e.uncorrectable, s.tick) :: s.errors }
  match errLimit e.cls e.uncorrectable with
  | none => s
  | some (n, w) =>
    let same := s.errors.filter fun x =>
      x.1 == e.cls && x.2.1 == e.index && x.2.2.1 == e.uncorrectable && decide (s.tick ≤ x.2.2.2 + w)
    if same.length = n ∧ (e.cls = 6 ∨ e.cls = 7 ∨ !s.retired.contains (e.cls, e.index)) then
      lastingAction (faultRecord s 2 (unitWord e.cls e.index) 0 0 0 0) e.cls e.index
    else s

/-- Whether a CLASS has a unit of an INDEX (R428, R480). -/
def errIndexOk (cls idx : Nat) : Bool :=
  if cls = 1 ∨ cls = 2 then decide (idx < 1536)
  else if cls = 3 then decide (idx / 65536 < 3) && decide (idx / 256 % 256 < if idx / 65536 = 2 then 16 else 96)
  else if cls = 4 then decide (idx / 65536 < 2) && decide (idx / 4096 % 16 < 8)
  else if cls = 5 then decide (idx < 2 ^ 30)
  else if cls = 6 then decide (idx < 512)
  else if cls = 7 then decide (idx < 16)
  else if cls = 8 then decide (idx < 8)
  else cls == 9 && decide (idx < 2)

/-- ERROR_EVENT: of a unit that there is (R428, R429, R454, R480). -/
def execErrorEvent (e : ErrEvent) (s : State) : Host.Outcome State Fault Refusal :=
  agent (if errIndexOk e.cls e.index then errorEvent s e else s)

/-! ### Power and temperature (R26, R374 to R376, R480, R487) -/

/-- A record of a thermal sensor (R480, R487). -/
def thermRecord (s : State) (die : Nat) : State := faultRecord s 2 (unitWord 9 die) 0 0 0 0

/-- The record of power that stays above CAP, which is the module's: the die that it names is free (R487; log 25). -/
def powerRecord (s : State) : State := thermRecord { s with fresh := s.fresh + 1 } (b2n (Config.freeBit s.fresh))

/-- Thermal minimum of STEP (R375, R487). -/
def thermMin (t : Nat) : Nat := if t = 0 then 0 else if t = 1 then 3 else 9

/-- STEP follows p and the thermal state (R375). -/
def stepUpdate (s : State) : State := { s with clkStep := max s.pwrP (thermMin s.therm) }

/-- The end of a power window (R375, R487). -/
def powerWindow (s : State) (watts : Nat) : State :=
  let low := if watts + 25 < s.cap then min (s.pwrLow + 1) 10 else 0
  let high := if s.cap < watts ∧ s.clkStep = 9 then s.pwrHigh + 1 else 0
  let p := if s.cap < watts then min (s.pwrP + 1) 9 else if low = 10 then s.pwrP - 1 else s.pwrP
  let t := { s with pwrP := p, pwrLow := low, pwrHigh := high, pwrTick := s.pwrTick + 1000 }
  stepUpdate (if high = 10 then powerRecord t else t)

/-- POWER_WINDOW: a window ends 1,000 ticks after the one before (R375, R487). -/
def execPowerWindow (watts : Nat) (s : State) : Host.Outcome State Fault Refusal :=
  agent (if s.pwrTick + 1000 ≤ s.tick then powerWindow s watts else s)

/-- The thermal state of a temperature (R375). -/
def thermOf (temp : Nat) : Nat := if temp < 95 then 0 else if temp < 105 then 1 else if temp < 110 then 2 else 3

/-- Lower bound of a thermal state (R375). -/
def thermLow (t : Nat) : Nat := if t = 1 then 95 else if t = 2 then 105 else 110

/-- The thermal state after a sample: up at once, down state by state where the sensor reads 5 degrees less (R375). -/
def thermNext (temp : Nat) : Nat → Nat
  | 0 => thermOf temp
  | t + 1 => if t + 1 ≤ thermOf temp then thermOf temp else if temp + 5 ≤ thermLow (t + 1) then thermNext temp t else t + 1

/-- The writes of the device itself that wait are made at once (log 35). -/
def devForce (s : State) : State :=
  (s.devQ.filter DevOp.isWrite).foldl (fun s d => match d with
    | .write pa bs => physStore s pa bs
    | _ => s) { s with devQ := s.devQ.filter fun d => !d.isWrite }

/-- CRIT_SHUTDOWN: every clock domain is gated, READY keeps CXLIO alone, and the record reaches its ring, for no clock runs that it
could wait in (R487; log 35). -/
def critShutdown (s : State) (die : Nat) : State :=
  { devForce (thermRecord { s with ready := BitVec.allOnes 64 } die) with ready := s.ready &&& 1, halted := true }

/-- A sensor of a die reads 110 degrees or more: an error event of CLASS 9 (R480). -/
def hotDie (s : State) (die temp : Nat) : State :=
  if 110 ≤ temp then errorEvent s { cls := 9, index := die, uncorrectable := false, unit := .corrected } else s

/-- A sample of both dies' sensors: the hottest rules (R375, R480, R487). -/
def thermalSample (s : State) (temp0 temp1 : Nat) : State :=
  let temp := max temp0 temp1
  let s := { s with therm := thermNext temp s.therm, thermTick := s.thermTick + 1000 }
  let s := stepUpdate (hotDie (hotDie s 0 temp0) 1 temp1)
  if 120 ≤ temp ∧ !s.halted then critShutdown s (if temp0 < temp1 then 1 else 0) else s

/-- THERMAL_SAMPLE: the sensors are sampled every 1,000 ticks (R375, R480, R487). -/
def execThermalSample (temps : DieTemps) (s : State) : Host.Outcome State Fault Refusal :=
  agent (if s.thermTick + 1000 ≤ s.tick then thermalSample s temps.die0 temps.die1 else s)

/-! ### The profiler's records (R393 to R399) -/

/-- STAMP_RECORD_WRITE: the oldest record of a core reaches its ring, if it is finished (R396, R397). -/
def execStampRecordWrite (core : Nat) (s : State) : Host.Outcome State Fault Refusal :=
  let k := s.core core
  agent
    (match k.stamps with
      | r :: rest => if r.ready then ringWrite (s.setCore core { k with stamps := rest }) core r else s
      | [] => s)

/-- Whether a core still owes a sample of this tick (R399). -/
def sampleDue (s : State) (core : Nat) : Bool :=
  let k := s.core core
  wbit k.stampBase 61 && s.tick % 2 ^ (10 + wfld k.stampBase 59 56) == 0 && k.sampleAt != some s.tick

/-- A sample of the counters, which start again; WIN may suppress the record (R395, R398, R399). -/
def counterSample (s : State) (core : Nat) : State :=
  let k := s.core core
  let e (i : Nat) : Nat := vget k.ev i 0
  let s := s.setCore core { k with ev := Vector.replicate 6 0, sampleAt := some s.tick }
  if wbit k.stampBase 60 && s.openCount == 0 then s
  else ringAdd s core (recordHead 2 s.tick) (put (e 0) 32 + e 1) (put (e 2) 32 + e 3) (put (e 4) 32 + e 5)

/-- COUNTER_SAMPLE (R399). -/
def execCounterSample (core : Nat) (s : State) : Host.Outcome State Fault Refusal :=
  agent (if sampleDue s core then counterSample s core else s)

/-- A stamp that waits has its T5 once the last byte of its TST is performed (R396). -/
def RingRec.settle (k : Core) (tick : Nat) (r : RingRec) : RingRec :=
  match r with
  | .tile t => .tile (if t.t5.isNone && !t.storing k then { t with t5 := some tick } else t)
  | .words w0 w1 w2 w3 => .words w0 w1 w2 w3

/-- At the end of a tick, stamps whose TST has been performed have their T5, and finished records reach the ring (R396, R397). -/
def endRecords (s : State) (core : Nat) : State :=
  let k := s.core core
  if k.stamps.isEmpty then s
  else flushStamps (s.setCore core { k with stamps := k.stamps.map (RingRec.settle k s.tick) }) core

/-- The samples of the tick that ends are taken, after its markers, and role 0 sends the peer its tick (R383, R398, R399). -/
def samples (s : State) : State :=
  if s.tick % 1024 = 0 then
    sendTick ((List.range 96).foldl (fun s c => if sampleDue s c then counterSample s c else s) s)
  else s

end Sys2Proof.Machine
end

