-- ==== Sys2Proof/Machine/ScalarFp.lean ====
section
/-! DEFINITION. Scalar floating-point instructions: majors 0x09 and 0x0B (R192, R201 to R203). -/

namespace Sys2Proof.Machine

/-! ### Results -/

/-- An FP32 result in bits [31:0], the others zero (R192). -/
def f32Res (v : FVal) : Word := BitVec.ofNat 64 (rneF32 v)

/-- Value of the BF16 operand in bits [15:0] (R192). -/
def b16Of (w : Word) : FVal := fmtB16.decode (wfld w 15 0)

/-- Value of the FP16 operand in bits [15:0] (R192). -/
def h16Of (w : Word) : FVal := fmtH16.decode (wfld w 15 0)

/-- FABS and FNEG: bit 31 cleared or inverted; a NaN becomes the canonical one (R202). -/
def signOp (f : Bool → Bool) (w : Word) : Word :=
  let x := wfld w 31 0
  if (f32 x).isNan then 0x7FC00000
  else BitVec.ofNat 64 (x % 2 ^ 31 + put (b2n (f (x / 2 ^ 31 == 1))) 31)

/-- An FP32 operand as an integer of 64 bits, saturated (R93, R202). -/
def toI64 (r : Rnd) (signed : Bool) (w : Word) : Word := BitVec.ofNat 64 ((f32Of w).toInt r signed 64)

/-! ### Instructions -/

/-- FADD.f32 (R202). -/
def execFaddF32 (d a b : Nat) (s : State) : Host.Outcome State Fault Refusal :=
  binOp (fun x y => f32Res ((f32Of x).add (f32Of y))) .base d a b s

/-- FSUB.f32 (R202). -/
def execFsubF32 (d a b : Nat) (s : State) : Host.Outcome State Fault Refusal :=
  binOp (fun x y => f32Res ((f32Of x).add (f32Of y).neg)) .base d a b s

/-- FMUL.f32 (R202). -/
def execFmulF32 (d a b : Nat) (s : State) : Host.Outcome State Fault Refusal :=
  binOp (fun x y => f32Res ((f32Of x).mul (f32Of y))) .base d a b s

/-- FMA.f32: one rounding; d is read as the addend (R193, R201, R202). -/
def execFmaF32 (d a b : Nat) (s : State) : Host.Outcome State Fault Refusal :=
  triOp (fun x y z => f32Res (((f32Of x).mul (f32Of y)).add (f32Of z))) d a b s

/-- FMIN.f32 (R202). -/
def execFminF32 (d a b : Nat) (s : State) : Host.Outcome State Fault Refusal :=
  binOp (fun x y => f32Res ((f32Of x).min (f32Of y))) .base d a b s

/-- FMAX.f32 (R202). -/
def execFmaxF32 (d a b : Nat) (s : State) : Host.Outcome State Fault Refusal :=
  binOp (fun x y => f32Res ((f32Of x).max (f32Of y))) .base d a b s

/-- FABS.f32 (R202). -/
def execFabsF32 (d a : Nat) (s : State) : Host.Outcome State Fault Refusal :=
  unOp (signOp fun _ => false) 1 d a s

/-- FNEG.f32 (R202). -/
def execFnegF32 (d a : Nat) (s : State) : Host.Outcome State Fault Refusal :=
  unOp (signOp fun n => !n) 1 d a s

/-- FCVT.f32.i64 (R202). -/
def execFcvtF32I64 (d a : Nat) (s : State) : Host.Outcome State Fault Refusal :=
  unOp (fun x => f32Res (.ofIntExact x.toInt)) 1 d a s

/-- FCVT.f32.n64 (R202). -/
def execFcvtF32N64 (d a : Nat) (s : State) : Host.Outcome State Fault Refusal :=
  unOp (fun x => f32Res (.ofIntExact x.toNat)) 1 d a s

/-- FCVT.i64.f32 (R93, R202). -/
def execFcvtI64F32 (d a : Nat) (s : State) : Host.Outcome State Fault Refusal :=
  unOp (toI64 .rne true) 1 d a s

/-- FCVT.n64.f32 (R93, R202). -/
def execFcvtN64F32 (d a : Nat) (s : State) : Host.Outcome State Fault Refusal :=
  unOp (toI64 .rne false) 1 d a s

/-- FCVTZ.i64.f32 (R93, R202). -/
def execFcvtzI64F32 (d a : Nat) (s : State) : Host.Outcome State Fault Refusal :=
  unOp (toI64 .rtz true) 1 d a s

/-- FCVTZ.n64.f32 (R93, R202). -/
def execFcvtzN64F32 (d a : Nat) (s : State) : Host.Outcome State Fault Refusal :=
  unOp (toI64 .rtz false) 1 d a s

/-- FCVT.b16.f32 (R202). -/
def execFcvtB16F32 (d a : Nat) (s : State) : Host.Outcome State Fault Refusal :=
  unOp (fun x => BitVec.ofNat 64 (fmtB16.round .rne (f32Of x))) 1 d a s

/-- FCVT.f32.b16 (R202). -/
def execFcvtF32B16 (d a : Nat) (s : State) : Host.Outcome State Fault Refusal :=
  unOp (fun x => f32Res (b16Of x)) 1 d a s

/-- FCVT.h16.f32 (R202). -/
def execFcvtH16F32 (d a : Nat) (s : State) : Host.Outcome State Fault Refusal :=
  unOp (fun x => BitVec.ofNat 64 (fmtH16.round .rne (f32Of x))) 1 d a s

/-- FCVT.f32.h16 (R202). -/
def execFcvtF32H16 (d a : Nat) (s : State) : Host.Outcome State Fault Refusal :=
  unOp (fun x => f32Res (h16Of x)) 1 d a s

/-- FDIV.f32 (R203). -/
def execFdivF32 (ahead d a b : Nat) (s : State) : Host.Outcome State Fault Refusal :=
  longOp (fun x y => f32Res ((f32Of x).div (f32Of y))) ahead d a b s

/-- FSQRT.f32 (R203). -/
def execFsqrtF32 (ahead d a : Nat) (s : State) : Host.Outcome State Fault Refusal :=
  issue s .base 1 fun s =>
    let c := s.cur
    .ok (s.setCur ((c.latched (some a) none).place ahead d (f32Res (f32Of (c.src a)).sqrt)))

end Sys2Proof.Machine
end

