-- ==== Sys2Proof/Machine/ScalarInt.lean ====
section
/-! DEFINITION. Scalar integer instructions: majors 0x01 to 0x08 and 0x0A (R195 to R200). -/

namespace Sys2Proof.Machine

/-! ### Results -/

/-- A shift or rotate amount: b[5:0] (R195). -/
def amount (b : Word) : Nat := wfld b 5 0

/-- Bits [127:64] of a signed product (R195). -/
def mulhS (a b : Word) : Word := BitVec.ofInt 64 (a.toInt * b.toInt / 2 ^ 64)

/-- Bits [127:64] of an unsigned product (R195). -/
def mulhU (a b : Word) : Word := BitVec.ofNat 64 (a.toNat * b.toNat / 2 ^ 64)

/-- The carry-less product of a and b, 128 bits (R197). -/
def clmulFull (a b : Word) : BitVec 128 :=
  (List.range 64).foldl (fun p j => if b.getLsbD j then p ^^^ ((a.setWidth 128) <<< j) else p) 0

/-- The number of 1 bits (R195). -/
def popc (a : Word) : Word := BitVec.ofNat 64 ((List.range 64).filter a.getLsbD).length

/-- The number of 0 bits above the highest 1 bit; 64 for zero (R195). -/
def clz (a : Word) : Word := BitVec.ofNat 64 (if a = 0 then 64 else 63 - Nat.log2 a.toNat)

/-- The number of 0 bits below the lowest 1 bit; 64 for zero (R195). -/
def ctz (a : Word) : Word := BitVec.ofNat 64 (((List.range 64).find? a.getLsbD).getD 64)

/-- The bytes of a word in reverse order (R195). -/
def bswap (a : Word) : Word := bytesWord (wordBytes 8 a).reverse

/-- pos of a field descriptor (R196). -/
def fieldPos (b : Word) : Nat := wfld b 5 0

/-- w of a field descriptor (R196). -/
def fieldLen (b : Word) : Nat := min (wfld b 14 8) 64

/-- The field f of R196. -/
def fieldOf (a b : Word) : Nat := a.toNat / 2 ^ fieldPos b % 2 ^ fieldLen b

/-- EXT.i64: the field, its sign bit w - 1 (R196). -/
def extS (a b : Word) : Word := BitVec.ofInt 64 (if fieldLen b = 0 then 0 else intOf true (fieldLen b) (fieldOf a b))

/-- EXT.n64 (R196). -/
def extU (a b : Word) : Word := BitVec.ofNat 64 (fieldOf a b)

/-- INS.n64 (R196). -/
def insU (a b d : Word) : Word :=
  let pos := fieldPos b
  let top := min (pos + fieldLen b) 64
  let keep := d &&& ~~~BitVec.ofNat 64 ((2 ^ top - 1) - (2 ^ pos - 1))
  keep ||| BitVec.ofNat 64 (a.toNat * 2 ^ pos % 2 ^ top)

/-- Signed quotient, toward zero; all ones for a zero divisor (R200). -/
def divS (a b : Word) : Word := if b = 0 then BitVec.allOnes 64 else BitVec.ofInt 64 (a.toInt.tdiv b.toInt)

/-- Unsigned quotient (R200). -/
def divU (a b : Word) : Word := if b = 0 then BitVec.allOnes 64 else BitVec.ofNat 64 (a.toNat / b.toNat)

/-- Signed remainder, of the sign of a; a for a zero divisor (R200). -/
def remS (a b : Word) : Word := if b = 0 then a else BitVec.ofInt 64 (a.toInt.tmod b.toInt)

/-- Unsigned remainder (R200). -/
def remU (a b : Word) : Word := if b = 0 then a else BitVec.ofNat 64 (a.toNat % b.toNat)

/-! ### Instructions -/

/-- ADD (R195). -/
def execAdd (d a b : Nat) (s : State) : Host.Outcome State Fault Refusal :=
  binOp (fun x y => x + y) .base d a b s

/-- SUB (R195). -/
def execSub (d a b : Nat) (s : State) : Host.Outcome State Fault Refusal :=
  binOp (fun x y => x - y) .base d a b s

/-- AND (R195). -/
def execAnd (d a b : Nat) (s : State) : Host.Outcome State Fault Refusal :=
  binOp (fun x y => x &&& y) .base d a b s

/-- OR (R195). -/
def execOr (d a b : Nat) (s : State) : Host.Outcome State Fault Refusal :=
  binOp (fun x y => x ||| y) .base d a b s

/-- XOR (R195). -/
def execXor (d a b : Nat) (s : State) : Host.Outcome State Fault Refusal :=
  binOp (fun x y => x ^^^ y) .base d a b s

/-- ANDN (R195). -/
def execAndn (d a b : Nat) (s : State) : Host.Outcome State Fault Refusal :=
  binOp (fun x y => x &&& ~~~y) .base d a b s

/-- SLL (R195). -/
def execSll (d a b : Nat) (s : State) : Host.Outcome State Fault Refusal :=
  binOp (fun x y => x <<< amount y) .base d a b s

/-- SRL (R195). -/
def execSrl (d a b : Nat) (s : State) : Host.Outcome State Fault Refusal :=
  binOp (fun x y => x >>> amount y) .base d a b s

/-- SRA (R195). -/
def execSra (d a b : Nat) (s : State) : Host.Outcome State Fault Refusal :=
  binOp (fun x y => x.sshiftRight (amount y)) .base d a b s

/-- ROR (R195). -/
def execRor (d a b : Nat) (s : State) : Host.Outcome State Fault Refusal :=
  binOp (fun x y => x.rotateRight (amount y)) .base d a b s

/-- MUL (R195). -/
def execMul (d a b : Nat) (s : State) : Host.Outcome State Fault Refusal :=
  binOp (fun x y => x * y) .base d a b s

/-- MULH.i64 (R195). -/
def execMulhI64 (d a b : Nat) (s : State) : Host.Outcome State Fault Refusal :=
  binOp (mulhS) .base d a b s

/-- MULH.n64 (R195). -/
def execMulhN64 (d a b : Nat) (s : State) : Host.Outcome State Fault Refusal :=
  binOp (mulhU) .base d a b s

/-- MIN.i64 (R195). -/
def execMinI64 (d a b : Nat) (s : State) : Host.Outcome State Fault Refusal :=
  binOp (fun x y => if y.slt x then y else x) .base d a b s

/-- MIN.n64 (R195). -/
def execMinN64 (d a b : Nat) (s : State) : Host.Outcome State Fault Refusal :=
  binOp (fun x y => if y.ult x then y else x) .base d a b s

/-- MAX.i64 (R195). -/
def execMaxI64 (d a b : Nat) (s : State) : Host.Outcome State Fault Refusal :=
  binOp (fun x y => if x.slt y then y else x) .base d a b s

/-- MAX.n64 (R195). -/
def execMaxN64 (d a b : Nat) (s : State) : Host.Outcome State Fault Refusal :=
  binOp (fun x y => if x.ult y then y else x) .base d a b s

/-- CLMUL.n64, from Maelzeg 3.1 on (R185, R197). -/
def execClmulN64 (d a b : Nat) (s : State) : Host.Outcome State Fault Refusal :=
  binOp (fun x y => (clmulFull x y).setWidth 64) (.since3 1) d a b s

/-- CLMULH.n64, from Maelzeg 3.1 on (R185, R197). -/
def execClmulhN64 (d a b : Nat) (s : State) : Host.Outcome State Fault Refusal :=
  binOp (fun x y => (clmulFull x y >>> 64).setWidth 64) (.since3 1) d a b s

/-- POPC.n64 (R195). -/
def execPopcN64 (d a : Nat) (s : State) : Host.Outcome State Fault Refusal :=
  unOp (popc) 1 d a s

/-- CLZ.n64 (R195). -/
def execClzN64 (d a : Nat) (s : State) : Host.Outcome State Fault Refusal :=
  unOp (clz) 1 d a s

/-- CTZ.n64 (R195). -/
def execCtzN64 (d a : Nat) (s : State) : Host.Outcome State Fault Refusal :=
  unOp (ctz) 1 d a s

/-- BSWAP.n64 (R195). -/
def execBswapN64 (d a : Nat) (s : State) : Host.Outcome State Fault Refusal :=
  unOp (bswap) 1 d a s

/-- EXT.i64 (R196). -/
def execExtI64 (d a b : Nat) (s : State) : Host.Outcome State Fault Refusal :=
  binOp (extS) .base d a b s

/-- EXT.n64 (R196). -/
def execExtN64 (d a b : Nat) (s : State) : Host.Outcome State Fault Refusal :=
  binOp (extU) .base d a b s

/-- INS.n64 (R193, R196). -/
def execInsN64 (d a b : Nat) (s : State) : Host.Outcome State Fault Refusal :=
  triOp insU d a b s

/-- SXT.i8 (R195). -/
def execSxtI8 (d a : Nat) (s : State) : Host.Outcome State Fault Refusal :=
  unOp (sextW 8) 1 d a s

/-- SXT.i16 (R195). -/
def execSxtI16 (d a : Nat) (s : State) : Host.Outcome State Fault Refusal :=
  unOp (sextW 16) 1 d a s

/-- SXT.i32 (R195). -/
def execSxtI32 (d a : Nat) (s : State) : Host.Outcome State Fault Refusal :=
  unOp (sextW 32) 1 d a s

/-- ZXT.n8 (R195). -/
def execZxtN8 (d a : Nat) (s : State) : Host.Outcome State Fault Refusal :=
  unOp (zextW 8) 1 d a s

/-- ZXT.n16 (R195). -/
def execZxtN16 (d a : Nat) (s : State) : Host.Outcome State Fault Refusal :=
  unOp (zextW 16) 1 d a s

/-- ZXT.n32 (R195). -/
def execZxtN32 (d a : Nat) (s : State) : Host.Outcome State Fault Refusal :=
  unOp (zextW 32) 1 d a s

/-- ADDI.i64 with a 12-bit immediate (R198). -/
def execAddi (imm : BitVec 12) (a d : Nat) (s : State) : Host.Outcome State Fault Refusal :=
  unOp (fun x => x + immI imm) 1 d a s

/-- ADDI.i64 with a 32-bit literal (R198). -/
def execAddiLit32 (lit : BitVec 32) (a d : Nat) (s : State) : Host.Outcome State Fault Refusal :=
  unOp (fun x => x + immL lit) 2 d a s

/-- ADDI.i64 with a 64-bit literal (R198). -/
def execAddiLit64 (lit : BitVec 64) (a d : Nat) (s : State) : Host.Outcome State Fault Refusal :=
  unOp (fun x => x + lit) 3 d a s

/-- ANDI.i64 with a 12-bit immediate (R198). -/
def execAndi (imm : BitVec 12) (a d : Nat) (s : State) : Host.Outcome State Fault Refusal :=
  unOp (fun x => x &&& immI imm) 1 d a s

/-- ANDI.i64 with a 32-bit literal (R198). -/
def execAndiLit32 (lit : BitVec 32) (a d : Nat) (s : State) : Host.Outcome State Fault Refusal :=
  unOp (fun x => x &&& immL lit) 2 d a s

/-- ANDI.i64 with a 64-bit literal (R198). -/
def execAndiLit64 (lit : BitVec 64) (a d : Nat) (s : State) : Host.Outcome State Fault Refusal :=
  unOp (fun x => x &&& lit) 3 d a s

/-- ORI.i64 with a 12-bit immediate (R198). -/
def execOri (imm : BitVec 12) (a d : Nat) (s : State) : Host.Outcome State Fault Refusal :=
  unOp (fun x => x ||| immI imm) 1 d a s

/-- ORI.i64 with a 32-bit literal (R198). -/
def execOriLit32 (lit : BitVec 32) (a d : Nat) (s : State) : Host.Outcome State Fault Refusal :=
  unOp (fun x => x ||| immL lit) 2 d a s

/-- ORI.i64 with a 64-bit literal (R198). -/
def execOriLit64 (lit : BitVec 64) (a d : Nat) (s : State) : Host.Outcome State Fault Refusal :=
  unOp (fun x => x ||| lit) 3 d a s

/-- XORI.i64 with a 12-bit immediate (R198). -/
def execXori (imm : BitVec 12) (a d : Nat) (s : State) : Host.Outcome State Fault Refusal :=
  unOp (fun x => x ^^^ immI imm) 1 d a s

/-- XORI.i64 with a 32-bit literal (R198). -/
def execXoriLit32 (lit : BitVec 32) (a d : Nat) (s : State) : Host.Outcome State Fault Refusal :=
  unOp (fun x => x ^^^ immL lit) 2 d a s

/-- XORI.i64 with a 64-bit literal (R198). -/
def execXoriLit64 (lit : BitVec 64) (a d : Nat) (s : State) : Host.Outcome State Fault Refusal :=
  unOp (fun x => x ^^^ lit) 3 d a s

/-- SLLI.i64 (R198). -/
def execSlli (n a d : Nat) (s : State) : Host.Outcome State Fault Refusal :=
  unOp (fun x => x <<< n) 1 d a s

/-- SRLI.i64 (R198). -/
def execSrli (n a d : Nat) (s : State) : Host.Outcome State Fault Refusal :=
  unOp (fun x => x >>> n) 1 d a s

/-- SRAI.i64 (R198). -/
def execSrai (n a d : Nat) (s : State) : Host.Outcome State Fault Refusal :=
  unOp (fun x => x.sshiftRight n) 1 d a s

/-- RORI.i64 (R198). -/
def execRori (n a d : Nat) (s : State) : Host.Outcome State Fault Refusal :=
  unOp (fun x => x.rotateRight n) 1 d a s

/-- LUI (R175, R199). -/
def execLui (imm : BitVec 20) (d : Nat) (s : State) : Host.Outcome State Fault Refusal :=
  nulOp (fun _ => immU imm) d s

/-- AUIPC (R175, R199). -/
def execAuipc (imm : BitVec 20) (d : Nat) (s : State) : Host.Outcome State Fault Refusal :=
  nulOp (fun c => c.pc + immU imm) d s

/-- DIV.i64 (R200). -/
def execDivI64 (ahead d a b : Nat) (s : State) : Host.Outcome State Fault Refusal :=
  longOp divS ahead d a b s

/-- DIV.n64 (R200). -/
def execDivN64 (ahead d a b : Nat) (s : State) : Host.Outcome State Fault Refusal :=
  longOp divU ahead d a b s

/-- REM.i64 (R200). -/
def execRemI64 (ahead d a b : Nat) (s : State) : Host.Outcome State Fault Refusal :=
  longOp remS ahead d a b s

/-- REM.n64 (R200). -/
def execRemN64 (ahead d a b : Nat) (s : State) : Host.Outcome State Fault Refusal :=
  longOp remU ahead d a b s

end Sys2Proof.Machine
end

