-- ==== Sys2Proof/Machine/TileMem.lean ====
section
/-! DEFINITION. Moving tiles: TLD and TST, and the tile copies without memory: majors 0x24 and 0x25 (R120, R259, R263 to
R266, R436, R439). -/

namespace Sys2Proof.Machine

/-- The window register of TLD and TST (R263). -/
structure Window where
  stride : Nat
  row0 : Nat
  nrow : Nat
  deriving DecidableEq, Repr

/-- The window that field B names; s0 names the dense whole tile (R263). -/
def windowOf (c : Ctx) (b : Nat) : Window :=
  if b = 0 then ⟨256, 0, 64⟩
  else
    let w := c.src b
    ⟨if wfld w 31 0 = 0 then 256 else wfld w 31 0, wfld w 37 32, wfld w 45 40 + 1⟩

/-- Whether row `r` lies in the window. -/
def Window.has (w : Window) (r : Nat) : Bool := decide (w.row0 ≤ r) && decide (r < w.row0 + w.nrow)

/-- Whether the window is the whole tile (R265). -/
def Window.full (w : Window) : Bool := w.row0 == 0 && w.nrow == 64

/-- The address of row `r` (R264). -/
def rowAddr (ea : Word) (w : Window) (r : Nat) : Word := ea + BitVec.ofNat 64 (r * w.stride)

/-- The rows of the window, in order. -/
def Window.list (w : Window) : List Nat := (List.range w.nrow).map (w.row0 + ·)

/-- The first addresses of the pieces of 256 bytes at an address. -/
def piecesAt (space csel : Nat) : Nat → Nat → Word → List Word
  | 0, _, _ => []
  | _, 0, _ => []
  | k + 1, n, a =>
    let m := min n (pieceLen space csel a.toNat)
    a :: piecesAt space csel k (n - m) (a + BitVec.ofNat 64 m)

/-- The bank of a pad address is in FIFO mode. -/
def atFifo (s : State) (space csel : Nat) (a : Word) : Bool :=
  decide (space < 2) && spaceOk space a &&
    (s.bank (keyHome (padOfAddr s.curCore space csel a)) (keyBank (padOfAddr s.curCore space csel a))).mode == 3

/-- Step 6 of R431 for a tile access: ea and STRIDE, then every row in order, by its pieces. A FIFO bank takes only the
whole window, at the first address (R265, R436). -/
def tileCheck (space csel acc : Nat) (ea : Word) (w : Window) (s : State) : Option Trap :=
  if ea.toNat % 8 ≠ 0 ∨ w.stride % 8 ≠ 0 then some (alignTrap 3 acc (rowAddr ea w w.row0))
  else if atFifo s space csel (rowAddr ea w w.row0) then
    check6 s s.who (.tile w.full) space csel (rowAddr ea w w.row0) 16384 3 acc
  else
    w.list.findSome? fun r => (piecesAt space csel 40 256 (rowAddr ea w r)).findSome? fun a =>
      check6 s s.who (.tile false) space csel a 256 3 acc

/-- Rows of 256 bytes are read in order (R264). -/
def loadRows (space csel : Nat) : List Word → List (List Byte) → State → (List (List Byte) → State → Out) → Out
  | [], rs, s, f => f rs.reverse s
  | a :: as, rs, s, f =>
    (loadRange s s.who (.tile false) space csel a 40 256).run 1 a fun bs s => loadRows space csel as (bs :: rs) s f

/-- The rows of `n` × 256 bytes. -/
def cutRows : Nat → List Byte → List (List Byte)
  | 0, _ => []
  | n + 1, bs => bs.take 256 :: cutRows n (bs.drop 256)

/-- Before a block of an alias page is read, every later block is checked: the fault of the first piece that cannot be read, from
the first alias piece on (R458). -/
def checkBlocks : List Word → Bool → State → Option Trap × State
  | [], _, s => (none, s)
  | a :: as, seen, s =>
    match resolve s s.who (.tile false) .load (va48 a) (pieceLen 2 0 a.toNat) with
    | (.ok t, s) => checkBlocks as (seen || isAlias t.leaf) s
    | (.error e, s) =>
      let here := match (translateAny s (dieOf s.curCore) s.me.pid (va48 a)).1 with
        | .ok t => isAlias t.leaf
        | .error _ => false
      (if seen || here then some (e.trap 1 a) else none, s)

/-- The bytes of the window's rows, in order: from memory, or from a queue; under INTERLEAVED too, all 256 entries are those of the
bank of the first word (R120, R264; log 43). -/
def readWindow (s : State) (space csel : Nat) (ea : Word) (w : Window) (f : List (List Byte) → State → Out) : Out :=
  let a := rowAddr ea w w.row0
  if atFifo s space csel a then
    (loadPiece s s.who (.tile true) space csel a 16384).run 1 a fun bs s => f (cutRows 64 bs) s
  else
    let as := w.list.map (rowAddr ea w)
    match (if space = 2 then checkBlocks (as.flatMap fun a => piecesAt space csel 40 256 a) false s else (none, s)) with
    | (some t, s) => .trap t s
    | (none, s) => loadRows space csel as [] s f

/-- The pieces of the stores of rows, every one checked before any leaves (R264, R446). -/
def storeRows (space csel : Nat) : List (Word × List Byte) → List Piece → State → (List Piece → State → Out) → Out
  | [], ps, s, f => f ps.reverse s
  | (a, bs) :: rs, ps, s, f =>
    match storePieces s s.who (.tile false) space csel a 40 0 bs with
    | (.error e, s) => .trap (e.trap 2 a) s
    | (.ok p, s) => storeRows space csel rs (p.reverse ++ ps) s f

/-- The window's rows are stored in order, each alias block that they touch packed again once, or the whole tile is appended to a
queue, that of the first word's bank under INTERLEAVED too (R108, R120, R264, R265; log 43). -/
def writeWindow (s : State) (space csel : Nat) (ea : Word) (w : Window) (rows : Vector Row 64) (f : State → Out) : Out :=
  let a := rowAddr ea w w.row0
  let send (ps : List Piece) (s : State) : Out :=
    (sendPieces s s.who (s.ctxid s.curCore s.curSlot) s.cur.pc space ps).run 2 a fun _ s => f s
  if atFifo s space csel a then
    match storePlace s s.who (.tile true) space csel a 16384 with
    | (.error e, s) => .trap (e.trap 2 a) s
    | (.ok d, s) => send [{ form := .tile true, addr := a, bytes := (rows.toList.map rowBytes).flatten, dest := d, also := [] }] s
  else
    storeRows space csel (w.list.map fun r => (rowAddr ea w r, rowBytes (rows[r]?.getD 0))) [] s fun ps s => send (mergeBlocks ps) s

/-- ROW0 + NROW is at most 64 (R263, R439). -/
def windowTrap (b : Nat) (s : State) : Option Trap :=
  let w := windowOf s.cur b
  trapIf (decide (64 < w.row0 + w.nrow)) (regTrap 8)

/-- Before a tile access, the core's own switches of the banks its rows begin in are performed (R116). -/
def settleRows (s : State) (space csel : Nat) (ea : Word) (w : Window) : State :=
  w.list.foldl (fun s r => (piecesAt space csel 40 256 (rowAddr ea w r)).foldl
    (fun s a => settleFor s s.who space csel a) s) s

/-- Whether a word of a tile lies in the window. -/
def Window.word (w : Window) (i : Nat) : Bool := w.has (i / 32)

/-- TLD; its data come from memory once older stores are performed, never straight from a TST (R73, R263 to R265; log 43). -/
def execTld (d a b tag pcnt : Nat) (sgn : Bool) (m : Addr) (x : Ext) (s : State) : Host.Outcome State Fault Refusal :=
  let w := windowOf s.cur b
  let ea := s.cur.src a + offValue m.off
  issueT s ⟨0x24, 0, fun c => c.wroteS a ++ c.wroteS b, true⟩ (offWords m.off) x (if w.full then [] else oldSrc s d fun i => !w.word i)
    (settleRows · m.space m.csel ea w) (windowTrap b)
    (tileCheck m.space m.csel 1 ea w) 1 0 fun s =>
    if (freePhys s.me).isNone then renameStops s
    else ordered s x false fun s => readWindow s m.space m.csel ea w fun rs s =>
      let old := s.rows d
      let rows := Vector.ofFn fun (r : Fin 64) =>
        if w.has r then bytesRow (rs.getD (r - w.row0) []) else old[r]
      match putTile s d (tagOf tag pcnt sgn) rows (some (s.tick, s.inWindow)) with
      | .ok s => .ok (s.setCur (s.cur.latched (some a) (some b)))
      | o => o

/-- TST (R263 to R265). -/
def execTst (d a b : Nat) (m : Addr) (x : Ext) (s : State) : Host.Outcome State Fault Refusal :=
  let w := windowOf s.cur b
  let ea := s.cur.src a + offValue m.off
  issueT s ⟨0x24, 1, fun c => c.wroteS a ++ c.wroteS b, false⟩ (offWords m.off) x [⟨2, d, fun _ => true, w.word⟩] (settleRows · m.space m.csel ea w) (windowTrap b)
    (tileCheck m.space m.csel 2 ea w) 1 0 fun s =>
    ordered s x (x.ord == 2) fun s => writeWindow s m.space m.csel ea w (s.rows d) fun s =>
      .ok (s.setCur (s.cur.latched (some a) (some b)))

/-- TZERO (R266). -/
def execTzero (d tag pcnt : Nat) (sgn : Bool) (x : Ext) (s : State) : Host.Outcome State Fault Refusal :=
  tileOp (.of 0x25 0) x [] 1 0 (fun s => putTile s d (tagOf tag pcnt sgn) (Vector.replicate 64 0) none) s

/-- TMOV (R266). -/
def execTmov (d a : Nat) (x : Ext) (s : State) : Host.Outcome State Fault Refusal :=
  tileOp (.of 0x25 1) x [TSrc.whole 0 a fun _ => true] 1 0 (fun s => putTile s d (s.tag a) (s.rows a) none) s

/-- TREL (R63, R266). -/
def execTrel (d : Nat) (x : Ext) (s : State) : Host.Outcome State Fault Refusal :=
  tileOp (.of 0x25 2) x [] 1 0 (fun s => .ok (s.setMe { s.me with tiles := s.me.tiles.setIfInBounds d none })) s

end Sys2Proof.Machine
end

