-- ==== Sys2Proof/Machine/VecInt.lean ====
section
/-! DEFINITION. Run-vector integer arithmetic and compares: majors 0x1E and 0x1F (R229, R237, R238). -/

namespace Sys2Proof.Machine

/-- Element width of a width code (R183). -/
def vwidth (w : Nat) : Nat := 8 * 2 ^ w

/-- An integer operation on the low bits of two vectors (R229, R237). -/
def vint (f : Nat → Nat → Nat → Nat) (w d a b : Nat) (p : Pfx) (s : State) : Host.Outcome State Fault Refusal :=
  let n := vwidth w
  vecOp (fun c => pairRuns c a b) (fun x => f n (x.1 % 2 ^ n) (x.2 % 2 ^ n) % 2 ^ n) .base d a p s

/-- A compare of the low bits of two vectors (R229, R238). -/
def vcmp (cond w d a b : Nat) (p : Pfx) (s : State) : Host.Outcome State Fault Refusal :=
  maskOp (fun c => runsLen (c.vruns a)) (fun c => pairRuns c a b)
    (fun x => condHolds cond (BitVec.ofNat (vwidth w) x.1) (BitVec.ofNat (vwidth w) x.2)) d p s

/-- A floating-point compare of two vectors (R238). -/
def vfcmp (cond d a b : Nat) (p : Pfx) (s : State) : Host.Outcome State Fault Refusal :=
  maskOp (fun c => runsLen (c.vruns a)) (fun c => pairRuns c a b) (fun x => fcondHolds cond (f32 x.1) (f32 x.2)) d p s

/-- The smaller of two codes of `w` bits. -/
def vsmaller (signed : Bool) (w x y : Nat) : Nat := if intOf signed w y < intOf signed w x then y else x

/-- The larger of two codes of `w` bits. -/
def vlarger (signed : Bool) (w x y : Nat) : Nat := if intOf signed w x < intOf signed w y then y else x

/-- VADD (R237). -/
def execVadd (w d a b : Nat) (p : Pfx) (s : State) : Host.Outcome State Fault Refusal :=
  vint (fun _ x y => x + y) w d a b p s

/-- VSUB (R237). -/
def execVsub (w d a b : Nat) (p : Pfx) (s : State) : Host.Outcome State Fault Refusal :=
  vint (fun n x y => x + (2 ^ n - y)) w d a b p s

/-- VMUL (R237). -/
def execVmul (w d a b : Nat) (p : Pfx) (s : State) : Host.Outcome State Fault Refusal :=
  vint (fun _ x y => x * y) w d a b p s

/-- VMIN.i (R237). -/
def execVminI (w d a b : Nat) (p : Pfx) (s : State) : Host.Outcome State Fault Refusal :=
  vint (vsmaller true) w d a b p s

/-- VMIN.n (R237). -/
def execVminN (w d a b : Nat) (p : Pfx) (s : State) : Host.Outcome State Fault Refusal :=
  vint (vsmaller false) w d a b p s

/-- VMAX.i (R237). -/
def execVmaxI (w d a b : Nat) (p : Pfx) (s : State) : Host.Outcome State Fault Refusal :=
  vint (vlarger true) w d a b p s

/-- VMAX.n (R237). -/
def execVmaxN (w d a b : Nat) (p : Pfx) (s : State) : Host.Outcome State Fault Refusal :=
  vint (vlarger false) w d a b p s

/-- VAND (R237). -/
def execVand (w d a b : Nat) (p : Pfx) (s : State) : Host.Outcome State Fault Refusal :=
  vint (fun _ x y => x &&& y) w d a b p s

/-- VOR (R237). -/
def execVor (w d a b : Nat) (p : Pfx) (s : State) : Host.Outcome State Fault Refusal :=
  vint (fun _ x y => x ||| y) w d a b p s

/-- VXOR (R237). -/
def execVxor (w d a b : Nat) (p : Pfx) (s : State) : Host.Outcome State Fault Refusal :=
  vint (fun _ x y => x ^^^ y) w d a b p s

/-- VSLL (R237). -/
def execVsll (w d a b : Nat) (p : Pfx) (s : State) : Host.Outcome State Fault Refusal :=
  vint (fun n x y => x * 2 ^ (y % n)) w d a b p s

/-- VSRL (R237). -/
def execVsrl (w d a b : Nat) (p : Pfx) (s : State) : Host.Outcome State Fault Refusal :=
  vint (fun n x y => x / 2 ^ (y % n)) w d a b p s

/-- VSRA (R237). -/
def execVsra (w d a b : Nat) (p : Pfx) (s : State) : Host.Outcome State Fault Refusal :=
  vint (fun n x y => wrapInt n (intOf true n x / 2 ^ (y % n))) w d a b p s

/-- VADDS.i (R237). -/
def execVaddsI (w d a b : Nat) (p : Pfx) (s : State) : Host.Outcome State Fault Refusal :=
  vint (fun n x y => wrapInt n (satInt true n (intOf true n x + intOf true n y))) w d a b p s

/-- VADDS.n (R237). -/
def execVaddsN (w d a b : Nat) (p : Pfx) (s : State) : Host.Outcome State Fault Refusal :=
  vint (fun n x y => wrapInt n (satInt false n (x + y))) w d a b p s

/-- VSUBS.n (R237). -/
def execVsubsN (w d a b : Nat) (p : Pfx) (s : State) : Host.Outcome State Fault Refusal :=
  vint (fun _ x y => x - y) w d a b p s

/-- VCMP condition 0 of R238. -/
def execVcmpEq (w d a b : Nat) (p : Pfx) (s : State) : Host.Outcome State Fault Refusal :=
  vcmp 0 w d a b p s

/-- VCMP condition 1 of R238. -/
def execVcmpNe (w d a b : Nat) (p : Pfx) (s : State) : Host.Outcome State Fault Refusal :=
  vcmp 1 w d a b p s

/-- VCMP condition 2 of R238. -/
def execVcmpLtI (w d a b : Nat) (p : Pfx) (s : State) : Host.Outcome State Fault Refusal :=
  vcmp 2 w d a b p s

/-- VCMP condition 3 of R238. -/
def execVcmpLtN (w d a b : Nat) (p : Pfx) (s : State) : Host.Outcome State Fault Refusal :=
  vcmp 3 w d a b p s

/-- VCMP condition 4 of R238. -/
def execVcmpGeI (w d a b : Nat) (p : Pfx) (s : State) : Host.Outcome State Fault Refusal :=
  vcmp 4 w d a b p s

/-- VCMP condition 5 of R238. -/
def execVcmpGeN (w d a b : Nat) (p : Pfx) (s : State) : Host.Outcome State Fault Refusal :=
  vcmp 5 w d a b p s

/-- VCMP condition 6 of R238. -/
def execVcmpFeq (d a b : Nat) (p : Pfx) (s : State) : Host.Outcome State Fault Refusal :=
  vfcmp 0 d a b p s

/-- VCMP condition 7 of R238. -/
def execVcmpFne (d a b : Nat) (p : Pfx) (s : State) : Host.Outcome State Fault Refusal :=
  vfcmp 1 d a b p s

/-- VCMP condition 8 of R238. -/
def execVcmpFlt (d a b : Nat) (p : Pfx) (s : State) : Host.Outcome State Fault Refusal :=
  vfcmp 2 d a b p s

/-- VCMP condition 9 of R238. -/
def execVcmpFle (d a b : Nat) (p : Pfx) (s : State) : Host.Outcome State Fault Refusal :=
  vfcmp 3 d a b p s

/-- VCMP condition 10 of R238. -/
def execVcmpFun (d a b : Nat) (p : Pfx) (s : State) : Host.Outcome State Fault Refusal :=
  vfcmp 4 d a b p s

end Sys2Proof.Machine
end

