-- ==== Sys2Proof/Machine/Dispatch.lean ====
section
/-! DEFINITION. The dispatch: one arm per instruction, each one direct call of its meaning. -/

namespace Sys2Proof.Machine

/-- The effect of one instruction, or of one step of the opcode table, on the device. -/
def exec (i : Instr) (s : State) : Host.Outcome State Fault Refusal :=
  match i with
  | .add d a b => Sys2Proof.Machine.execAdd d a b s
  | .sub d a b => Sys2Proof.Machine.execSub d a b s
  | .and d a b => Sys2Proof.Machine.execAnd d a b s
  | .or d a b => Sys2Proof.Machine.execOr d a b s
  | .xor d a b => Sys2Proof.Machine.execXor d a b s
  | .andn d a b => Sys2Proof.Machine.execAndn d a b s
  | .sll d a b => Sys2Proof.Machine.execSll d a b s
  | .srl d a b => Sys2Proof.Machine.execSrl d a b s
  | .sra d a b => Sys2Proof.Machine.execSra d a b s
  | .ror d a b => Sys2Proof.Machine.execRor d a b s
  | .mul d a b => Sys2Proof.Machine.execMul d a b s
  | .mulhI64 d a b => Sys2Proof.Machine.execMulhI64 d a b s
  | .mulhN64 d a b => Sys2Proof.Machine.execMulhN64 d a b s
  | .minI64 d a b => Sys2Proof.Machine.execMinI64 d a b s
  | .minN64 d a b => Sys2Proof.Machine.execMinN64 d a b s
  | .maxI64 d a b => Sys2Proof.Machine.execMaxI64 d a b s
  | .maxN64 d a b => Sys2Proof.Machine.execMaxN64 d a b s
  | .clmulN64 d a b => Sys2Proof.Machine.execClmulN64 d a b s
  | .clmulhN64 d a b => Sys2Proof.Machine.execClmulhN64 d a b s
  | .popcN64 d a => Sys2Proof.Machine.execPopcN64 d a s
  | .clzN64 d a => Sys2Proof.Machine.execClzN64 d a s
  | .ctzN64 d a => Sys2Proof.Machine.execCtzN64 d a s
  | .bswapN64 d a => Sys2Proof.Machine.execBswapN64 d a s
  | .extI64 d a b => Sys2Proof.Machine.execExtI64 d a b s
  | .extN64 d a b => Sys2Proof.Machine.execExtN64 d a b s
  | .insN64 d a b => Sys2Proof.Machine.execInsN64 d a b s
  | .sxtI8 d a => Sys2Proof.Machine.execSxtI8 d a s
  | .sxtI16 d a => Sys2Proof.Machine.execSxtI16 d a s
  | .sxtI32 d a => Sys2Proof.Machine.execSxtI32 d a s
  | .zxtN8 d a => Sys2Proof.Machine.execZxtN8 d a s
  | .zxtN16 d a => Sys2Proof.Machine.execZxtN16 d a s
  | .zxtN32 d a => Sys2Proof.Machine.execZxtN32 d a s
  | .addi imm a d => Sys2Proof.Machine.execAddi imm a d s
  | .addiLit32 lit a d => Sys2Proof.Machine.execAddiLit32 lit a d s
  | .addiLit64 lit a d => Sys2Proof.Machine.execAddiLit64 lit a d s
  | .andi imm a d => Sys2Proof.Machine.execAndi imm a d s
  | .andiLit32 lit a d => Sys2Proof.Machine.execAndiLit32 lit a d s
  | .andiLit64 lit a d => Sys2Proof.Machine.execAndiLit64 lit a d s
  | .ori imm a d => Sys2Proof.Machine.execOri imm a d s
  | .oriLit32 lit a d => Sys2Proof.Machine.execOriLit32 lit a d s
  | .oriLit64 lit a d => Sys2Proof.Machine.execOriLit64 lit a d s
  | .xori imm a d => Sys2Proof.Machine.execXori imm a d s
  | .xoriLit32 lit a d => Sys2Proof.Machine.execXoriLit32 lit a d s
  | .xoriLit64 lit a d => Sys2Proof.Machine.execXoriLit64 lit a d s
  | .slli n a d => Sys2Proof.Machine.execSlli n a d s
  | .srli n a d => Sys2Proof.Machine.execSrli n a d s
  | .srai n a d => Sys2Proof.Machine.execSrai n a d s
  | .rori n a d => Sys2Proof.Machine.execRori n a d s
  | .lui imm d => Sys2Proof.Machine.execLui imm d s
  | .auipc imm d => Sys2Proof.Machine.execAuipc imm d s
  | .divI64 ahead d a b => Sys2Proof.Machine.execDivI64 ahead d a b s
  | .divN64 ahead d a b => Sys2Proof.Machine.execDivN64 ahead d a b s
  | .remI64 ahead d a b => Sys2Proof.Machine.execRemI64 ahead d a b s
  | .remN64 ahead d a b => Sys2Proof.Machine.execRemN64 ahead d a b s
  | .faddF32 d a b => Sys2Proof.Machine.execFaddF32 d a b s
  | .fsubF32 d a b => Sys2Proof.Machine.execFsubF32 d a b s
  | .fmulF32 d a b => Sys2Proof.Machine.execFmulF32 d a b s
  | .fmaF32 d a b => Sys2Proof.Machine.execFmaF32 d a b s
  | .fminF32 d a b => Sys2Proof.Machine.execFminF32 d a b s
  | .fmaxF32 d a b => Sys2Proof.Machine.execFmaxF32 d a b s
  | .fabsF32 d a => Sys2Proof.Machine.execFabsF32 d a s
  | .fnegF32 d a => Sys2Proof.Machine.execFnegF32 d a s
  | .fcvtF32I64 d a => Sys2Proof.Machine.execFcvtF32I64 d a s
  | .fcvtF32N64 d a => Sys2Proof.Machine.execFcvtF32N64 d a s
  | .fcvtI64F32 d a => Sys2Proof.Machine.execFcvtI64F32 d a s
  | .fcvtN64F32 d a => Sys2Proof.Machine.execFcvtN64F32 d a s
  | .fcvtzI64F32 d a => Sys2Proof.Machine.execFcvtzI64F32 d a s
  | .fcvtzN64F32 d a => Sys2Proof.Machine.execFcvtzN64F32 d a s
  | .fcvtB16F32 d a => Sys2Proof.Machine.execFcvtB16F32 d a s
  | .fcvtF32B16 d a => Sys2Proof.Machine.execFcvtF32B16 d a s
  | .fcvtH16F32 d a => Sys2Proof.Machine.execFcvtH16F32 d a s
  | .fcvtF32H16 d a => Sys2Proof.Machine.execFcvtF32H16 d a s
  | .fdivF32 ahead d a b => Sys2Proof.Machine.execFdivF32 ahead d a b s
  | .fsqrtF32 ahead d a => Sys2Proof.Machine.execFsqrtF32 ahead d a s
  | .cmpEq g a b => Sys2Proof.Machine.execCmpEq g a b s
  | .cmpNe g a b => Sys2Proof.Machine.execCmpNe g a b s
  | .cmpLtI64 g a b => Sys2Proof.Machine.execCmpLtI64 g a b s
  | .cmpLtN64 g a b => Sys2Proof.Machine.execCmpLtN64 g a b s
  | .cmpGeI64 g a b => Sys2Proof.Machine.execCmpGeI64 g a b s
  | .cmpGeN64 g a b => Sys2Proof.Machine.execCmpGeN64 g a b s
  | .cmpTst g a b => Sys2Proof.Machine.execCmpTst g a b s
  | .cmpNtst g a b => Sys2Proof.Machine.execCmpNtst g a b s
  | .gand d a b => Sys2Proof.Machine.execGand d a b s
  | .gor d a b => Sys2Proof.Machine.execGor d a b s
  | .gxor d a b => Sys2Proof.Machine.execGxor d a b s
  | .gandn d a b => Sys2Proof.Machine.execGandn d a b s
  | .gnot d a => Sys2Proof.Machine.execGnot d a s
  | .gset d v => Sys2Proof.Machine.execGset d v s
  | .fcmpgEqF32 g a b => Sys2Proof.Machine.execFcmpgEqF32 g a b s
  | .fcmpgNeF32 g a b => Sys2Proof.Machine.execFcmpgNeF32 g a b s
  | .fcmpgLtF32 g a b => Sys2Proof.Machine.execFcmpgLtF32 g a b s
  | .fcmpgLeF32 g a b => Sys2Proof.Machine.execFcmpgLeF32 g a b s
  | .fcmpgUnF32 g a b => Sys2Proof.Machine.execFcmpgUnF32 g a b s
  | .cmpi imm cond a g => Sys2Proof.Machine.execCmpi imm cond a g s
  | .prep disp t => Sys2Proof.Machine.execPrep disp t s
  | .prepLit64 lit t => Sys2Proof.Machine.execPrepLit64 lit t s
  | .jmp t => Sys2Proof.Machine.execJmp t s
  | .jmpt g t => Sys2Proof.Machine.execJmpt g t s
  | .jmpf g t => Sys2Proof.Machine.execJmpf g t s
  | .call t => Sys2Proof.Machine.execCall t s
  | .ret => Sys2Proof.Machine.execRet s
  | .prepr a t => Sys2Proof.Machine.execPrepr a t s
  | .fence scope kind => Sys2Proof.Machine.execFence scope kind s
  | .isync => Sys2Proof.Machine.execIsync s
  | .wait code => Sys2Proof.Machine.execWait code s
  | .flush keep a b => Sys2Proof.Machine.execFlush keep a b s
  | .ldl64 imm ahead a d => Sys2Proof.Machine.execLdl64 imm ahead a d s
  | .ldli32 imm ahead a d => Sys2Proof.Machine.execLdli32 imm ahead a d s
  | .ldln32 imm ahead a d => Sys2Proof.Machine.execLdln32 imm ahead a d s
  | .stl64 imm a d => Sys2Proof.Machine.execStl64 imm a d s
  | .stl32 imm a d => Sys2Proof.Machine.execStl32 imm a d s
  | .ldg64 imm ahead a d => Sys2Proof.Machine.execLdg64 imm ahead a d s
  | .ldgi32 imm ahead a d => Sys2Proof.Machine.execLdgi32 imm ahead a d s
  | .ldgn32 imm ahead a d => Sys2Proof.Machine.execLdgn32 imm ahead a d s
  | .stg64 imm a d => Sys2Proof.Machine.execStg64 imm a d s
  | .stg32 imm a d => Sys2Proof.Machine.execStg32 imm a d s
  | .memxLdI8 d a b iscale m x => Sys2Proof.Machine.execMemxLdI8 d a b iscale m x s
  | .memxLdN8 d a b iscale m x => Sys2Proof.Machine.execMemxLdN8 d a b iscale m x s
  | .memxLdI16 d a b iscale m x => Sys2Proof.Machine.execMemxLdI16 d a b iscale m x s
  | .memxLdN16 d a b iscale m x => Sys2Proof.Machine.execMemxLdN16 d a b iscale m x s
  | .memxLdI32 d a b iscale m x => Sys2Proof.Machine.execMemxLdI32 d a b iscale m x s
  | .memxLdN32 d a b iscale m x => Sys2Proof.Machine.execMemxLdN32 d a b iscale m x s
  | .memxLdI64 d a b iscale m x => Sys2Proof.Machine.execMemxLdI64 d a b iscale m x s
  | .memxStI8 a b m x => Sys2Proof.Machine.execMemxStI8 a b m x s
  | .memxStI16 a b m x => Sys2Proof.Machine.execMemxStI16 a b m x s
  | .memxStI32 a b m x => Sys2Proof.Machine.execMemxStI32 a b m x s
  | .memxStI64 a b m x => Sys2Proof.Machine.execMemxStI64 a b m x s
  | .aswp d a b sz m x => Sys2Proof.Machine.execAswp d a b sz m x s
  | .acas d a b sz c m x => Sys2Proof.Machine.execAcas d a b sz c m x s
  | .aadd d a b sz m x => Sys2Proof.Machine.execAadd d a b sz m x s
  | .aand d a b sz m x => Sys2Proof.Machine.execAand d a b sz m x s
  | .aor d a b sz m x => Sys2Proof.Machine.execAor d a b sz m x s
  | .axor d a b sz m x => Sys2Proof.Machine.execAxor d a b sz m x s
  | .aminI d a b sz m x => Sys2Proof.Machine.execAminI d a b sz m x s
  | .aminN d a b sz m x => Sys2Proof.Machine.execAminN d a b sz m x s
  | .amaxI d a b sz m x => Sys2Proof.Machine.execAmaxI d a b sz m x s
  | .amaxN d a b sz m x => Sys2Proof.Machine.execAmaxN d a b sz m x s
  | .afaddF32 d a b m x => Sys2Proof.Machine.execAfaddF32 d a b m x s
  | .vadd w d a b p => Sys2Proof.Machine.execVadd w d a b p s
  | .vsub w d a b p => Sys2Proof.Machine.execVsub w d a b p s
  | .vmul w d a b p => Sys2Proof.Machine.execVmul w d a b p s
  | .vminI w d a b p => Sys2Proof.Machine.execVminI w d a b p s
  | .vminN w d a b p => Sys2Proof.Machine.execVminN w d a b p s
  | .vmaxI w d a b p => Sys2Proof.Machine.execVmaxI w d a b p s
  | .vmaxN w d a b p => Sys2Proof.Machine.execVmaxN w d a b p s
  | .vand w d a b p => Sys2Proof.Machine.execVand w d a b p s
  | .vor w d a b p => Sys2Proof.Machine.execVor w d a b p s
  | .vxor w d a b p => Sys2Proof.Machine.execVxor w d a b p s
  | .vsll w d a b p => Sys2Proof.Machine.execVsll w d a b p s
  | .vsrl w d a b p => Sys2Proof.Machine.execVsrl w d a b p s
  | .vsra w d a b p => Sys2Proof.Machine.execVsra w d a b p s
  | .vaddsI w d a b p => Sys2Proof.Machine.execVaddsI w d a b p s
  | .vaddsN w d a b p => Sys2Proof.Machine.execVaddsN w d a b p s
  | .vsubsN w d a b p => Sys2Proof.Machine.execVsubsN w d a b p s
  | .vcmpEq w d a b p => Sys2Proof.Machine.execVcmpEq w d a b p s
  | .vcmpNe w d a b p => Sys2Proof.Machine.execVcmpNe w d a b p s
  | .vcmpLtI w d a b p => Sys2Proof.Machine.execVcmpLtI w d a b p s
  | .vcmpLtN w d a b p => Sys2Proof.Machine.execVcmpLtN w d a b p s
  | .vcmpGeI w d a b p => Sys2Proof.Machine.execVcmpGeI w d a b p s
  | .vcmpGeN w d a b p => Sys2Proof.Machine.execVcmpGeN w d a b p s
  | .vcmpFeq d a b p => Sys2Proof.Machine.execVcmpFeq d a b p s
  | .vcmpFne d a b p => Sys2Proof.Machine.execVcmpFne d a b p s
  | .vcmpFlt d a b p => Sys2Proof.Machine.execVcmpFlt d a b p s
  | .vcmpFle d a b p => Sys2Proof.Machine.execVcmpFle d a b p s
  | .vcmpFun d a b p => Sys2Proof.Machine.execVcmpFun d a b p s
  | .vfaddF32 d a b p => Sys2Proof.Machine.execVfaddF32 d a b p s
  | .vfsubF32 d a b p => Sys2Proof.Machine.execVfsubF32 d a b p s
  | .vfmulF32 d a b p => Sys2Proof.Machine.execVfmulF32 d a b p s
  | .vfmaF32 d a b p => Sys2Proof.Machine.execVfmaF32 d a b p s
  | .vfminF32 d a b p => Sys2Proof.Machine.execVfminF32 d a b p s
  | .vfmaxF32 d a b p => Sys2Proof.Machine.execVfmaxF32 d a b p s
  | .vfabsF32 d a p => Sys2Proof.Machine.execVfabsF32 d a p s
  | .vfnegF32 d a p => Sys2Proof.Machine.execVfnegF32 d a p s
  | .vcvtF32I32 d a p => Sys2Proof.Machine.execVcvtF32I32 d a p s
  | .vcvtI32F32 d a p => Sys2Proof.Machine.execVcvtI32F32 d a p s
  | .vcvtF32N32 d a p => Sys2Proof.Machine.execVcvtF32N32 d a p s
  | .vcvtN32F32 d a p => Sys2Proof.Machine.execVcvtN32F32 d a p s
  | .vcvtB16F32 d a p => Sys2Proof.Machine.execVcvtB16F32 d a p s
  | .vcvtF32B16 d a p => Sys2Proof.Machine.execVcvtF32B16 d a p s
  | .vmov d a p => Sys2Proof.Machine.execVmov d a p s
  | .vsplat d a b p => Sys2Proof.Machine.execVsplat d a b p s
  | .vrun d a b p => Sys2Proof.Machine.execVrun d a b p s
  | .vsel d a b p => Sys2Proof.Machine.execVsel d a b p s
  | .vcoal d a p => Sys2Proof.Machine.execVcoal d a p s
  | .viota d a b p => Sys2Proof.Machine.execViota d a b p s
  | .vcomp d a p => Sys2Proof.Machine.execVcomp d a p s
  | .vexp d a p => Sys2Proof.Machine.execVexp d a p s
  | .vrsumI32 d a b p => Sys2Proof.Machine.execVrsumI32 d a b p s
  | .vrsumF32 d a b p => Sys2Proof.Machine.execVrsumF32 d a b p s
  | .vrminI32 d a b p => Sys2Proof.Machine.execVrminI32 d a b p s
  | .vrminN32 d a b p => Sys2Proof.Machine.execVrminN32 d a b p s
  | .vrminF32 d a b p => Sys2Proof.Machine.execVrminF32 d a b p s
  | .vrmaxI32 d a b p => Sys2Proof.Machine.execVrmaxI32 d a b p s
  | .vrmaxN32 d a b p => Sys2Proof.Machine.execVrmaxN32 d a b p s
  | .vrmaxF32 d a b p => Sys2Proof.Machine.execVrmaxF32 d a b p s
  | .vrand d a b p => Sys2Proof.Machine.execVrand d a b p s
  | .vror d a b p => Sys2Proof.Machine.execVror d a b p s
  | .vrxor d a b p => Sys2Proof.Machine.execVrxor d a b p s
  | .vssumI32 d a b p => Sys2Proof.Machine.execVssumI32 d a b p s
  | .vssumF32 d a b p => Sys2Proof.Machine.execVssumF32 d a b p s
  | .vsminI32 d a b p => Sys2Proof.Machine.execVsminI32 d a b p s
  | .vsmaxI32 d a b p => Sys2Proof.Machine.execVsmaxI32 d a b p s
  | .vlen d a p => Sys2Proof.Machine.execVlen d a p s
  | .vnrun d a p => Sys2Proof.Machine.execVnrun d a p s
  | .vsetlen d a b p => Sys2Proof.Machine.execVsetlen d a b p s
  | .vtos d a b p => Sys2Proof.Machine.execVtos d a b p s
  | .kand d a b p => Sys2Proof.Machine.execKand d a b p s
  | .kor d a b p => Sys2Proof.Machine.execKor d a b p s
  | .kxor d a b p => Sys2Proof.Machine.execKxor d a b p s
  | .kandn d a b p => Sys2Proof.Machine.execKandn d a b p s
  | .knot d a p => Sys2Proof.Machine.execKnot d a p s
  | .kmov d a p => Sys2Proof.Machine.execKmov d a p s
  | .kpxor d a b p => Sys2Proof.Machine.execKpxor d a b p s
  | .ktos d a b p => Sys2Proof.Machine.execKtos d a b p s
  | .stok d a b p => Sys2Proof.Machine.execStok d a b p s
  | .kpopc d a p => Sys2Proof.Machine.execKpopc d a p s
  | .klen d a p => Sys2Proof.Machine.execKlen d a p s
  | .vld d a b w mask zero m x => Sys2Proof.Machine.execVld d a b w mask zero m x s
  | .vst d a w mask m x => Sys2Proof.Machine.execVst d a w mask m x s
  | .vldr d a b m x => Sys2Proof.Machine.execVldr d a b m x s
  | .vstr d a m x => Sys2Proof.Machine.execVstr d a m x s
  | .vgath d a b w mask zero iscale m x => Sys2Proof.Machine.execVgath d a b w mask zero iscale m x s
  | .vscat d a b w mask iscale m x => Sys2Proof.Machine.execVscat d a b w mask iscale m x s
  | .tld d a b tag pcnt sgn m x => Sys2Proof.Machine.execTld d a b tag pcnt sgn m x s
  | .tst d a b m x => Sys2Proof.Machine.execTst d a b m x s
  | .tzero d tag pcnt sgn x => Sys2Proof.Machine.execTzero d tag pcnt sgn x s
  | .tmov d a x => Sys2Proof.Machine.execTmov d a x s
  | .trel d x => Sys2Proof.Machine.execTrel d x s
  | .mma d a b fa fb z km1 kao kbo x => Sys2Proof.Machine.execMma d a b fa fb z km1 kao kbo x s
  | .mmf d a b fa z km1 kao kbo x => Sys2Proof.Machine.execMmf d a b fa z km1 kao kbo x s
  | .scac d a b sfmt q tsb ca cb x => Sys2Proof.Machine.execScac d a b sfmt q tsb ca cb x s
  | .scal d a b x => Sys2Proof.Machine.execScal d a b x s
  | .tadd d a b fmt rnd sat x => Sys2Proof.Machine.execTadd d a b fmt rnd sat x s
  | .tsub d a b fmt rnd sat x => Sys2Proof.Machine.execTsub d a b fmt rnd sat x s
  | .temul d a b fmt rnd sat x => Sys2Proof.Machine.execTemul d a b fmt rnd sat x s
  | .tmax d a b fmt rnd sat x => Sys2Proof.Machine.execTmax d a b fmt rnd sat x s
  | .tmin d a b fmt rnd sat x => Sys2Proof.Machine.execTmin d a b fmt rnd sat x s
  | .tact d a fmt rnd fn x => Sys2Proof.Machine.execTact d a fmt rnd fn x s
  | .tcvt d a fmt rnd dfmt sat sel x => Sys2Proof.Machine.execTcvt d a fmt rnd dfmt sat sel x s
  | .ttrn d a fmt sel x => Sys2Proof.Machine.execTtrn d a fmt sel x s
  | .tplane d a pf sel x => Sys2Proof.Machine.execTplane d a pf sel x s
  | .tred d a fmt dir op x => Sys2Proof.Machine.execTred d a fmt dir op x s
  | .tbcast d a fmt kind dir x => Sys2Proof.Machine.execTbcast d a fmt kind dir x s
  | .cpy len a b ssp scs dsp dcs tc nv nreg ncore x => Sys2Proof.Machine.execCpy len a b ssp scs dsp dcs tc nv nreg ncore x s
  | .cpyw len a b ssp scs dsp dcs tc nv nreg ncore wreg wsp wcs x => Sys2Proof.Machine.execCpyw len a b ssp scs dsp dcs tc nv nreg ncore wreg wsp wcs x s
  | .xfm a b dlay slay tc xop i1 i2 i1v i2v rnd x => Sys2Proof.Machine.execXfm a b dlay slay tc xop i1 i2 i1v i2v rnd x s
  | .layv a slot tc x => Sys2Proof.Machine.execLayv a slot tc x s
  | .coll d a b op red ty span tc nv nreg ncore root ssp dsp x => Sys2Proof.Machine.execColl d a b op red ty span tc nv nreg ncore root ssp dsp x s
  | .tcwait a tc => Sys2Proof.Machine.execTcwait a tc s
  | .tcrd d issued tc => Sys2Proof.Machine.execTcrd d issued tc s
  | .mrecv d n => Sys2Proof.Machine.execMrecv d n s
  | .hset clr a n => Sys2Proof.Machine.execHset clr a n s
  | .join a => Sys2Proof.Machine.execJoin a s
  | .yield => Sys2Proof.Machine.execYield s
  | .exit => Sys2Proof.Machine.execExit s
  | .rein => Sys2Proof.Machine.execRein s
  | .reinq d => Sys2Proof.Machine.execReinq d s
  | .msend a b kind slot mreg rargb rpay codew x => Sys2Proof.Machine.execMsend a b kind slot mreg rargb rpay codew x s
  | .fork a b full rargb rjoin x => Sys2Proof.Machine.execFork a b full rargb rjoin x s
  | .start a b rargb x => Sys2Proof.Machine.execStart a b rargb x s
  | .sysrd d a sel => Sys2Proof.Machine.execSysrd d a sel s
  | .syswr d a sel => Sys2Proof.Machine.execSyswr d a sel s
  | .trap n => Sys2Proof.Machine.execTrap n s
  | .eret => Sys2Proof.Machine.execEret s
  | .bankcfg a mode esize => Sys2Proof.Machine.execBankcfg a mode esize s
  | .dirrd d => Sys2Proof.Machine.execDirrd d s
  | .dirwr a => Sys2Proof.Machine.execDirwr a s
  | .tick d => Sys2Proof.Machine.execTick d s
  | .mark a stopk => Sys2Proof.Machine.execMark a stopk s
  | .launch ch off bytes => Sys2Proof.Machine.execLaunch ch off bytes s
  | .messagePortWrite ch off bytes => Sys2Proof.Machine.execMessagePortWrite ch off bytes s
  | .apertureWrite ch off bytes => Sys2Proof.Machine.execApertureWrite ch off bytes s
  | .cxlMemWrite pa bytes => Sys2Proof.Machine.execCxlMemWrite pa bytes s
  | .hostRead pa n => Sys2Proof.Machine.execHostRead pa n s
  | .hostSnoop pa => Sys2Proof.Machine.execHostSnoop pa s
  | .preempt w => Sys2Proof.Machine.execPreempt w s
  | .resume w => Sys2Proof.Machine.execResume w s
  | .preemptBudgetExpiry core => Sys2Proof.Machine.execPreemptBudgetExpiry core s
  | .preemptImageWrite core => Sys2Proof.Machine.execPreemptImageWrite core s
  | .preemptAbandon core => Sys2Proof.Machine.execPreemptAbandon core s
  | .resumeLoad core => Sys2Proof.Machine.execResumeLoad core s
  | .vcoreSwitch core => Sys2Proof.Machine.execVcoreSwitch core s
  | .arbiterGrant core => Sys2Proof.Machine.execArbiterGrant core s
  | .helperPark core => Sys2Proof.Machine.execHelperPark core s
  | .parkedHelperReturn core => Sys2Proof.Machine.execParkedHelperReturn core s
  | .stealProbe core => Sys2Proof.Machine.execStealProbe core s
  | .stealProbeArrival core => Sys2Proof.Machine.execStealProbeArrival core s
  | .stealAnswer core => Sys2Proof.Machine.execStealAnswer core s
  | .stealSweepBackoff core => Sys2Proof.Machine.execStealSweepBackoff core s
  | .messageArrival core => Sys2Proof.Machine.execMessageArrival core s
  | .registerWriteApply core => Sys2Proof.Machine.execRegisterWriteApply core s
  | .spillRefill core => Sys2Proof.Machine.execSpillRefill core s
  | .joinWake core slot => Sys2Proof.Machine.execJoinWake core slot s
  | .tcwaitWake core slot => Sys2Proof.Machine.execTcwaitWake core slot s
  | .commandDispatch core => Sys2Proof.Machine.execCommandDispatch core s
  | .copyChannelTransfer core chan => Sys2Proof.Machine.execCopyChannelTransfer core chan s
  | .transformRun core => Sys2Proof.Machine.execTransformRun core s
  | .collectiveMatch core => Sys2Proof.Machine.execCollectiveMatch core s
  | .commandComplete core tc => Sys2Proof.Machine.execCommandComplete core tc s
  | .bankSwitchPoint paddock bank => Sys2Proof.Machine.execBankSwitchPoint paddock bank s
  | .bankTileCopy paddock bank => Sys2Proof.Machine.execBankTileCopy paddock bank s
  | .bankClearDone paddock bank => Sys2Proof.Machine.execBankClearDone paddock bank s
  | .postedStorePerform core => Sys2Proof.Machine.execPostedStorePerform core s
  | .atomicPerform core slot => Sys2Proof.Machine.execAtomicPerform core slot s
  | .fifoWaitServe paddock bank => Sys2Proof.Machine.execFifoWaitServe paddock bank s
  | .storeProbeAnswer die pid va => Sys2Proof.Machine.execStoreProbeAnswer die pid va s
  | .pageWalk die pid va => Sys2Proof.Machine.execPageWalk die pid va s
  | .xinvWrite w => Sys2Proof.Machine.execXinvWrite w s
  | .l2LoadMissFill die pid va => Sys2Proof.Machine.execL2LoadMissFill die pid va s
  | .l2Writeback die pid va => Sys2Proof.Machine.execL2Writeback die pid va s
  | .controllerLineWrite pa c bytes => Sys2Proof.Machine.execControllerLineWrite pa c bytes s
  | .controllerPartialMerge pa c bytes => Sys2Proof.Machine.execControllerPartialMerge pa c bytes s
  | .controllerLineRead pa => Sys2Proof.Machine.execControllerLineRead pa s
  | .metadataMiss ctrl line => Sys2Proof.Machine.execMetadataMiss ctrl line s
  | .metadataWriteback ctrl line => Sys2Proof.Machine.execMetadataWriteback ctrl line s
  | .aliasRead desc blk => Sys2Proof.Machine.execAliasRead desc blk s
  | .aliasWriteRepack desc blk pos bytes => Sys2Proof.Machine.execAliasWriteRepack desc blk pos bytes s
  | .stampedWriteApply place => Sys2Proof.Machine.execStampedWriteApply place s
  | .directoryOverflowRequest core => Sys2Proof.Machine.execDirectoryOverflowRequest core s
  | .directoryConfigWrite core area w => Sys2Proof.Machine.execDirectoryConfigWrite core area w s
  | .stampbaseWrite core w => Sys2Proof.Machine.execStampbaseWrite core w s
  | .fltringWrite w => Sys2Proof.Machine.execFltringWrite w s
  | .powercapWrite w => Sys2Proof.Machine.execPowercapWrite w s
  | .tandemcfgWrite w => Sys2Proof.Machine.execTandemcfgWrite w s
  | .hostRegisterWrite off w => Sys2Proof.Machine.execHostRegisterWrite off w s
  | .mstart w => Sys2Proof.Machine.execMstart w s
  | .mdata bytes => Sys2Proof.Machine.execMdata bytes s
  | .mend w => Sys2Proof.Machine.execMend w s
  | .qnonce bytes => Sys2Proof.Machine.execQnonce bytes s
  | .quoteComplete => Sys2Proof.Machine.execQuoteComplete s
  | .powerUp => Sys2Proof.Machine.execPowerUp s
  | .functionReady bit => Sys2Proof.Machine.execFunctionReady bit s
  | .functionFailed bit => Sys2Proof.Machine.execFunctionFailed bit s
  | .powerWindow watts => Sys2Proof.Machine.execPowerWindow watts s
  | .thermalSample temps => Sys2Proof.Machine.execThermalSample temps s
  | .errorEvent e => Sys2Proof.Machine.execErrorEvent e s
  | .linkRetrainDone cls => Sys2Proof.Machine.execLinkRetrainDone cls s
  | .linkDown cls => Sys2Proof.Machine.execLinkDown cls s
  | .tandemBringUp peerSize peerTick => Sys2Proof.Machine.execTandemBringUp peerSize peerTick s
  | .tandemWriteFlit off bytes stamp => Sys2Proof.Machine.execTandemWriteFlit off bytes stamp s
  | .tandemMsgFlit head bytes => Sys2Proof.Machine.execTandemMsgFlit head bytes s
  | .tandemCollFlit f => Sys2Proof.Machine.execTandemCollFlit f s
  | .tandemCtrlFlit f => Sys2Proof.Machine.execTandemCtrlFlit f s
  | .stop c => Sys2Proof.Machine.execStop c s
  | .stopTickReached => Sys2Proof.Machine.execStopTickReached s
  | .debugResume c => Sys2Proof.Machine.execDebugResume c s
  | .stat c => Sys2Proof.Machine.execStat c s
  | .scan c => Sys2Proof.Machine.execScan c s
  | .rdreg c => Sys2Proof.Machine.execRdreg c s
  | .wrreg c => Sys2Proof.Machine.execWrreg c s
  | .rdmem c => Sys2Proof.Machine.execRdmem c s
  | .wrmem c => Sys2Proof.Machine.execWrmem c s
  | .debuggerWriteApply => Sys2Proof.Machine.execDebuggerWriteApply s
  | .tickset c => Sys2Proof.Machine.execTickset c s
  | .setbp c => Sys2Proof.Machine.execSetbp c s
  | .clrbp c => Sys2Proof.Machine.execClrbp c s
  | .breakpointMatch core slot => Sys2Proof.Machine.execBreakpointMatch core slot s
  | .stampRecordWrite core => Sys2Proof.Machine.execStampRecordWrite core s
  | .counterSample core => Sys2Proof.Machine.execCounterSample core s
  | .birsp pa => Sys2Proof.Machine.execBirsp pa s

end Sys2Proof.Machine
end

