-- ==== Sys2Proof/Machine/Schedule.lean ====
section
/-! DEFINITION. Who moves in a step: the fetch and decoding of a context's next instruction, the moves that the units of the
device make of themselves, the clocks, and the placing of a word for the host (R23, R67, R68, R171 to R185, R384, R387, R388,
R392, R399, R431 to R435; logs 3, 5, 21). -/

namespace Sys2Proof.Machine

/-! ### A context executes its next instruction -/

/-- The word that carries the major and minor of an encoding: of a prefixed pair the word after the prefix (R173, R176). -/
def opWord (w : Nat) : Nat := if w / 4 % 64 = 0x3E then w / 2 ^ 32 % 2 ^ 32 else w % 2 ^ 32

/-- The fault of an encoding with a broken field: its class first, then the field (R184, R185, R431, R433). -/
def reservedTrap (s : State) (w lo : Nat) : Trap :=
  match (Cls.of (opWord w / 4 % 64) (opWord w / 2 ^ 26)).trap s with
  | some t => t
  | none => fieldTrap lo

/-- What the fetch and decoding at the moving context's PC come to. -/
inductive Next where
  | run (i : Instr) (s : State)
  | trap (t : Trap) (s : State)
  | wait (s : State)

/-- The words of a whole instruction, decoded for the moving context; its operation joins the decoded-operation cache (R60, R171,
R184, R431). -/
noncomputable def decodeNext (s : State) (ws : List Nat) : Next :=
  match decode s.helper (wordsToNat ws) with
  | .ok i _ => .run i (keepOp s s.curCore s.curSlot s.cur.pc ws)
  | .reserved lo => .trap (reservedTrap s (wordsToNat ws) lo) s
  | .illegal => .trap (illegal 0) s
  | .short => .trap (illegal 0) s

/-- The fault that the words before those that name operands show: the illegal encodings of a prefixed pair, and the class of the
encoding; these come before the fault of a later word's fetch (R184, R185, R431). -/
noncomputable def headTrap (s : State) (w0 : Nat) : Option Trap :=
  let cls (w : Nat) : Option Trap := (Cls.of (opWord w / 4 % 64) (opWord w / 2 ^ 26)).trap s
  if w0 / 4 % 64 = 0x3E then
    match fetchWord s s.curCore s.curSlot (s.cur.pc + 4) with
    | .ok ws _ => match decode s.helper (wordsToNat (w0 :: ws)) with
      | .illegal => some (illegal 0)
      | _ => cls (wordsToNat (w0 :: ws))
    | _ => none
  else cls w0

/-- The words after a known first word are fetched, and the instruction is decoded. A fault of a later word's fetch comes before a
reserved field of the words before it, which only an instruction that is there whole can break (R184, R431; log 45). -/
noncomputable def fetchRest (s : State) (w0 : Nat) : Next :=
  match fetchWords s s.curCore s.curSlot (s.cur.pc + 4) (lenOf w0 - 1) with
  | .ok ws s => decodeNext s (w0 :: ws)
  | .trap t s => .trap (if t.code = 1 then t else (headTrap s w0).getD t) s
  | .wait s => .wait s

/-- The next instruction of the moving context (R171, R184, R418, R431, R434). -/
noncomputable def fetchNext (s : State) : Next :=
  match fetchWord s s.curCore s.curSlot s.cur.pc with
  | .ok ws s => if firstWordKnown (wordsToNat ws) then fetchRest s (wordsToNat ws) else .trap (illegal 0) s
  | .trap t s => .trap t s
  | .wait s => .wait s

/-- The moving context fetches its next instruction and executes it, or takes the fault of its fetch or decoding. -/
noncomputable def runCur (s : State) : Host.Outcome State Fault Refusal :=
  match fetchNext s with
  | .run i s => exec i s
  | .trap t s => .next (s.fault t)
  | .wait s => .next s

/-- A context's turn: it stops at a breakpoint, or executes (R392). -/
noncomputable def runCtx (s : State) (core slot : Nat) : Host.Outcome State Fault Refusal :=
  if atBreak s core slot then execBreakpointMatch core slot s else runCur (s.moveTo core slot)

/-! ### Clocks (R23, R384, R387, R388, R399, R487) -/

/-- Whether the clock domains are gated: by a precise stop, or for good (R387, R487). -/
def State.gated (s : State) : Bool := s.dbg.stopped || s.halted

/-- The state after a unit's move. -/
def moved (f : State → Host.Outcome State Fault Refusal) (s : State) : State :=
  match f s with
  | .next t => t
  | _ => s

/-- What the end of a tick brings: debugger writes of that tick, the profiler's records, then a stop named for it (R169, R387,
R396 to R399). -/
def endTick (s : State) : State :=
  let s := s.dbg.writes.foldl (fun s _ => moved execDebuggerWriteApply s) s
  let s := samples (if s.cores.toList.any fun k => !k.stamps.isEmpty then (List.range 96).foldl endRecords s else s)
  if s.dbg.stopReq.isSome then moved execStopTickReached s else s

/-- A tick ends and the next begins, where clocks run and the counter does not stand still (R384, R387, R388). -/
def advanceTick (s : State) : State :=
  if s.gated then s
  else if s.tickWait = 0 then
    let t := endTick s
    if t.gated then t else { t with tick := t.tick + 1 }
  else { s with tickWait := s.tickWait - 1 }

/-- The ticks that can go by at once: up to a sample, a debugger write or a requested stop. -/
def leap (s : State) (n : Nat) : Nat :=
  let m := min n ((1024 - s.tick % 1024) % 1024 + 1)
  let m := s.dbg.writes.foldl (fun m x => min m (x.1 + 1 - s.tick)) m
  match s.dbg.stopReq with
  | some t => min m (t + 1 - s.tick)
  | none => m

/-- Clocks run for some of `n` ticks; the rest are left to the next step. -/
def elapse (s : State) (n : Nat) : State :=
  if s.gated || n == 0 then s
  else if s.tickWait = 0 then
    let m := max 1 (leap s n)
    let rest := if n ≤ m then s.turns else .elapse (n - m) :: s.turns
    { s with tick := s.tick + (m - 1), turns := rest }
  else { s with tickWait := s.tickWait - min (n - 1) (s.tickWait - 1),
                turns := if n ≤ s.tickWait then s.turns else .elapse (n - s.tickWait) :: s.turns }

/-! ### The moves of the device's own units -/

/-- Every unit of a list moves once. -/
def moveAll (fs : List (State → Host.Outcome State Fault Refusal)) (s : State) : State := fs.foldl (fun s f => moved f s) s

/-- Slots whose contexts a core schedules (R30, R34). -/
def slotList : List Nat := [15, 0, 1, 2, 3, 4, 5, 6, 7, 8, 9]

/-- Whether nothing of a core can move but its contexts; a saved context may wait to resume there (R43, R335). -/
def coreQuiet (s : State) (core : Nat) : Bool :=
  let k := s.core core
  !(s.saved.any fun x => x.waits && x.core == core) &&
  k.inbound.isEmpty && k.inbox.isEmpty && k.spInbox.isEmpty && k.backlog.isEmpty && k.spBacklog.isEmpty && k.launchQ.isEmpty &&
    k.spLaunch.isEmpty && k.deque.isEmpty && k.spTasks.isEmpty && k.cmds.isEmpty && k.posted.isEmpty && k.parked.isEmpty &&
    k.preempt.isNone && k.resumes.isEmpty && k.dirQ.isEmpty && k.stamps.isEmpty && k.steal.task.isNone && k.steal.victim.isNone &&
    slotList.all fun i => (k.ctx i).st != .waiting

/-- The moves of a core's units. -/
def coreMoves (core : Nat) : List (State → Host.Outcome State Fault Refusal) :=
  [execPreemptBudgetExpiry core, execPreemptAbandon core, execPreemptImageWrite core, execResumeLoad core,
   execPostedStorePerform core, execCommandDispatch core, execCopyChannelTransfer core 0, execCopyChannelTransfer core 1,
   execTransformRun core, execCollectiveMatch core] ++
    (List.range 8).map (execCommandComplete core) ++
    [execMessageArrival core, execRegisterWriteApply core] ++ slotList.map (execJoinWake core) ++ slotList.map (execTcwaitWake core) ++
    [execParkedHelperReturn core, execHelperPark core, execVcoreSwitch core, execArbiterGrant core, execSpillRefill core,
     execDirectoryOverflowRequest core, execStealProbeArrival core, execStealAnswer core, execStampRecordWrite core]

/-- A thief looks for work only where some core holds a task (R330, log 3). -/
def stealMoves (core : Nat) : List (State → Host.Outcome State Fault Refusal) := [execStealSweepBackoff core, execStealProbe core]

/-- The moves of the banks of a core. -/
def bankMoves (s : State) (core : Nat) : State :=
  (List.range 16).foldl (fun s b =>
    let x := s.bank core b
    let pad := padOf core
    let n := core % 8 * 16 + b
    let s := if x.switches.isEmpty then s else moved (execBankSwitchPoint pad n) s
    let s := if x.clearing then moved (execBankClearDone pad n) s else s
    if x.mode == 3 && (!x.waiters.isEmpty && x.count != 0) then moved (execFifoWaitServe pad n) s else s) s

/-- Whether some core holds a task that can be stolen. -/
def anyTask (s : State) : Bool := s.cores.toList.any fun k => !k.deque.isEmpty

/-- What waits at the device's ports goes on, as far as it can: BIRsp of the host, stamped writes, flits of the peer, the device's own
writes, host requests and their completions, headers of images to be resumed (R158, R346, R367, R373, R377, R490). -/
def portMoves (s : State) : State :=
  let s := s.bisnp.foldl (fun s h => moved (execBirsp h) s) s
  let s := if s.quote.isSome then moved execQuoteComplete s else s
  let s := if s.flights.isEmpty then s else (List.range 4).foldl (fun s p => moved (execStampedWriteApply p) s) s
  let s := if s.peerMsgs.isEmpty && s.peerCtrl.isEmpty then s else deliverPeer s
  let s := if s.spillWrote.isEmpty then s else spillRestart s
  let s := if s.devQ.isEmpty then s else devRun s
  let s := if s.hostWait.isEmpty then s else retryHost s
  let s := if s.cxlOpen.isEmpty then s else cxlAnswer s
  if s.resumeReqs.isEmpty then s else resumeRetry s

/-- Everything that the device's own units can do next, one move each, in a fixed order; the banks of a disabled core belong to
their paddock all the same (R28; log 3). -/
def sweep (s : State) : State :=
  let s := portMoves s
  let task := anyTask s
  (List.range 96).foldl (fun s c =>
    if s.enabled c then
      let s := if coreQuiet s c then s else moveAll (coreMoves c) s
      let s := if task then moveAll (stealMoves c) s else s
      bankMoves s c
    else bankMoves s c) s

/-- The contexts of the device in the order in which they take turns after the one that moved last (R67, R68; log 3). -/
def turnOrder (core slot : Nat) : List (Nat × Nat) :=
  let all := ((List.range 96).map fun c => slotList.map fun i => (c, i)).flatten
  let n := core * 11 + (slotList.findIdx fun i => i == slot) + 1
  all.drop n ++ all.take n

/-- The context whose turn it is, if one can execute. -/
def nextCtx (s : State) : Option (Nat × Nat) := (turnOrder s.curCore s.curSlot).find? fun x => canRun s false x.1 x.2

/-! ### Turns (log 3) -/

/-- Steps that stay possible while the clocks are gated: those of the debugger, power-up, and reads through CXL.io
(R386, R387, R487). -/
def ungated : Instr → Bool
  | .stop _ => true
  | .debugResume _ => true
  | .stat _ => true
  | .scan _ => true
  | .rdreg _ => true
  | .wrreg _ => true
  | .rdmem _ => true
  | .wrmem _ => true
  | .tickset _ => true
  | .setbp _ => true
  | .clrbp _ => true
  | .powerUp => true
  | .hostRead pa _ => decide (devBase ≤ pa)
  | _ => false

/-- Whether a turn can be taken now. -/
def Turn.open (t : Turn) (gated : Bool) : Bool :=
  match t with
  | .agent i => !gated || ungated i
  | .capture => true
  | _ => !gated

/-- The first turn that can be taken, and the turns left. -/
def takeTurn (s : State) : Option (Turn × List Turn) := takeFirst (fun t => t.open s.gated) s.turns

/-- A host agent writes host memory: the device gives up the line first (R366; log 17). -/
def hostStore (s : State) (pa : Nat) (bs : List Byte) : State :=
  if regionOf pa = .host ∧ regionOf (pa + bs.length) = .host then
    let lines := (List.range (bs.length / 128 + 2)).map fun i => pa + 128 * i
    let s := lines.foldl (fun s a => moved (execHostSnoop a) s) s
    { s with phys := memWrite s.phys pa bs }
  else s

/-- A turn is taken. -/
noncomputable def doTurn (s : State) : Turn → Host.Outcome State Fault Refusal
  | .ctx core slot => if canRun s true core slot then runCtx s core slot else .next s
  | .agent i => if i.isStep then exec i s else .next s
  | .elapse n => .next (elapse s n)
  | .hostStore pa bs => .next (hostStore s pa bs)
  | .peerStore off bs => .next { s with phys := memWrite s.phys (tandemBase + off) bs }
  | .peerStop t => .next (peerStop s t)
  | .capture => .next (capture s)

/-- What happens where no turn is named: one move of every unit, then an instruction of the next
context that can execute (log 3). -/
noncomputable def doNext (s : State) : Host.Outcome State Fault Refusal :=
  if s.gated then .next s
  else
    let s := sweep s
    match nextCtx s with
    | some (core, slot) => runCtx s core slot
    | none => .next s

/-- One move, before the tick. -/
noncomputable def move (s : State) : Host.Outcome State Fault Refusal :=
  match takeTurn s with
  | some (t, rest) => doTurn { s with turns := rest } t
  | none => doNext s

/-- A move's outcome, with the tick gone on. -/
def ticked (o : Host.Outcome State Fault Refusal) : Host.Outcome State Fault Refusal :=
  match o with
  | .next s => .next (advanceTick s)
  | o => o

/-! ### Placing a word (log 21) -/

/-- Physical address of the translation tables of a placed word: root, level 1, level 2. -/
def placeTables : Nat := 0x10_0000_0000

/-- The tables that map the first GiB of the PID's addresses to the first GiB of HBM, readable, writable, executable
(R125, R126). -/
def placeMap (s : State) (pid : Nat) : State :=
  let root := placeTables
  let l1 := placeTables + 0x1000
  let l2 := placeTables + 0x2000
  let s := physStoreAll s (root + 8 * pid) 8 (natToBytes 8 (l1 + 1))
  let s := physStoreAll s l1 8 (natToBytes 8 (l2 + 1))
  let s := physStoreAll s l2 8 (natToBytes 8 0x1F)
  { s with ptBase := BitVec.ofNat 64 root, tlb := Vector.replicate 16 [] }

/-- The bytes of an instruction stand at address 0 of the moving context's PID, the memory controllers are ready, and the context
executes the instruction next. -/
def placeWord (s : State) (bs : List Byte) : State :=
  let s := physStoreAll (placeMap s s.me.pid) 0 bs.length bs
  let c := { s.cur with st := .live, pc := 0, tv := none, pend := [], wait := .none, stall := none }
  let s := s.setCur c
  let k := { s.me with preempt := none, bps := Vector.replicate 4 none, icache := [], ops := [] }
  { s.setMe k with turns := [.ctx s.curCore s.curSlot], halted := false, ready := s.ready ||| 0x0000_FFFF_0000_0000,
                   dbg := { s.dbg with stopped := false, stopReq := none, atBp := [], pastBp := [] } }

end Sys2Proof.Machine
end

