-- ==== Sys2Proof/Machine/Step.lean ====
section
/-! DEFINITION. One step of the device, and the placing of an instruction where the next step fetches it. -/

namespace Sys2Proof.Machine

/-- One step: one move of the device, and the tick goes on (R383, R384; logs 3, 5). -/
noncomputable def step (s : State) : Host.Outcome State Fault Refusal := ticked (move s)

/-- The state with an instruction of bits `w` placed where the next step fetches it (log 21). -/
def State.withFetchWord (s : State) (nbits w : Nat) : State := placeWord s (natToBytes 20 (w % 2 ^ nbits))

end Sys2Proof.Machine
end

