-- ==== Sys2Proof/Safety.lean ====
section
/-! DEFINITION. What counts as a safe run, in the terms that statements use. -/

namespace Sys2Proof.Machine

/-- An outcome that goes on: no stop of the model. -/
def Goes (o : Host.Outcome State Fault Refusal) : Prop := ∃ t, o = .next t

/-- Every memory of a state has its canonical form (log 1). -/
def State.MemOk (s : State) : Prop := Memory.wf s.phys = true ∧ Memory.wf s.pad = true

/-- A run of `n` steps meets no stop. -/
def SafeFor (s : State) : Nat → Prop
  | 0 => True
  | n + 1 => ∃ t, step s = .next t ∧ SafeFor t n

end Sys2Proof.Machine
end

