-- ==== Sys2Proof/Certificates/Slice0/Obligations.lean ====
section
/-! DEFINITION. The statements for the provers, with the tables and readings they are said in. A statement about an
instruction says, for every state and operand that meets hypotheses on the state and the operands alone, that exec answers a
next state, and what that state holds. The readings below are the statements' own, and name the rule they follow. -/

namespace Sys2Proof.Claims

open Sys2Proof.Machine

/-- Word 2 of an extended form with every common field zero (R178). -/
def noExt : Ext := ⟨0, 0, 0, 0, false, 0, false⟩

/-! ### What stays -/

/-- The moving context is one the device has: a core of the two dies, and h0 to h9 or the control context (R13, R30, R34). -/
def Stands (s : State) : Prop := s.curCore < 96 ∧ (s.curSlot < 10 ∨ s.curSlot = 15)

/-- The encoding's minor version is not newer than the one the context declares (R185). -/
def Admits (s : State) (since : Nat) : Prop := since ≤ s.cur.minor

/-- Every byte of physical memory and of the paddock stores reads as before. -/
def SameMemory (s t : State) : Prop :=
  (∀ a, memGet t.phys a = memGet s.phys a) ∧ (∀ a, memGet t.pad a = memGet s.pad a)

/-- Of a core, only its contexts and its event counters differ. -/
def SameCoreBut (k k' : Core) : Prop := k' = { k with ctl := k'.ctl, hs := k'.hs, ev := k'.ev }

/-- Nothing of the device differs but the moving context, and counter E0 of its core, which counts one more instruction up
to its greatest value (R399). -/
def OnlyContext (s t : State) : Prop :=
  t = { s with cores := t.cores } ∧ (∀ c, c ≠ s.curCore → t.core c = s.core c) ∧ SameCoreBut s.me t.me ∧
    (∀ slot, slot ≠ s.curSlot → t.me.ctx slot = s.me.ctx slot) ∧
    vget t.me.ev 0 0 = min (vget s.me.ev 0 0 + 1) 0xFFFFFFFF ∧ (∀ i, i ≠ 0 → vget t.me.ev i 0 = vget s.me.ev i 0)

/-! ### Windows (R75, R76) -/

/-- Whether an open window closes when the next instruction retires. Those of before a trap stand still while its handler
runs. -/
def closes (p : Pend) : Bool := !p.outer && decide (p.count ≤ 1)

/-- The windows that stay open when the next instruction retires, one instruction shorter. -/
def stillOpen (ps : List Pend) : List Pend :=
  (ps.filter fun p => !closes p).map fun p => if p.outer then p else { p with count := p.count - 1 }

/-- What the closing windows write to a scalar register: the last of them wins. -/
def landsS (ps : List Pend) (r : Nat) : Option Word :=
  ((ps.filter fun p => closes p && !p.isVec && p.reg == r).getLast?).map (·.word)

/-- What they write to a run vector. -/
def landsV (ps : List Pend) (r : Nat) : Option (List Run) :=
  ((ps.filter fun p => closes p && p.isVec && p.reg == r).getLast?).map (·.runs)

/-- What a scalar register reads as after retirement, where the instruction itself leaves `old` in it; s0 reads zero (R8). -/
def thenS (ps : List Pend) (r : Nat) (old : Word) : Word := if r = 0 then 0 else (landsS ps r).getD old

/-- What a run vector holds after retirement. -/
def thenV (ps : List Pend) (r : Nat) (old : List Run) : List Run := (landsV ps r).getD old

/-- Major of a first word (R172). -/
def opMajor (w : Nat) : Nat := w / 4 % 64

/-- What a major and minor alone forbid the moving context (R185, R433, R435): an encoding newer than its code, then an instruction of
the control context in a helper, then a transfer in a slot, then ERET outside a handler. -/
def classTrap (s : State) (major minor : Nat) : Option Trap :=
  let k := Cls.of major minor
  if s.cur.minor < k.since then some (Trap.plain 0x01 0)
  else if k.ctlOnly = true ∧ s.curSlot ≠ 15 then some (Trap.plain 0x01 1)
  else if k.noSlot = true ∧ s.cur.tv.isSome = true then some (Trap.plain 0x01 2)
  else if k.handlerOnly = true ∧ s.cur.inHandler = false then some (Trap.plain 0x01 3)
  else none

/-! ### Operands and latches (R79) -/

/-- The value a source field delivers: s0 to s47, la (0x30) or lb (0x31). -/
def operand (c : Ctx) (n : Nat) : Word :=
  if n = 0 then 0 else if n = 0x30 then c.la else if n = 0x31 then c.lb else vget c.s n 0

/-- A latch after an instruction whose field names `n`, or that has no such field: naming a latch holds it. -/
def latchAfter (c : Ctx) (old : Word) : Option Nat → Word
  | none => old
  | some n => if n = 0x30 ∨ n = 0x31 then old else operand c n

/-! ### What one retired instruction leaves -/

/-- Where the context goes on: at the destination of the transfer whose slot this was, else past the instruction (R213). -/
def goesOn (c : Ctx) (words : Nat) : Word := c.tv.getD (c.pc + BitVec.ofNat 64 (4 * words))

/-- The inline-code buffer is kept while the context runs inside it, and while a handler runs (R54). -/
def codeKept (c : Ctx) : List W32 := if 0xFFFF_FFFF_FFFF_FF00 ≤ c.pc.toNat ∨ c.inHandler = true then c.code else []

/-- Whether a closing window writes a scalar register, or a run vector. -/
def lands (vec : Bool) (ps : List Pend) (r : Nat) : Bool := ps.any fun p => closes p && p.isVec == vec && p.reg == r

/-- When each scalar register and run vector was written last: in this turn, where a closing window writes it or the
instruction itself does (`own`, of run vectors or not), else as before (R396). -/
def Written (s t : State) (ps : List Pend) (own : Bool → Nat → Bool) : Prop :=
  (∀ r, r < 48 → vget t.cur.sw r 0 = if r ≠ 0 ∧ (own false r || lands false ps r) = true then s.cur.now else vget s.cur.sw r 0) ∧
  (∀ r, r < 16 → vget t.cur.vw r 0 = if (own true r || lands true ps r) = true then s.cur.now else vget s.cur.vw r 0)

/-- An instruction that writes no scalar register and no run vector itself. -/
def noOwn : Bool → Nat → Bool := fun _ _ => false

/-- One that writes scalar register `d`. -/
def ownS (d : Nat) : Bool → Nat → Bool := fun vec r => !vec && r == d

/-- One that writes run vector `d`. -/
def ownV (d : Nat) : Bool → Nat → Bool := fun vec r => vec && r == d

/-- Everything of the moving context but its register families and latches, after an instruction of `words` words that
leaves the windows `ps` retires; and when its scalar registers and run vectors were written. -/
def Retired (s t : State) (words : Nat) (ps : List Pend) (own : Bool → Nat → Bool) : Prop :=
  OnlyContext s t ∧
  t.cur = { s.cur with pc := goesOn s.cur words, tv := none, pend := stillOpen ps, code := codeKept s.cur,
                       s := t.cur.s, v := t.cur.v, k := t.cur.k, g := t.cur.g, gres := t.cur.gres, b := t.cur.b, la := t.cur.la,
                       lb := t.cur.lb, sw := t.cur.sw, vw := t.cur.vw, kw := t.cur.kw, gw := t.cur.gw } ∧
  Written s t ps own

/-- The masks are as before. -/
def MasksSame (s t : State) : Prop := t.cur.k = s.cur.k ∧ t.cur.kw = s.cur.kw

/-- The guards are as before. -/
def GuardsSame (s t : State) : Prop := t.cur.g = s.cur.g ∧ t.cur.gres = s.cur.gres ∧ t.cur.gw = s.cur.gw

/-- The families besides the scalar registers: run vectors only by closing windows, masks, guards and branch targets as
before. -/
def OthersSame (s t : State) (ps : List Pend) : Prop :=
  (∀ r, r < 16 → t.cur.vreg r = thenV ps r (s.cur.vreg r)) ∧ MasksSame s t ∧ GuardsSame s t ∧ t.cur.b = s.cur.b

/-- The latches after fields `fa` and `fb` were read (R79). -/
def Latches (s t : State) (fa fb : Option Nat) : Prop :=
  t.cur.la = latchAfter s.cur s.cur.la fa ∧ t.cur.lb = latchAfter s.cur s.cur.lb fb

/-- The instruction retires with `w` in scalar register `d`, and changes no other register itself. -/
def WritesScalar (s t : State) (words d : Nat) (w : Word) (fa fb : Option Nat) : Prop :=
  Retired s t words s.cur.pend (ownS d) ∧ OthersSame s t s.cur.pend ∧ Latches s t fa fb ∧
  ∀ r, r < 48 → t.cur.sreg r = thenS s.cur.pend r (if r = d then w else s.cur.sreg r)

/-- The instruction retires with its result in a window of `n` instructions, which closes at once where `n` is zero
(R75). -/
def PlacesScalar (s t : State) (words n d : Nat) (w : Word) (fa fb : Option Nat) : Prop :=
  let ps := s.cur.pend ++ [{ isVec := false, reg := d, word := w, runs := [], count := n + 1, outer := false }]
  Retired s t words ps noOwn ∧ OthersSame s t ps ∧ Latches s t fa fb ∧
  ∀ r, r < 48 → t.cur.sreg r = thenS ps r (s.cur.sreg r)

/-- The instruction retires with `v` in guard `d`, and changes no other register itself. -/
def WritesGuard (s t : State) (d : Nat) (v : Bool) (fa fb : Option Nat) : Prop :=
  Retired s t 1 s.cur.pend noOwn ∧ Latches s t fa fb ∧
  (∀ r, r < 48 → t.cur.sreg r = thenS s.cur.pend r (s.cur.sreg r)) ∧
  (∀ r, r < 16 → t.cur.vreg r = thenV s.cur.pend r (s.cur.vreg r)) ∧ MasksSame s t ∧ t.cur.b = s.cur.b ∧
  ∀ r, r < 16 → t.cur.guard r = (if r = d then v else s.cur.guard r) ∧
    vget t.cur.gres r true = (if r = d then true else vget s.cur.gres r true) ∧
    vget t.cur.gw r 0 = (if r = d then s.cur.now else vget s.cur.gw r 0)

/-- The instruction retires and changes no register itself but the latches. -/
def WritesNothing (s t : State) (words : Nat) (fa fb : Option Nat) : Prop :=
  Retired s t words s.cur.pend noOwn ∧ OthersSame s t s.cur.pend ∧ Latches s t fa fb ∧
  ∀ r, r < 48 → t.cur.sreg r = thenS s.cur.pend r (s.cur.sreg r)

/-! ### Scalar integers: what R195 to R200 say a result is -/

/-- An instruction of destination and two sources, the minor version that added it, and what R195 to R197 say of its
result. -/
structure TwoSource where
  ins : Nat → Nat → Nat → Instr
  since : Nat
  rel : Word → Word → Word → Prop

/-- The number of pairs of one bits of `y` and `x` whose positions add up to `i` is odd: bit `i` of a carry-less product
(R197). -/
def oddPairs (x y : Word) (i : Nat) : Bool :=
  ((List.range 64).filter fun j => decide (j ≤ i) && y.getLsbD j && x.getLsbD (i - j)).length % 2 == 1

/-- Length of the field that a descriptor names (R196). -/
def lenOfField (y : Word) : Nat := min (y.toNat / 256 % 128) 64

/-- The field: bits above 63 read as zero (R196). -/
def fieldIn (x y : Word) : Nat := x.toNat / 2 ^ (y.toNat % 64) % 2 ^ lenOfField y

/-- R195 to R197, by instruction. -/
def twoSource : List TwoSource :=
  [ ⟨.add, 0, fun x y r => r.toNat = (x.toNat + y.toNat) % 2 ^ 64⟩,
    ⟨.sub, 0, fun x y r => (r.toNat + y.toNat) % 2 ^ 64 = x.toNat⟩,
    ⟨.and, 0, fun x y r => ∀ i, i < 64 → r.getLsbD i = (x.getLsbD i && y.getLsbD i)⟩,
    ⟨.or, 0, fun x y r => ∀ i, i < 64 → r.getLsbD i = (x.getLsbD i || y.getLsbD i)⟩,
    ⟨.xor, 0, fun x y r => ∀ i, i < 64 → r.getLsbD i = (x.getLsbD i != y.getLsbD i)⟩,
    ⟨.andn, 0, fun x y r => ∀ i, i < 64 → r.getLsbD i = (x.getLsbD i && !y.getLsbD i)⟩,
    ⟨.sll, 0, fun x y r => r.toNat = x.toNat * 2 ^ (y.toNat % 64) % 2 ^ 64⟩,
    ⟨.srl, 0, fun x y r => r.toNat = x.toNat / 2 ^ (y.toNat % 64)⟩,
    ⟨.sra, 0, fun x y r => r.toInt = x.toInt / 2 ^ (y.toNat % 64)⟩,
    ⟨.ror, 0, fun x y r => ∀ i, i < 64 → r.getLsbD i = x.getLsbD ((i + y.toNat % 64) % 64)⟩,
    ⟨.mul, 0, fun x y r => r.toNat = x.toNat * y.toNat % 2 ^ 64⟩,
    ⟨.mulhI64, 0, fun x y r => r.toInt = x.toInt * y.toInt / 2 ^ 64⟩,
    ⟨.mulhN64, 0, fun x y r => r.toNat = x.toNat * y.toNat / 2 ^ 64⟩,
    ⟨.minI64, 0, fun x y r => r.toInt = min x.toInt y.toInt⟩,
    ⟨.minN64, 0, fun x y r => r.toNat = min x.toNat y.toNat⟩,
    ⟨.maxI64, 0, fun x y r => r.toInt = max x.toInt y.toInt⟩,
    ⟨.maxN64, 0, fun x y r => r.toNat = max x.toNat y.toNat⟩,
    ⟨.clmulN64, 1, fun x y r => ∀ i, i < 64 → r.getLsbD i = oddPairs x y i⟩,
    ⟨.clmulhN64, 1, fun x y r => ∀ i, i < 64 → r.getLsbD i = oddPairs x y (64 + i)⟩,
    ⟨.extN64, 0, fun x y r => r.toNat = fieldIn x y⟩,
    ⟨.extI64, 0, fun x y r =>
      let w := lenOfField y
      r.toInt = if w ≠ 0 ∧ 2 ^ (w - 1) ≤ fieldIn x y then (fieldIn x y : Int) - 2 ^ w else fieldIn x y⟩ ]

/-- An instruction of destination and one source, its length, and what its result is. -/
structure OneSource where
  ins : Nat → Nat → Instr
  words : Nat
  rel : Word → Word → Prop

/-- R195, by instruction. -/
def oneSource : List OneSource :=
  [ ⟨.popcN64, 1, fun x r => r.toNat = ((List.range 64).filter x.getLsbD).length⟩,
    ⟨.clzN64, 1, fun x r => r.toNat ≤ 64 ∧ (∀ i, 64 - r.toNat ≤ i → x.getLsbD i = false) ∧
      (r.toNat < 64 → x.getLsbD (63 - r.toNat) = true)⟩,
    ⟨.ctzN64, 1, fun x r => r.toNat ≤ 64 ∧ (∀ i, i < r.toNat → x.getLsbD i = false) ∧ (r.toNat < 64 → x.getLsbD r.toNat = true)⟩,
    ⟨.bswapN64, 1, fun x r => ∀ i, i < 8 → r.toNat / 256 ^ i % 256 = x.toNat / 256 ^ (7 - i) % 256⟩,
    ⟨.sxtI8, 1, fun x r => r.toInt = (x.toInt + 2 ^ 7) % 2 ^ 8 - 2 ^ 7⟩,
    ⟨.sxtI16, 1, fun x r => r.toInt = (x.toInt + 2 ^ 15) % 2 ^ 16 - 2 ^ 15⟩,
    ⟨.sxtI32, 1, fun x r => r.toInt = (x.toInt + 2 ^ 31) % 2 ^ 32 - 2 ^ 31⟩,
    ⟨.zxtN8, 1, fun x r => r.toNat = x.toNat % 2 ^ 8⟩,
    ⟨.zxtN16, 1, fun x r => r.toNat = x.toNat % 2 ^ 16⟩,
    ⟨.zxtN32, 1, fun x r => r.toNat = x.toNat % 2 ^ 32⟩ ]

/-- R175 and R198, by instruction: the immediate is the field's two's-complement value, in every form. -/
def withImmediate (i : BitVec 12) (l : BitVec 32) (q : BitVec 64) (n : Nat) : List OneSource :=
  let add (v : Int) (x r : Word) : Prop := r.toNat = (x.toNat + v) % 2 ^ 64
  let bits (f : Bool → Bool → Bool) (v : Int) (x r : Word) : Prop :=
    ∀ j, j < 64 → r.getLsbD j = f (x.getLsbD j) (v / 2 ^ j % 2 == 1)
  [ ⟨fun d a => .addi i a d, 1, add i.toInt⟩, ⟨fun d a => .addiLit32 l a d, 2, add l.toInt⟩,
    ⟨fun d a => .addiLit64 q a d, 3, add q.toInt⟩,
    ⟨fun d a => .andi i a d, 1, bits (· && ·) i.toInt⟩, ⟨fun d a => .andiLit32 l a d, 2, bits (· && ·) l.toInt⟩,
    ⟨fun d a => .andiLit64 q a d, 3, bits (· && ·) q.toInt⟩,
    ⟨fun d a => .ori i a d, 1, bits (· || ·) i.toInt⟩, ⟨fun d a => .oriLit32 l a d, 2, bits (· || ·) l.toInt⟩,
    ⟨fun d a => .oriLit64 q a d, 3, bits (· || ·) q.toInt⟩,
    ⟨fun d a => .xori i a d, 1, bits (· != ·) i.toInt⟩, ⟨fun d a => .xoriLit32 l a d, 2, bits (· != ·) l.toInt⟩,
    ⟨fun d a => .xoriLit64 q a d, 3, bits (· != ·) q.toInt⟩,
    ⟨fun d a => .slli n a d, 1, fun x r => r.toNat = x.toNat * 2 ^ n % 2 ^ 64⟩,
    ⟨fun d a => .srli n a d, 1, fun x r => r.toNat = x.toNat / 2 ^ n⟩,
    ⟨fun d a => .srai n a d, 1, fun x r => r.toInt = x.toInt / 2 ^ n⟩,
    ⟨fun d a => .rori n a d, 1, fun x r => ∀ j, j < 64 → r.getLsbD j = x.getLsbD ((j + n) % 64)⟩ ]

/-- R200 and R203, by instruction of two sources: its result. -/
structure LongResult where
  ins : Nat → Nat → Nat → Nat → Instr
  rel : Word → Word → Word → Prop

/-- Divisions and remainders: all ones or the dividend for a zero divisor; truncation toward zero, the remainder with the
sign of the dividend, and the one quotient that does not fit wraps (R200). -/
def longResults : List LongResult :=
  [ ⟨.divN64, fun x y r => if y = 0 then r = BitVec.allOnes 64 else r.toNat = x.toNat / y.toNat⟩,
    ⟨.remN64, fun x y r => if y = 0 then r = x else r.toNat = x.toNat % y.toNat⟩,
    ⟨.divI64, fun x y r => if y = 0 then r = BitVec.allOnes 64
      else if x = BitVec.intMin 64 ∧ y = BitVec.allOnes 64 then r = BitVec.intMin 64
      else r.toInt = Int.tdiv x.toInt y.toInt⟩,
    ⟨.remI64, fun x y r => if y = 0 then r = x else r.toInt = Int.tmod x.toInt y.toInt⟩,
    ⟨.fdivF32, fun x y r => r.toNat = rneF32 ((f32 (x.toNat % 2 ^ 32)).div (f32 (y.toNat % 2 ^ 32)))⟩ ]

/-! ### Scalar floating point (R201, R202) -/

/-- FP32 value of the low 32 bits of a register (R192). -/
def fv (w : Word) : FVal := f32 (w.toNat % 2 ^ 32)

/-- An FP32 result: its code in the low 32 bits, the others zero (R192). -/
def isF32 (v : FVal) (r : Word) : Prop := r.toNat = rneF32 v

/-- R202 of two sources. -/
def floatTwo : List TwoSource :=
  [ ⟨.faddF32, 0, fun x y r => isF32 ((fv x).add (fv y)) r⟩,
    ⟨.fsubF32, 0, fun x y r => isF32 ((fv x).add (fv y).neg) r⟩,
    ⟨.fmulF32, 0, fun x y r => isF32 ((fv x).mul (fv y)) r⟩,
    ⟨.fminF32, 0, fun x y r => isF32 ((fv x).min (fv y)) r⟩,
    ⟨.fmaxF32, 0, fun x y r => isF32 ((fv x).max (fv y)) r⟩ ]

/-- R202 of one source. -/
def floatOne : List OneSource :=
  [ ⟨.fabsF32, 1, fun x r => r.toNat = if (fv x).isNan then 0x7FC00000 else x.toNat % 2 ^ 31⟩,
    ⟨.fnegF32, 1, fun x r => r.toNat = if (fv x).isNan then 0x7FC00000 else (x.toNat + 2 ^ 31) % 2 ^ 32⟩,
    ⟨.fcvtF32I64, 1, fun x r => isF32 (.ofIntExact x.toInt) r⟩,
    ⟨.fcvtF32N64, 1, fun x r => isF32 (.ofIntExact x.toNat) r⟩,
    ⟨.fcvtI64F32, 1, fun x r => r.toNat = (fv x).toInt .rne true 64⟩,
    ⟨.fcvtN64F32, 1, fun x r => r.toNat = (fv x).toInt .rne false 64⟩,
    ⟨.fcvtzI64F32, 1, fun x r => r.toNat = (fv x).toInt .rtz true 64⟩,
    ⟨.fcvtzN64F32, 1, fun x r => r.toNat = (fv x).toInt .rtz false 64⟩,
    ⟨.fcvtB16F32, 1, fun x r => r.toNat = fmtB16.round .rne (fv x)⟩,
    ⟨.fcvtF32B16, 1, fun x r => isF32 (fmtB16.decode (x.toNat % 2 ^ 16)) r⟩,
    ⟨.fcvtH16F32, 1, fun x r => r.toNat = fmtH16.round .rne (fv x)⟩,
    ⟨.fcvtF32H16, 1, fun x r => isF32 (fmtH16.decode (x.toNat % 2 ^ 16)) r⟩ ]

/-! ### Compares and guards (R204 to R207) -/

/-- A compare of two registers and its condition. -/
structure Compare where
  ins : Nat → Nat → Nat → Instr
  cond : Word → Word → Bool

/-- R204 and R206. -/
def compares : List Compare :=
  [ ⟨.cmpEq, fun x y => decide (x.toNat = y.toNat)⟩, ⟨.cmpNe, fun x y => decide (x.toNat ≠ y.toNat)⟩,
    ⟨.cmpLtI64, fun x y => decide (x.toInt < y.toInt)⟩, ⟨.cmpLtN64, fun x y => decide (x.toNat < y.toNat)⟩,
    ⟨.cmpGeI64, fun x y => decide (y.toInt ≤ x.toInt)⟩, ⟨.cmpGeN64, fun x y => decide (y.toNat ≤ x.toNat)⟩,
    ⟨.cmpTst, fun x y => (List.range 64).any fun i => x.getLsbD i && y.getLsbD i⟩,
    ⟨.cmpNtst, fun x y => (List.range 64).all fun i => !(x.getLsbD i && y.getLsbD i)⟩,
    ⟨.fcmpgEqF32, fun x y => (fv x).eqNum (fv y)⟩, ⟨.fcmpgNeF32, fun x y => !(fv x).eqNum (fv y)⟩,
    ⟨.fcmpgLtF32, fun x y => (fv x).ltNum (fv y)⟩, ⟨.fcmpgLeF32, fun x y => (fv x).ltNum (fv y) || (fv x).eqNum (fv y)⟩,
    ⟨.fcmpgUnF32, fun x y => (fv x).isNan || (fv y).isNan⟩ ]

/-- The immediate of a CMPI, by its condition (R205): signed for conditions 0, 1, 2 and 4, unsigned for the others. -/
def cmpImmediate (cond : Nat) (i : BitVec 8) : Word :=
  BitVec.ofInt 64 (if cond = 3 ∨ 5 ≤ cond then (i.toNat : Int) else i.toInt)

/-- A guard-logic instruction and its effect (R207). -/
structure GuardLogic where
  ins : Nat → Nat → Nat → Instr
  val : Bool → Bool → Bool

/-- R207. -/
def guardLogic : List GuardLogic :=
  [ ⟨.gand, fun x y => x && y⟩, ⟨.gor, fun x y => x || y⟩, ⟨.gxor, fun x y => x != y⟩, ⟨.gandn, fun x y => x && !y⟩,
    ⟨fun d a _ => .gnot d a, fun x _ => !x⟩ ]

end Sys2Proof.Claims

namespace Sys2Proof.Claims

open Sys2Proof.Machine

/-! ### Transfers and branch targets (R209 to R213) -/

/-- The instruction retires with `bt` in branch-target register `n`, and changes no other register itself but latches. -/
def WritesTarget (s t : State) (words n : Nat) (bt : BTarget) (fa : Option Nat) : Prop :=
  Retired s t words s.cur.pend noOwn ∧ Latches s t fa none ∧
  (∀ r, r < 48 → t.cur.sreg r = thenS s.cur.pend r (s.cur.sreg r)) ∧
  (∀ r, r < 16 → t.cur.vreg r = thenV s.cur.pend r (s.cur.vreg r)) ∧ MasksSame s t ∧ GuardsSame s t ∧
  ∀ r, r < 8 → vget t.cur.b r BTarget.clear = if r = n then bt else vget s.cur.b r BTarget.clear

/-- A prepared target: its address, valid, with the tags of the moving context and of its code version, and what its prefetch
holds (R8, R209, R210). -/
def prepared (u : State) (a : Word) (pre : Option Nat) : BTarget := ⟨a, true, u.curSlot, u.cur.major, u.cur.minor, pre⟩

/-- A transfer retires: the slot is next, `dest` is held for after it, and no register changes itself. -/
def Transferred (s t : State) (dest : Word) : Prop :=
  OnlyContext s t ∧
  t.cur = { s.cur with pc := s.cur.pc + 4, tv := some dest, pend := stillOpen s.cur.pend, code := codeKept s.cur,
                       s := t.cur.s, v := t.cur.v, sw := t.cur.sw, vw := t.cur.vw } ∧
  Written s t s.cur.pend noOwn ∧
  (∀ r, r < 48 → t.cur.sreg r = thenS s.cur.pend r (s.cur.sreg r)) ∧
  (∀ r, r < 16 → t.cur.vreg r = thenV s.cur.pend r (s.cur.vreg r))

/-- An address that a fetch can take: canonical and a multiple of 4 (R210, R434). -/
def goodTarget (a : Word) : Prop := ((a.setWidth 48).signExtend 64 = a) ∧ a.toNat % 4 = 0

/-- The transfers through a named register, and whether the guards make them go there. -/
structure Transfer where
  ins : Nat → Nat → Instr
  taken : Ctx → Nat → Bool

/-- R212: the target register comes first, then the guard. RET goes through b7. -/
def transfers : List Transfer :=
  [ ⟨fun b _ => .jmp b, fun _ _ => true⟩, ⟨fun b g => .jmpt g b, fun c g => c.guard g⟩,
    ⟨fun b g => .jmpf g b, fun c g => !c.guard g⟩ ]

/-! ### Fences and flushes (R149, R223, R225) -/

/-- A FENCE that its context has passed, among the posted stores of its core: it stands before the younger ones, and with FULL
before the younger loads (R149, R223; log 9). -/
def fenceMark (u : State) (scope : Nat) (full : Bool) : Posted :=
  { slot := u.curSlot, pt := false, form := .scalar, born := u.tick, ctxid := u.ctxid u.curCore u.curSlot, pid := u.me.pid,
    pc := u.cur.pc, space := 0, addr := 0, bytes := [], dest := .fence scope full, also := [] }

/-- FLUSH is done with the lines of a PID from `lo` to `hi` on a die: a kept line has no dirty byte, unless it has failed, and
one that is not kept is gone (R225, R455). -/
def FlushDone (v : State) (die pid lo hi : Nat) (keep : Bool) : Prop :=
  ∀ l ∈ v.l2Of die, l.pid = pid → lo ≤ l.vln → l.vln ≤ hi → keep = true ∧ (l.dirty.any id = true → l.bad ≠ [])

/-! ### Bytes (R4) -/

/-- The number that `n` bytes make, the first the least significant. -/
def littleEndian (f : Nat → Byte) : Nat → Nat
  | 0 => 0
  | n + 1 => (f 0).toNat + 256 * littleEndian (fun i => f (i + 1)) n

/-- The value of a load of `n` bytes: extended by zeros, or by its sign bit (R216, R217). -/
def loaded (signed : Bool) (n v : Nat) : Word :=
  if signed = true ∧ 2 ^ (8 * n - 1) ≤ v then BitVec.ofInt 64 ((v : Int) - 2 ^ (8 * n)) else BitVec.ofNat 64 v

/-- Byte `i` of a stored value. -/
def storedByte (w : Word) (i : Nat) : Byte := BitVec.ofNat 8 (w.toNat / 256 ^ i)

/-- Where byte `a` of a core's LOCAL space stands among the bytes of the paddock stores: core `c` is home of the two
mebibytes from c × 2^21 (R110). -/
def localAt (c a : Nat) : Nat := c * 2 ^ 21 + a

/-- An aligned LOCAL access of the moving context meets nothing but a PAD bank of its own process: no switch of the bank is
on its way and none is being cleared, it holds no directory overflow area, and no posted store of the core goes to it (R109,
R110, R112, R116). -/
def PadClear (s : State) (a n : Nat) : Prop :=
  a + n ≤ 2 ^ 21 ∧ a % n = 0 ∧
  let b := s.bank s.curCore (a / 2 ^ 17)
  b.mode = 1 ∧ b.pid = s.me.pid ∧ b.switches = [] ∧ b.clearing = false ∧
  (wbit s.me.dirArea 63 = false ∨ wfld s.me.dirArea 20 17 ≠ a / 2 ^ 17) ∧
  ∀ p ∈ s.me.posted, Posted.toBank s.curCore (a / 2 ^ 17) p = false

/-- No byte of a LOCAL range lies in a failing word (R454). -/
def NoFailing (s : State) (a n : Nat) : Prop :=
  ∀ i, i < n → s.padBad.contains (localAt s.curCore (a + i) / 8 * 8) = false

/-- The bytes of a LOCAL range become those of a value, every other byte of the device reads as before, and a failing word
that is written whole is good again (R454). -/
def LocalWritten (s u : State) (a n : Nat) (w : Word) : Prop :=
  u = { s with pad := u.pad, padBad := u.padBad } ∧
  (∀ k, memGet u.pad k =
    if localAt s.curCore a ≤ k ∧ k < localAt s.curCore a + n then storedByte w (k - localAt s.curCore a) else memGet s.pad k) ∧
  u.padBad = if n = 8 then s.padBad.filter (· != localAt s.curCore a) else s.padBad

/-! ### The forms of loads, stores and atomics (R216, R217, R220) -/

/-- A load of format M: its space, log2 of its size, its extension. -/
structure LoadM where
  ins : BitVec 8 → Nat → Nat → Nat → Instr
  space : Nat
  lg : Nat
  signed : Bool

/-- R216. -/
def loadsM : List LoadM :=
  [ ⟨.ldl64, 0, 3, false⟩, ⟨.ldli32, 0, 2, true⟩, ⟨.ldln32, 0, 2, false⟩,
    ⟨.ldg64, 2, 3, false⟩, ⟨.ldgi32, 2, 2, true⟩, ⟨.ldgn32, 2, 2, false⟩ ]

/-- A store of format M. -/
structure StoreM where
  ins : BitVec 8 → Nat → Nat → Instr
  space : Nat
  lg : Nat

/-- R216. -/
def storesM : List StoreM := [⟨.stl64, 0, 3⟩, ⟨.stl32, 0, 2⟩, ⟨.stg64, 2, 3⟩, ⟨.stg32, 2, 2⟩]

/-- A MEMX load. -/
structure LoadX where
  ins : Nat → Nat → Nat → Nat → Addr → Ext → Instr
  lg : Nat
  signed : Bool

/-- R217. -/
def loadsX : List LoadX :=
  [ ⟨.memxLdI8, 0, true⟩, ⟨.memxLdN8, 0, false⟩, ⟨.memxLdI16, 1, true⟩, ⟨.memxLdN16, 1, false⟩, ⟨.memxLdI32, 2, true⟩,
    ⟨.memxLdN32, 2, false⟩, ⟨.memxLdI64, 3, false⟩ ]

/-- A MEMX store. -/
structure StoreX where
  ins : Nat → Nat → Addr → Ext → Instr
  lg : Nat

/-- R217. -/
def storesX : List StoreX := [⟨.memxStI8, 0⟩, ⟨.memxStI16, 1⟩, ⟨.memxStI32, 2⟩, ⟨.memxStI64, 3⟩]

/-- Effective address of a format M access: the base plus the signed 8-bit immediate times the size (R175). -/
def addressM (base : Word) (i : BitVec 8) (lg : Nat) : Word := BitVec.ofInt 64 (base.toInt + i.toInt * 2 ^ lg)

/-- The offset of an extended form: 32 bits, signed, or a literal of 64 bits (R179). -/
def offsetOf : Off → Int
  | .disp d => d.toInt
  | .lit l => l.toInt

/-- Length in words of an extended form, with its literal (R178, R179). -/
def extWords : Off → Nat
  | .disp _ => 3
  | .lit _ => 5

/-- Effective address of a MEMX load: base, index times 2^ISCALE, offset (R179). -/
def addressX (base idx : Word) (iscale : Nat) (o : Off) : Word :=
  BitVec.ofInt 64 (base.toInt + idx.toInt * 2 ^ iscale + offsetOf o)

/-- An atomic of R220: the value it writes, from the old value and the operand, both numbers of `w` bits; and whether a 4-byte
old value is extended by its sign. ACAS names its compare register besides. -/
structure Atomic where
  ins : Nat → Nat → Nat → Bool → Addr → Ext → Instr
  signed : Bool
  new : Nat → Nat → Nat → Nat

/-- The two's-complement value of a number of `w` bits. -/
def signedOf (w v : Nat) : Int := if 2 ^ (w - 1) ≤ v then (v : Int) - 2 ^ w else v

/-- R220, but for ACAS and AFADD.f32. -/
def atomics : List Atomic :=
  [ ⟨.aswp, false, fun _ _ v => v⟩, ⟨.aadd, false, fun w o v => (o + v) % 2 ^ w⟩, ⟨.aand, false, fun _ o v => o &&& v⟩,
    ⟨.aor, false, fun _ o v => o ||| v⟩, ⟨.axor, false, fun _ o v => o ^^^ v⟩,
    ⟨.aminI, true, fun w o v => if signedOf w v < signedOf w o then v else o⟩, ⟨.aminN, false, fun _ o v => min o v⟩,
    ⟨.amaxI, true, fun w o v => if signedOf w o < signedOf w v then v else o⟩, ⟨.amaxN, false, fun _ o v => max o v⟩ ]

/-- Where a scalar access faults before it is performed: `y` is the state in which its wait and its release are done, `acc` 1 a load, 2 a
store, 3 an atomic. In the order of R431: alignment, space, the form that a FIFO bank takes, the kind that a GLOBAL target takes, then
bank mode, PID and page permission, for a page that the die's station holds and maps in HBM (R109, R116, R128, R218, R431, R433, R436,
R444, R445, R449). -/
def AccessFaults (i : Instr) (s y : State) (space csel lg acc : Nat) (ea : Word) : Prop :=
  let z := settleFor y y.who space csel ea
  let n := 2 ^ lg
  let faults (t : Trap) : Prop := exec i s = .next (z.fault t)
  let ok : Prop := if space = 0 then ea.toNat < 2 ^ 21 else if space = 1 then ea.toNat < 2 ^ 24 else (ea.setWidth 48).signExtend 64 = ea
  (ea.toNat % n ≠ 0 → faults (Trap.at 0x07 lg acc ea)) ∧
  (ea.toNat % n = 0 → ¬ ok → faults (Trap.at 0x08 1 acc ea)) ∧
  (ea.toNat % n = 0 → ok → space < 2 →
    let k := padOfAddr z.curCore space csel ea
    let b := z.bank (keyHome k) (keyBank k)
    (b.mode = 3 → acc = 3 → faults (Trap.at 0x09 0x0400 3 ea)) ∧
    (b.mode = 3 → acc ≠ 3 → 8 * 2 ^ b.esize ≠ n → faults (Trap.at 0x07 (3 + b.esize) acc ea)) ∧
    (b.switches = [] → b.clearing = false →
      (b.mode ≠ 1 → b.mode ≠ 3 → faults (Trap.at 0x08 (b.mode * 2 ^ 8 + 8) acc ea)) ∧
      (b.mode = 1 → z.curSlot ≠ 9 → b.pid ≠ z.me.pid → faults (Trap.at 0x09 0x20 acc ea)) ∧
      (b.mode = 1 → z.curSlot ≠ 9 → b.pid = z.me.pid → isDirArea z (keyHome k) (keyBank k) = true → faults (Trap.at 0x09 0x40 acc ea)))) ∧
  (ea.toNat % n = 0 → ok → 2 ≤ space →
    let va := ea.toNat % 2 ^ 48
    ∀ te, (z.station (stationOf (z.curCore / 48) z.me.pid va)).find? (·.hits z.me.pid va) = some te →
      let pa := wfld te.leaf 45 16 * 65536 + va % 2 ^ te.size
      (acc = 3 → te.leaf.getLsbD 6 = true ∨ regionOf pa ∈ [.host, .tandem, .device] → faults (Trap.at 0x09 0x0400 3 ea)) ∧
      (te.leaf.getLsbD 6 = false → pa < 0x47_B800_0000 →
        let rd := if te.leaf.getLsbD 2 then 0 else 4
        let wr := if te.leaf.getLsbD 3 then 0 else 8
        (acc = 1 → rd ≠ 0 → faults (Trap.at 0x09 4 1 ea)) ∧ (acc = 2 → wr ≠ 0 → faults (Trap.at 0x09 8 2 ea)) ∧
        (acc = 3 → rd + wr ≠ 0 → faults (Trap.at 0x09 (rd + wr) 3 ea))))

/-- Whether an extended form executes: unguarded, or its guard holds (R71, R432). -/
def Executes (s : State) (x : Ext) : Prop := x.g = false ∨ s.cur.guard x.gslot ≠ x.ginv

end Sys2Proof.Claims

namespace Sys2Proof.Claims

open Sys2Proof.Machine

/-! ### Run vectors and masks, element by element (R227 to R231) -/

/-- LEN of a run vector. -/
def lenV (rs : List Run) : Nat := (rs.map (·.len)).sum

/-- Element `e` of a run vector: zero from its length on, as R230 extends a source. -/
def el : List Run → Nat → Nat
  | [], _ => 0
  | r :: rs, e => if e < r.len then r.val.toNat else el rs (e - r.len)

/-- LEN of a mask register's runs. -/
def lenK (rs : List KRun) : Nat := (rs.map (·.len)).sum

/-- Element `e` of a mask register's runs: false from its length on. -/
def elK : List KRun → Nat → Bool
  | [], _ => false
  | r :: rs, e => if e < r.len then r.val else elK rs (e - r.len)

/-- Mask `n` as a named operand: k0 is 2^22 true elements (R228). -/
def maskEl (c : Ctx) (n e : Nat) : Bool := if n = 0 then decide (e < 2 ^ 22) else elK (vget c.k n []) e

/-- Length of mask `n`. -/
def maskLen (c : Ctx) (n : Nat) : Nat := if n = 0 then 2 ^ 22 else lenK (vget c.k n [])

/-- Whether an element is active under a prefix mask; k0 masks nothing (R231). -/
def active (c : Ctx) (mask e : Nat) : Bool := mask == 0 || elK (vget c.k mask []) e

/-- The instruction retires with a run vector that satisfies `P` in register `d`, and changes no other register itself. -/
def WritesVector (s t : State) (words d : Nat) (P : List Run → Prop) (fa fb : Option Nat) : Prop :=
  Retired s t words s.cur.pend (ownV d) ∧ Latches s t fa fb ∧
  (∀ r, r < 48 → t.cur.sreg r = thenS s.cur.pend r (s.cur.sreg r)) ∧ MasksSame s t ∧ GuardsSame s t ∧ t.cur.b = s.cur.b ∧
  ∃ x, P x ∧ ∀ r, r < 16 → t.cur.vreg r = thenV s.cur.pend r (if r = d then x else s.cur.vreg r)

/-- The instruction retires with its vector result in a window of `n` instructions (R75). -/
def PlacesVector (s t : State) (words n d : Nat) (P : List Run → Prop) (fa fb : Option Nat) : Prop :=
  ∃ x, P x ∧
    let ps := s.cur.pend ++ [{ isVec := true, reg := d, word := 0, runs := x, count := n + 1, outer := false }]
    Retired s t words ps noOwn ∧ OthersSame s t ps ∧ Latches s t fa fb ∧ ∀ r, r < 48 → t.cur.sreg r = thenS ps r (s.cur.sreg r)

/-- The instruction retires with runs that satisfy `P` in mask `d`, k0 keeping its meaning, and changes no other register
itself. -/
def WritesMask (s t : State) (words d : Nat) (P : List KRun → Prop) (fa fb : Option Nat) : Prop :=
  Retired s t words s.cur.pend noOwn ∧ Latches s t fa fb ∧
  (∀ r, r < 48 → t.cur.sreg r = thenS s.cur.pend r (s.cur.sreg r)) ∧
  (∀ r, r < 16 → t.cur.vreg r = thenV s.cur.pend r (s.cur.vreg r)) ∧ GuardsSame s t ∧ t.cur.b = s.cur.b ∧
  (∀ r, r < 8 → vget t.cur.kw r 0 = if r = d ∧ d ≠ 0 then s.cur.now else vget s.cur.kw r 0) ∧
  ∃ x, P x ∧ ∀ r, r < 8 → vget t.cur.k r [] = if r = d ∧ d ≠ 0 then x else vget s.cur.k r []

/-- Length in words with or without a prefix (R176). -/
def prefixWords (p : Pfx) : Nat := if p.present then 2 else 1

/-- No run of a vector or mask register of the context is empty, as R227 and R228 say of every run. -/
def Solid (c : Ctx) : Prop :=
  (∀ i, i < 16 → ∀ r ∈ c.vreg i, r.len ≠ 0) ∧ ∀ i, i < 8 → ∀ r ∈ vget c.k i [], r.len ≠ 0

/-- Lengths from 1 to 65,536, and a run whose successor has its value is full: the canonical form (R104). -/
def CanonicalRuns {α : Type} (rs : List (α × Nat)) : Prop :=
  (∀ r ∈ rs, 1 ≤ r.2 ∧ r.2 ≤ 65536) ∧ ∀ xs x y ys, rs = xs ++ x :: y :: ys → x.1 = y.1 → x.2 = 65536

/-- A vector result in canonical form, where the runs it is made from are not empty (R232). -/
def Canonical (c : Ctx) (x : List Run) : Prop := Solid c → CanonicalRuns (x.map fun r => (r.val, r.len))

/-- A mask result in canonical form (R228, R232). -/
def CanonicalK (c : Ctx) (x : List KRun) : Prop := Solid c → CanonicalRuns (x.map fun r => (r.val, r.len))

/-- A result of more runs than the limit is the fault FLT_RUNOVF instead, with the number of runs, up to 511, and nothing is written
(R233, R433). -/
def Overflows {α : Type} (s : State) (limit : Nat) (i : Instr) (r : Except Trap α) : Prop :=
  ∀ t, r = .error t → exec i s = .next (s.fault t) ∧ ∃ n, limit < n ∧ t = Trap.plain 0x04 (min n 511)

/-- Where a register value is out of range that field b of a vector or mask instruction names (R433). -/
def fieldB (p : Pfx) : Nat := if p.present then 0x8108 else 0x8008

/-- What an element-wise result of length `n` holds: the result of the active elements, and for the others zero, or what the
destination held (R231). -/
def Elementwise (c : Ctx) (p : Pfx) (n : Nat) (f : Nat → Nat) (old : List Run) (x : List Run) : Prop :=
  lenV x = n ∧ x.length ≤ 64 ∧
  ∀ e, e < n → el x e = (if active c p.mask e then f e else if p.zero then 0 else el old e) % 2 ^ 32

/-- The same for a mask result, which has at most 128 runs, in canonical form (R228, R232). -/
def ElementwiseK (c : Ctx) (p : Pfx) (n : Nat) (f : Nat → Bool) (old : Nat → Bool) (x : List KRun) : Prop :=
  lenK x = n ∧ x.length ≤ 128 ∧ CanonicalK c x ∧
  ∀ e, e < n → elK x e = if active c p.mask e then f e else if p.zero then false else old e

/-- An instruction of two run vectors and what it does to a pair of elements. -/
structure VecTwo where
  ins : Nat → Nat → Nat → Pfx → Instr
  op : Pfx → Nat → Nat → Nat

/-- The low `n` bits of the two elements, and the result's (R229). -/
def lowBits (n : Nat) (f : Nat → Nat → Int) (x y : Nat) : Nat := (f (x % 2 ^ n) (y % 2 ^ n) % 2 ^ n).toNat

/-- A value held to the range of `n` bits. -/
def held (signed : Bool) (n : Nat) (v : Int) : Int :=
  if signed then max (-2 ^ (n - 1)) (min (2 ^ (n - 1) - 1) v) else max 0 (min (2 ^ n - 1) v)

/-- R237, at width `n` = 8 × 2^w. -/
def vecInts (w : Nat) : List VecTwo :=
  let n := 8 * 2 ^ w
  let i := signedOf n
  [ ⟨.vadd w, fun _ => lowBits n fun x y => (x + y : Int)⟩, ⟨.vsub w, fun _ => lowBits n fun x y => (x - y : Int)⟩,
    ⟨.vmul w, fun _ => lowBits n fun x y => (x * y : Int)⟩,
    ⟨.vminI w, fun _ => lowBits n fun x y => min (i x) (i y)⟩, ⟨.vminN w, fun _ => lowBits n fun x y => min (x : Int) y⟩,
    ⟨.vmaxI w, fun _ => lowBits n fun x y => max (i x) (i y)⟩, ⟨.vmaxN w, fun _ => lowBits n fun x y => max (x : Int) y⟩,
    ⟨.vand w, fun _ => lowBits n fun x y => (x &&& y : Nat)⟩, ⟨.vor w, fun _ => lowBits n fun x y => (x ||| y : Nat)⟩,
    ⟨.vxor w, fun _ => lowBits n fun x y => (x ^^^ y : Nat)⟩,
    ⟨.vsll w, fun _ => lowBits n fun x y => (x * 2 ^ (y % n) : Int)⟩, ⟨.vsrl w, fun _ => lowBits n fun x y => (x / 2 ^ (y % n) : Int)⟩,
    ⟨.vsra w, fun _ => lowBits n fun x y => i x / 2 ^ (y % n)⟩,
    ⟨.vaddsI w, fun _ => lowBits n fun x y => held true n (i x + i y)⟩,
    ⟨.vaddsN w, fun _ => lowBits n fun x y => held false n (x + y : Int)⟩,
    ⟨.vsubsN w, fun _ => lowBits n fun x y => held false n (x - y : Int)⟩ ]

/-- An FP32 result in the prefix's rounding mode (R239). -/
def rounded (p : Pfx) (v : FVal) : Nat := fmtF32.round (Rnd.of p.round) v

/-- R239, of two sources. -/
def vecFloats : List VecTwo :=
  [ ⟨.vfaddF32, fun p x y => rounded p ((f32 x).add (f32 y))⟩, ⟨.vfsubF32, fun p x y => rounded p ((f32 x).add (f32 y).neg)⟩,
    ⟨.vfmulF32, fun p x y => rounded p ((f32 x).mul (f32 y))⟩, ⟨.vfminF32, fun p x y => rounded p ((f32 x).min (f32 y))⟩,
    ⟨.vfmaxF32, fun p x y => rounded p ((f32 x).max (f32 y))⟩ ]

/-- An instruction of one run vector. -/
structure VecOne where
  ins : Nat → Nat → Pfx → Instr
  op : Pfx → Nat → Nat

/-- R239 and R241, of one source. -/
def vecOnes : List VecOne :=
  [ ⟨.vmov, fun _ x => x⟩,
    ⟨.vfabsF32, fun _ x => if (f32 x).isNan then 0x7FC00000 else x % 2 ^ 31⟩,
    ⟨.vfnegF32, fun _ x => if (f32 x).isNan then 0x7FC00000 else (x + 2 ^ 31) % 2 ^ 32⟩,
    ⟨.vcvtF32I32, fun p x => rounded p (.ofIntExact (signedOf 32 x))⟩, ⟨.vcvtF32N32, fun p x => rounded p (.ofIntExact x)⟩,
    ⟨.vcvtI32F32, fun p x => (f32 x).toInt (Rnd.of p.round) true 32⟩, ⟨.vcvtN32F32, fun p x => (f32 x).toInt (Rnd.of p.round) false 32⟩,
    ⟨.vcvtB16F32, fun p x => fmtB16.round (Rnd.of p.round) (f32 x)⟩, ⟨.vcvtF32B16, fun p x => rounded p (fmtB16.decode (x % 2 ^ 16))⟩ ]

/-- A compare of two run vectors. -/
structure VecCompare where
  ins : Nat → Nat → Nat → Pfx → Instr
  cond : Nat → Nat → Bool

/-- R238, at width `n` = 8 × 2^w for the integer conditions. -/
def vecCompares (w : Nat) : List VecCompare :=
  let n := 8 * 2 ^ w
  let i (x : Nat) : Int := signedOf n (x % 2 ^ n)
  [ ⟨.vcmpEq w, fun x y => decide (x % 2 ^ n = y % 2 ^ n)⟩, ⟨.vcmpNe w, fun x y => decide (x % 2 ^ n ≠ y % 2 ^ n)⟩,
    ⟨.vcmpLtI w, fun x y => decide (i x < i y)⟩, ⟨.vcmpLtN w, fun x y => decide (x % 2 ^ n < y % 2 ^ n)⟩,
    ⟨.vcmpGeI w, fun x y => decide (i y ≤ i x)⟩, ⟨.vcmpGeN w, fun x y => decide (y % 2 ^ n ≤ x % 2 ^ n)⟩,
    ⟨.vcmpFeq, fun x y => (f32 x).eqNum (f32 y)⟩, ⟨.vcmpFne, fun x y => !(f32 x).eqNum (f32 y)⟩,
    ⟨.vcmpFlt, fun x y => (f32 x).ltNum (f32 y)⟩, ⟨.vcmpFle, fun x y => (f32 x).ltNum (f32 y) || (f32 x).eqNum (f32 y)⟩,
    ⟨.vcmpFun, fun x y => (f32 x).isNan || (f32 y).isNan⟩ ]

/-- A logic instruction of two masks. -/
structure MaskTwo where
  ins : Nat → Nat → Nat → Pfx → Instr
  op : Bool → Bool → Bool

/-- R248. -/
def maskTwos : List MaskTwo :=
  [ ⟨.kand, fun x y => x && y⟩, ⟨.kor, fun x y => x || y⟩, ⟨.kxor, fun x y => x != y⟩, ⟨.kandn, fun x y => x && !y⟩ ]

/-- An instruction of one mask. -/
structure MaskOne where
  ins : Nat → Nat → Pfx → Instr
  op : Bool → Bool

/-- R248, of one source. -/
def maskOnes : List MaskOne := [⟨.knot, fun x => !x⟩, ⟨.kmov, fun x => x⟩]

/-- The active elements of a vector, in order (R246). -/
def activeEls (c : Ctx) (p : Pfx) (a : Nat) : List Nat :=
  ((List.range (lenV (c.vreg a))).filter (active c p.mask)).map (el (c.vreg a))

/-- A reduction of 32-bit values: how it takes one more element, and the form of its result (R246). -/
structure Reduction where
  ins : Nat → Nat → Nat → Pfx → Instr
  step : Nat → Nat → Nat
  res : Nat → Word

/-- R246, where the order of the elements and their grouping in runs do not matter. -/
def reductions : List Reduction :=
  let i := signedOf 32
  [ ⟨.vrminI32, fun a v => if i v < i a then v else a, fun r => BitVec.ofInt 64 (i r)⟩, ⟨.vrminN32, fun a v => min a v, BitVec.ofNat 64⟩,
    ⟨.vrmaxI32, fun a v => if i a < i v then v else a, fun r => BitVec.ofInt 64 (i r)⟩, ⟨.vrmaxN32, fun a v => max a v, BitVec.ofNat 64⟩,
    ⟨.vrand, fun a v => a &&& v, BitVec.ofNat 64⟩, ⟨.vror, fun a v => a ||| v, BitVec.ofNat 64⟩, ⟨.vrxor, fun a v => a ^^^ v, BitVec.ofNat 64⟩ ]

/-- A scan: how it takes one more element (R247). -/
structure Scan where
  ins : Nat → Nat → Nat → Pfx → Instr
  step : Nat → Nat → Nat

/-- R247. -/
def scans : List Scan :=
  let i := signedOf 32
  [ ⟨.vssumI32, fun a v => (a + v) % 2 ^ 32⟩, ⟨.vssumF32, fun a v => rneF32 ((f32 a).addPos (f32 v))⟩,
    ⟨.vsminI32, fun a v => if i v < i a then v else a⟩, ⟨.vsmaxI32, fun a v => if i a < i v then v else a⟩ ]

end Sys2Proof.Claims

namespace Sys2Proof.Claims

open Sys2Proof.Machine

/-! ### Tiles (R63, R256 to R282) -/

/-- The moving context is a control context, which alone may execute a tile instruction (R433). -/
def Control (s : State) : Prop := s.curCore < 96 ∧ s.curSlot = 15

/-- Element `j`, of `w` bits, of row `i` (R256). -/
def elt (w : Nat) (v : Vector Row 64) (i j : Nat) : Nat := (vget v i 0).toNat / 2 ^ (w * j) % 2 ^ w

/-- A tile is live, its tag is accepted, and none of its words fails. -/
def Live (s : State) (i : Nat) (ok : BitVec 7 → Prop) : Prop := ∃ x, s.tile i = some x ∧ ok x.tag ∧ x.bad = []

/-- A destination of which part is copied is dead, or none of its words fails (R259). -/
def OldFine (s : State) (d : Nat) : Prop := ∀ x, s.tile d = some x → x.bad = []

/-- What a retired tile instruction leaves of everything but tiles: the context goes on, counters E0 to E3 may grow, a stamp is
kept where the core keeps them, and nothing else of the device changes (R262, R393, R399). -/
def TileRetired (s t : State) (words : Nat) (own : Bool → Nat → Bool) : Prop :=
  t = { s with cores := t.cores } ∧ (∀ c, c ≠ s.curCore → t.core c = s.core c) ∧
  t.me = { s.me with ctl := t.me.ctl, tiles := t.me.tiles, ev := t.me.ev, stamps := t.me.stamps } ∧
  (∀ i, 3 < i → vget t.me.ev i 0 = vget s.me.ev i 0) ∧
  (∃ l, t.me.stamps = s.me.stamps ++ l ∧ l.length = if s.stamping then 1 else 0) ∧
  t.cur = { s.cur with pc := goesOn s.cur words, tv := none, pend := stillOpen s.cur.pend, code := codeKept s.cur,
                       s := t.cur.s, v := t.cur.v, la := t.cur.la, lb := t.cur.lb, sw := t.cur.sw, vw := t.cur.vw } ∧
  Written s t s.cur.pend own ∧
  ∀ r, r < 48 → t.cur.sreg r = thenS s.cur.pend r (s.cur.sreg r)

/-- Tile `d` becomes one of this tag whose rows satisfy `P`, in a free physical tile, written at this tick, with no failing word,
and no other tile changes. `t1` is the tick a TLD leaves in it (R396). -/
def WritesTile (s t : State) (words d : Nat) (tag : BitVec 7) (P : Vector Row 64 → Prop) (t1 : Option (Nat × Bool))
    (fa fb : Option Nat) : Prop :=
  TileRetired s t words noOwn ∧ Latches s t fa fb ∧ (∀ r, r < 16 → t.cur.vreg r = thenV s.cur.pend r (s.cur.vreg r)) ∧
  ∃ p rows, freePhys s.me = some p ∧ P rows ∧
    ∀ i, i < 16 → t.tile i = if i = d then some ⟨p, tag, rows, t1, s.tick, []⟩ else s.tile i

/-- A tag that an element operation of a format reads: ROW, ACC for .f32, PART for .i32 (R268, R270). -/
def elemTagOk (fmt : Nat) (t : BitVec 7) : Prop := t = 0x00 ∨ (t = 0x60 ∧ fmt = 8) ∨ (t = 0x40 ∧ fmt = 4)

/-- An element operation of two tiles: on floats, rounded once; on integers, exact before it is held or cut (R268). -/
structure TileTwo where
  ins : Nat → Nat → Nat → Nat → Nat → Bool → Ext → Instr
  flt : FVal → FVal → FVal
  int : Int → Int → Int

/-- R268. -/
def tileTwos : List TileTwo :=
  [ ⟨.tadd, FVal.add, fun x y => x + y⟩, ⟨.tsub, fun x y => x.add y.neg, fun x y => x - y⟩, ⟨.temul, FVal.mul, fun x y => x * y⟩,
    ⟨.tmax, FVal.max, fun x y => max x y⟩, ⟨.tmin, FVal.min, fun x y => min x y⟩ ]

/-- A code of an FMT as an integer. -/
def intElt (fmt x : Nat) : Int := if tileSigned fmt then signedOf (tileWidth fmt) x else x

/-- The result of an element operation on two codes (R268). -/
def tileResult (e : TileTwo) (fmt rnd : Nat) (sat : Bool) (x y : Nat) : Nat :=
  let w := tileWidth fmt
  match tileFloat fmt with
  | some f => f.round (Rnd.of rnd) (e.flt (f.decode x) (f.decode y)) % 2 ^ w
  | none =>
    let r := e.int (intElt fmt x) (intElt fmt y)
    ((if sat then held (tileSigned fmt) w r else r) % 2 ^ w).toNat

/-- A tile source: its operand, 0 A, 1 B, 2 D as it was, 3 TSB, its tile, and the tags that it accepts (R258, R433). -/
structure TileSource where
  op : Nat
  tile : Nat
  ok : BitVec 7 → Prop

/-- A tile instruction without memory, its tile sources in the order in which R431 takes them, and whether it writes a tile. -/
structure TileUse where
  ins : Instr
  srcs : List TileSource
  makes : Bool

/-- R258, R266 to R274 and R276 to R280, by instruction; `f` gives the fields that no tile source depends on. -/
def tileUses (s : State) (d a b tsb : Nat) (z sat sgn : Bool) (f : Nat → Nat) (x : Ext) : List TileUse :=
  let row : BitVec 7 → Prop := (· = 0x00)
  let two (ins : Instr) : TileUse :=
    ⟨ins, [⟨0, a, elemTagOk (f 0)⟩, ⟨1, b, fun t => ∀ y, s.tile a = some y → t = y.tag⟩], true⟩
  [ ⟨.tzero d (f 0) (f 1) sgn x, [], true⟩, ⟨.tmov d a x, [⟨0, a, fun _ => True⟩], true⟩,
    two (.tadd d a b (f 0) (f 1) sat x), two (.tsub d a b (f 0) (f 1) sat x), two (.temul d a b (f 0) (f 1) sat x),
    two (.tmax d a b (f 0) (f 1) sat x), two (.tmin d a b (f 0) (f 1) sat x),
    ⟨.tact d a (f 0) (f 1) (f 2) x, [⟨0, a, fun t => t = 0x00 ∨ (t = 0x60 ∧ f 0 = 8)⟩], true⟩,
    ⟨.tcvt d a (f 0) (f 1) (f 2) sat (f 3) x, [⟨0, a, elemTagOk (f 0)⟩], true⟩,
    ⟨.ttrn d a (f 0) (f 1) x, [⟨0, a, fun t => t = 0x00 ∨ ((t = 0x40 ∨ t = 0x60) ∧ tileWidth (f 0) = 32)⟩], true⟩,
    ⟨.tplane d a (f 0) (f 1) x, [⟨0, a, row⟩], true⟩,
    ⟨.tred d a (f 0) sat (f 1) x, [⟨0, a, fun t => t = 0x00 ∨ t = 0x40 ∨ t = 0x60⟩], false⟩,
    ⟨.tbcast d a (f 0) (f 1) sat x, [], true⟩,
    ⟨.mma d a b (f 0) (f 1) z (f 2) (f 3) (f 4) x,
      [⟨0, a, (· = tagPlane (planeSpec (f 0)).1 (planeSpec (f 0)).2)⟩, ⟨1, b, row⟩] ++ (if z then [] else [⟨2, d, (· = 0x40)⟩]), true⟩,
    ⟨.mmf d a b (f 0) z (f 1) (f 2) (f 3) x, [⟨0, a, row⟩, ⟨1, b, row⟩] ++ (if z then [] else [⟨2, d, (· = 0x60)⟩]), true⟩,
    ⟨.scac d a b sat (f 0) tsb (f 1) (f 2) x, [⟨0, a, (· = 0x40)⟩, ⟨1, b, row⟩, ⟨2, d, (· = 0x60)⟩, ⟨3, tsb, row⟩], true⟩,
    ⟨.scal d a b x, [⟨2, d, (· = 0x60)⟩], true⟩ ]

/-! ### Tile windows in LOCAL (R263, R264) -/

/-- A LOCAL range lies in PAD banks that an access meets at once, and none of its bytes fails. -/
def RangeClear (s : State) (a n : Nat) : Prop := ∀ i, i < n → PadClear s (a + i) 1 ∧ NoFailing s (a + i) 1

/-- Stride, first row and number of rows that field B names; s0 names the dense whole tile (R263). -/
def strideOf (c : Ctx) (b : Nat) : Nat := if b = 0 ∨ (operand c b).toNat % 2 ^ 32 = 0 then 256 else (operand c b).toNat % 2 ^ 32
def row0Of (c : Ctx) (b : Nat) : Nat := if b = 0 then 0 else (operand c b).toNat / 2 ^ 32 % 64
def nrowOf (c : Ctx) (b : Nat) : Nat := if b = 0 then 64 else (operand c b).toNat / 2 ^ 40 % 64 + 1

/-- Whether row `r` lies in the window. -/
def inRows (c : Ctx) (b r : Nat) : Bool := decide (row0Of c b ≤ r) && decide (r < row0Of c b + nrowOf c b)

end Sys2Proof.Claims

namespace Sys2Proof.Claims

open Sys2Proof.Machine

/-! ### The host's writes (R36, R50, R168, R370, R371) -/

/-- 8-byte word `i` of a write. -/
def word8 (bytes : List Byte) (i : Nat) : Word := BitVec.ofNat 64 (littleEndian (fun j => bytes.getD (8 * i + j) 0) 8)

/-- The launch that the 64 bytes of a launch message make (R36, R326). -/
def launchMade (s : State) (ch : Nat) (bytes : List Byte) : Launch :=
  let c := word8 bytes 5
  { chan := ch, pc := word8 bytes 0, arga := word8 bytes 1, argb := word8 bytes 2, save := word8 bytes 3, done := word8 bytes 4,
    group := wfld c 35 20, domain := wfld c 19 18, cls := wfld c 17 16, helper := wfld c 15 14 == 1, pid := wfld c 13 8,
    vcore := wfld c 7 0, priv := (vget s.clients ch 0).getLsbD 39 }

/-- A launch message that R484 does not refuse: reserved fields zero, a valid client entry of its PID, PC, DONE and SAVE in form, and
a core that the process core map names. -/
def LaunchGood (s : State) (ch : Nat) (bytes : List Byte) (core : Nat) : Prop :=
  let c := word8 bytes 5
  let l := launchMade s ch bytes
  let e := vget s.clients ch 0
  bytes.length = 64 ∧ c.toNat / 2 ^ 37 = 0 ∧ word8 bytes 6 = 0 ∧ word8 bytes 7 = 0 ∧ wfld c 15 14 < 2 ∧
  e.getLsbD 38 = true ∧ wfld e 37 32 = l.pid ∧ goodTarget l.pc ∧
  (l.done ≠ 0 → l.done.toNat % 8 = 0 ∧ (l.done.setWidth 48).signExtend 64 = l.done) ∧
  (l.helper = false → l.save.toNat % 4096 = 0 ∧ (l.save.setWidth 48).signExtend 64 = l.save) ∧
  mapCore s l.pid l.vcore = some core

/-- The functions that a request needs are ready, none of them failed, and no request waits (R372, R373, R486). -/
def FunctionUp (s : State) (bit : Nat) : Prop := s.ready.getLsbD bit = true ∧ s.failed.getLsbD bit = false ∧ s.hostWait = []

/-- A record of four words in the stamp ring of a core, in the place that COUNT names, then COUNT; a COUNT that cannot be read owes its
record first (`physNote`) (R393, R394, R426). -/
def ringRecord (u : State) (core w0 w1 w2 w3 : Nat) : State :=
  let base := (u.core core).stampBase
  let at' := wfld base 45 12 * 4096
  let n := (physWord u at').toNat
  devStoreAll (devStoreAll (physNote u at' 8) (at' + 32 * (1 + n % (2 ^ (7 + wfld base 55 52) - 1))) 32 ([w0, w1, w2, w3].map (natToBytes 8)).flatten)
    at' 8 (natToBytes 8 (n + 1))

/-- The 32-bit difference of two ticks, of which either may be the later (R395). -/
def tickWord (t t1 : Nat) : Nat := (((t : Int) - t1) % 2 ^ 32).toNat

/-- Every stack that `n` bytes of HBM lie in is ready and the tags of their lines can be told; no request waits, and no stamped
write is on its way (R168, R372, R373, R457). -/
def StacksUp (s : State) (pa n : Nat) : Prop :=
  s.hostWait = [] ∧ s.flights = [] ∧
  ∀ i, (pa / 128 + i) * 128 < pa + n →
    FunctionUp s (48 + ctrlOf ((pa / 128 + i) * 128) / 2) ∧ metaReady s (pa / 128 + i) = true

/-- The message that a 64-byte message-port write makes (R371). -/
def portMessage (s : State) (ch : Nat) (bytes : List Byte) : Msg :=
  let h := word8 bytes 0
  { kind := 0, mreg := wfld h 7 4, slot := 0, srcv := 0, dstv := wfld (word8 bytes 2) 7 0, pid := wfld (vget s.clients ch 0) 37 32,
    group := wfld h 49 34, domain := 0, peer := false, arga := word8 bytes 1, argb := 0, pay := List.replicate 5 0, code := [],
    priv := false, major := 3, minor := 2 }

/-! ### Debugger commands (R385, R488) -/

/-- A response with STATUS, VALUE and PEND, and no stream. -/
def answered (s : State) (status : Nat) (value : Word) (pend : Bool) : State :=
  { s with dbg := { s.dbg with status := status, value := value, pendBit := pend, stream := [] } }

/-- A command of operation `op` with its reserved bits zero. -/
def CleanCmd (c : DbgCmd) (op : Nat) : Prop := c.op = op ∧ c.rsv = 0

/-- The unretired instruction of a context is squashed: a load leaves the queue that it waits on, the value that an MRECV was given is
its register's again, ahead of one that the register holds (`regFirst`), and a wait, or a JOIN whose cell has read zero, begins anew
(R83, R337, R489; log 40). -/
def squashed (s : State) (core slot : Nat) : State :=
  let u := match (s.ctx core slot).stall with
    | some q =>
      let y := s.bank (q / 16) (q % 16)
      let t := s.setBank (q / 16) (q % 16) { y with waiters := y.waiters.filter (· != (core, slot)) }
      t.setCtx core slot { t.ctx core slot with stall := none }
    | none => s
  let x := u.ctx core slot
  let v := match x.wait, x.given with
    | .mrecv n, some w => regFirst (u.setCtx core slot { x with given := none, wait := .none }) core n w x.group x.vcore
    | _, _ => u
  let z := v.ctx core slot
  v.setCtx core slot { z with st := if z.st = .waiting then .live else z.st, wait := .none }

/-- A command's core is enabled, its slot h0 to h8 or the control context, and its register one that the slot has (R31, R390). -/
def NamesRegister (s : State) (c : DbgCmd) : Prop :=
  s.enabled c.pcore = true ∧ (c.slot ≤ 8 ∨ c.slot = 15) ∧ c.num < famCount c.slot c.fam

end Sys2Proof.Claims

namespace Sys2Proof.Claims

open Sys2Proof.Machine

/-! ### Commands (R163, R283, R440) -/

/-- An address that a space has: LOCAL 2 MiB, PADDOCK 16 MiB, GLOBAL canonical (R109). -/
def inSpace (space : Nat) (a : Word) : Prop :=
  if space = 0 then a.toNat < 2 ^ 21 else if space = 1 then a.toNat < 2 ^ 24 else (a.setWidth 48).signExtend 64 = a

/-- An operand range of `n` bytes: aligned, and its first and last byte in its space (R440). -/
def goodRange (space : Nat) (a : Word) (n size : Nat) : Prop :=
  a.toNat % size = 0 ∧ (n ≠ 0 → inSpace space a ∧ inSpace space (a + BitVec.ofNat 64 (n - 1)))

/-- A command as the moving context sends it: numbered one above ISSUED of its counter (R163). -/
def commandOf (u : State) (tc : Nat) (op : CmdOp) (a b len : Word) (note : Option (Nat × Nat)) : Cmd :=
  { tc := tc, num := (vget u.me.tcs tc ⟨0, 0, none⟩).issued + 1, op := op, a := a, b := b, len := len, notify := note, pc := u.cur.pc,
    ctxid := u.ctxid u.curCore u.curSlot, group := u.cur.group, vcore := u.cur.vcore, priv := u.cur.priv, stage := .sent, off := 0,
    word := none, cellAt := 0, fault := none }

/-- The command joins those of its core as the newest, and ISSUED of its counter takes its number (R163). -/
def withCommand (u : State) (c : Cmd) : State :=
  u.setMe { u.me with cmds := u.me.cmds ++ [c],
                      tcs := u.me.tcs.setIfInBounds c.tc { vget u.me.tcs c.tc ⟨0, 0, none⟩ with issued := c.num } }

/-- The scope at which the older accesses of a command's core are performed before it is sent: device, or system where an
operand reaches host memory or the peer (R162). -/
def sendScope (far : Bool) : Nat := if far then 4 else 3

/-- The notification that fields NV, NREG and NCORE ask for (R289). -/
def noteOf (nv : Bool) (nreg ncore : Nat) : Option (Nat × Nat) := if nv then some (nreg, ncore) else none

/-- Length operand and length in words of a CPY form (R285). -/
def copyLen (c : Ctx) : CLen → Word × Nat
  | .reg r => (c.sreg r, 3)
  | .lit w => (w, 5)

/-- Where the engine that a sent command needs would take it now: the lower free copy channel, the transform engine where it is free,
or the collective port (R284). -/
def TakenTo (k : Core) (c : Cmd) (g : Stage) : Prop :=
  let free (h : Stage) : Prop := ∀ x ∈ k.cmds, x.stage ≠ h
  c.stage = .sent ∧
    match c.op with
    | .copy .. => (g = .chan 0 ∧ free (.chan 0)) ∨ (g = .chan 1 ∧ ¬ free (.chan 0) ∧ free (.chan 1))
    | .xfm .. => g = .engine ∧ free .engine
    | .layv _ => g = .engine ∧ free .engine
    | .coll .. => g = .port

/-- A core's command of the counter and number of `c` is now `c`. -/
def nowCommand (s : State) (core : Nat) (c : Cmd) : State :=
  let k := s.core core
  s.setCore core { k with cmds := k.cmds.map fun x => if x.tc = c.tc ∧ x.num = c.num then c else x }

/-- What the peer is told of a COLL: its participant's number among both grids, the fields that have to agree, and the source words
where the set spans Tandem (R302, R377, R442). -/
def collFlit (s : State) (core : Nat) (c : Cmd) (op red ty : Nat) (span : Bool) (root seq : Nat) (words : List W32) : CollFlit :=
  let k := s.core core
  { pid := k.pid, group := c.group, part := c.vcore + (if s.tandemCfg.getLsbD 62 then k.gx * k.gy else 0), seq := seq, op := op,
    red := red, ty := ty, span := span, count := c.len.toNat, root := root, words := words, fault := none, last := false }

/-! ### Transforms (R291, R294 to R296) -/

/-- `n` bits of memory from bit `b` above the byte at `a`. -/
def bitsAt (a b n : Nat) : BitSeg := ⟨(8 * a + b) / 8, (8 * a + b) % 8, n⟩

/-- The place of element (i0, i1, i2) of a tensor, lowest bit first: the table of R291, with the row capacity of R261 and KCAP of R257. -/
def elementPlace (t : Tensor) (i : Nat × Nat × Nat) : List BitSeg :=
  let (i0, i1, i2) := i
  let w := tileWidth t.fmt
  let m := mxWidth t.mxf
  let row := t.base + i2 * t.s2 + i1 * t.s1
  let tileRow (c : Nat) := t.base + i2 * t.s2 + (i1 / 64 * ((t.e0 + c - 1) / c) + i0 / c) * 16384 + i1 % 64 * 256
  let c := if w = 6 then 256 else 2048 / w
  let kcap := planeSlot t.plane
  if t.org = 0 then [bitsAt row (w * i0) w]
  else if t.org = 1 then [bitsAt (tileRow c) (w * (i0 % c)) w]
  else if t.org = 2 then
    (List.range (t.pcnt + if t.sgn = true then 1 else 0)).map fun q => bitsAt (tileRow kcap) (q * kcap + i0 % kcap) 1
  else [bitsAt (row + i0 / 32 * (4 * m)) (m * (i0 % 32)) m]

/-- The scale byte of the block that holds an element (R291). -/
def scalePlace (t : Tensor) (i : Nat × Nat × Nat) : BitSeg := bitsAt (t.sbase + (i.2.2 * t.e1 + i.2.1) * (t.e0 / 32) + i.1 / 32) 0 8

/-- What the planes hold of a code: its magnitude with its sign above it, or its two's complement (R97, R257). -/
def planesOf (t : Tensor) (c : Int) : Nat :=
  if t.sgn = true then c.natAbs % 2 ^ t.pcnt + (if c < 0 then 2 ^ t.pcnt else 0) else (c % 2 ^ t.pcnt).toNat

/-- The code that planes hold; unsigned formats have no negative one (R97, R257). -/
def codeOfPlanes (t : Tensor) (raw : Nat) : Int :=
  let m := raw % 2 ^ t.pcnt
  if t.sgn = true then (if raw.testBit t.pcnt then -(m : Int) else m)
  else if t.plane = 1 ∨ t.plane = 2 ∨ t.plane = 6 then (BitVec.ofNat t.pcnt raw).toInt
  else m

/-- The element bits at a place of a source; a plane code that no element has gives free bits (log 25). -/
def sourceElement (a : Tensor) (fresh raw : Nat) : Nat := if a.org = 2 then planeElem a.plane fresh (codeOfPlanes a raw) else raw

/-- The bits that element bits come to at a place of a destination (R97, R295). -/
def placedBits (b : Tensor) (x : Nat) : Nat := if b.org = 2 then planesOf b (planeCode b.plane x) else x

/-- Rounding to odd by way of a format (R94, R296). -/
def byWayOf (i : Option Nat) (x : FVal) : FVal :=
  match i.bind tileFloat with
  | some f => f.decode (f.round .rto x)
  | none => x

/-- The value of a source element of a float format. -/
def sourceValue (a : Tensor) (fresh raw : Nat) : FVal := ((tileFloat a.fmt).map (·.decode (sourceElement a fresh raw))).getD .nan

/-- The bits of a destination element from those of its source element, where it has one of its own: narrow rounds to odd by way of I1 and
then of I2, and then to the destination's format; a change of organisation alone changes nothing but the planes (R295, R296). -/
def destBits (xop : Nat) (a b : Tensor) (i1 i2 : Option Nat) (rnd fresh raw : Nat) : Nat :=
  if xop = 5 then
    match tileFloat b.fmt with
    | some f => placedBits b (f.round (Rnd.of rnd) (byWayOf i2 (byWayOf i1 (sourceValue a fresh raw))))
    | none => 0
  else if a.org = 2 ∧ b.org = 2 then raw
  else placedBits b (sourceElement a fresh raw)

/-- The source bits of several elements, one after the other. -/
def sourcesRead (w : Who) (a : Tensor) : List (Nat × Nat × Nat) → State → Res (List Nat)
  | [], s => .ok [] s
  | i :: is, s => (readSegs w a (elementPlace a i) s).bind fun x s => (sourcesRead w a is s).bind fun xs s => .ok (x :: xs) s

/-- One MX block: its 32 elements are read, and packed with a new scale by R108, unpacked by R107, or copied with their scale
(R295). -/
def blockUnit (w : Who) (xop : Nat) (a b : Tensor) (i : Nat × Nat × Nat) : XUnit := fun s =>
  let at' (j : Nat) : Nat × Nat × Nat := (i.1 + j, i.2)
  let writes (xs : List Nat) : Writes := ((List.range 32).map fun j => segWrites (elementPlace b (at' j)) (xs.getD j 0)).flatten
  (sourcesRead w a ((List.range 32).map at') s).bind fun raws s =>
    if xop = 3 then
      let p := mxPack b.mxf (raws.map (sourceValue a s.fresh))
      .ok (writes p.2 ++ [(scalePlace b i, p.1)]) s
    else (readSeg w a (scalePlace a i) s).bind fun sc s =>
      if xop = 4 then .ok (writes (raws.map (mxRead a.mxf sc))) s else .ok (writes raws ++ [(scalePlace b i, sc)]) s

/-- The units of a transform but sdec: an element, or an MX block, of the destination each (R295). -/
def transformUnits (w : Who) (xop : Nat) (a b : Tensor) (i1 i2 : Option Nat) (rnd : Nat) : List XUnit :=
  if xop = 3 ∨ xop = 4 ∨ (xop = 0 ∧ a.org = 3) then (b.indices.filter fun i => i.1 % 32 == 0).map (blockUnit w xop a b)
  else b.indices.map fun i s =>
    (readSegs w a (elementPlace a (if xop = 1 then (i.2.1, i.1, i.2.2) else i)) s).bind fun raw s =>
      .ok (segWrites (elementPlace b i) (destBits xop a b i1 i2 rnd s.fresh raw)) s

/-- The units of sdec: symbol e at the element whose number is e, dimension 0 innermost (R295). -/
def symbolUnits (b : Tensor) (syms : List Nat) : List XUnit :=
  (List.range (min b.count syms.length)).map fun e s =>
    .ok (segWrites (elementPlace b (e % b.e0, e / b.e0 % b.e1, e / b.e0 / b.e1)) (placedBits b (syms.getD e 0))) s

/-- A transform whose units run in `u` ends: it waits while a line that it writes cannot be written; else every write is made and it is
complete, or it faults with its first fault, or that of its stream, and those words are written that a free choice names, all of them
where the stream leaves only payload over (R422, R471; log 20). -/
def TransformEnds (core : Nat) (c : Cmd) (b : Tensor) (us : List XUnit) (stream : XFault) (whole : Bool) (s u : State) : Prop :=
  let w : Who := ⟨core, 19, (u.core core).pid⟩
  (∀ v, runUnits w b us none [] u = .wait v → exec (.transformRun core) s = .next v) ∧
  (∀ f ws v ps x y, runUnits w b us none [] u = .ok (f, ws) v →
    let all := decide (f = none ∧ (stream = none ∨ whole = true))
    let xs := ws.flatten.filter fun z => all || Config.freeBit (v.fresh + z.1.addr / 8)
    segsPieces w b xs v = (ps, x) →
    (piecesReady w ps true x = (false, y) → exec (.transformRun core) s = .next y) ∧
    (piecesReady w ps true x = (true, y) →
      (f = none → stream = none → exec (.transformRun core) s = .next (doneCmd (putWrites w c b true xs y) core c)) ∧
      (∀ z, f.or stream = some z → exec (.transformRun core) s = .next (failCmd (putWrites w c b all xs y) core c z.1 z.2))))

/-- The record in a layout slot, with its base replaced where the command says (R294). -/
def slotRecord (k : Core) (slot : Nat) (based : Bool) (r : Word) : Option Tensor :=
  (vget k.layouts slot none).map fun bs => { tensorOf bs with base := if based = true then r.toNat else (tensorOf bs).base }

/-! ### Streams (R298 to R300) -/

/-- The codes of a stream: the symbols of the lengths 1 to 12 in order of length and then of value, the first with the code zero, each
next with the code before it plus one, shifted left by the difference of the lengths (R299). -/
def CanonicalCode (lens : List Nat) (cs : List (Nat × Nat × Nat)) : Prop :=
  cs.Pairwise (fun x y => x.1 < y.1 ∨ (x.1 = y.1 ∧ x.2.2 < y.2.2)) ∧
  (∀ n y, (∃ c ∈ cs, c.1 = n ∧ c.2.2 = y) ↔ 1 ≤ n ∧ n ≤ 12 ∧ y < 256 ∧ lens.getD y 0 = n) ∧
  (∀ c ∈ cs.head?, c.2.1 = 0) ∧
  (∀ (i : Nat) x y, cs[i]? = some x → cs[i + 1]? = some y → y.2.1 = (x.2.1 + 1) * 2 ^ (y.1 - x.1))

/-- The first `n` bits of a buffer as a code: the first bit taken is the most significant (R299). -/
def codeTaken (bits n : Nat) : Nat := ((List.range n).map fun i => if bits.testBit i then 2 ^ (n - 1 - i) else 0).sum

/-- What a symbol of a stream does: lane e mod 16 takes a code of its buffer's lowest bits, none of them the code of a shorter one, and
claims the next word above them where it has a further symbol and fewer than 32 bits; the claims at the start are in lane order
(R299, R300, R471). -/
def LanesDecode (p : Payload) (cs : List (Nat × Nat × Nat)) (s : State) : Prop :=
  (∀ bits have' y n, headSymbol cs bits have' 12 0 0 = some (y, n) →
    n ≤ have' ∧ (n, codeTaken bits n, y) ∈ cs ∧ ∀ c ∈ cs, 1 ≤ c.1 → c.1 < n → c.2.1 ≠ codeTaken bits c.1) ∧
  (∀ d acc out e, d.next ≤ p.count →
    decodeFrom cs p out 0 e d acc s = .ok (acc.reverse, if d.next = p.count then .well else .bad 3 0 (144 + 4 * d.next)) s) ∧
  (∀ (d : SDec) acc out k e,
    let l := e % 16
    let x := d.lanes.getD l ⟨0, 0, 0⟩
    (headSymbol cs x.bits x.n 12 0 0 = none →
      decodeFrom cs p out (k + 1) e d acc s = .ok (acc.reverse, .bad 6 l (144 + 4 * x.last)) s) ∧
    (∀ y n, headSymbol cs x.bits x.n 12 0 0 = some (y, n) → l < d.lanes.length →
      let r : Lane := { x with bits := x.bits / 2 ^ n, n := x.n - n }
      (out ≤ e + 16 ∨ 32 ≤ x.n - n →
        decodeFrom cs p out (k + 1) e d acc s = decodeFrom cs p out k (e + 1) { d with lanes := d.lanes.set l r } (y :: acc) s) ∧
      (e + 16 < out → x.n - n < 32 →
        (p.count ≤ d.next → decodeFrom cs p out (k + 1) e d acc s = .ok ((y :: acc).reverse, .bad 2 l (144 + 4 * p.count)) s) ∧
        (∀ bs u, d.next < p.count →
          engineRead s p.who p.space p.csel (p.base + BitVec.ofNat 64 (4 * d.next)) 4 = .ok bs u → bs.length = 4 →
          let word := littleEndian (fun i => bs.getD i 0) 4
          let full : Lane := { bits := r.bits + word * 2 ^ r.n, n := r.n + 32, last := d.next }
          decodeFrom cs p out (k + 1) e d acc s =
            decodeFrom cs p out k (e + 1) { lanes := d.lanes.set l full, next := d.next + 1 } (y :: acc) u)))) ∧
  (∀ go l ls (d : SDec),
    firstClaims p go [] d s = go d s ∧
    (p.count ≤ d.next → firstClaims p go (l :: ls) d s = .ok ([], .bad 2 l (144 + 4 * p.count)) s) ∧
    (∀ bs u, d.next < p.count → d.lanes.getD l ⟨0, 0, 0⟩ = ⟨0, 0, 0⟩ →
      engineRead s p.who p.space p.csel (p.base + BitVec.ofNat 64 (4 * d.next)) 4 = .ok bs u → bs.length = 4 →
      firstClaims p go (l :: ls) d s =
        firstClaims p go ls { lanes := d.lanes.set l ⟨littleEndian (fun i => bs.getD i 0) 4, 32, d.next⟩, next := d.next + 1 } u))

/-- A stream is decoded: the lanes that have a symbol claim a word each, then its symbols are decoded in order (R300). -/
def StreamDecodes (lens : List Nat) (p : Payload) (out : Nat) (s : State) : Prop :=
  let cs := canonCodes 0 0 (codeOrder lens)
  CanonicalCode lens cs ∧ LanesDecode p cs s ∧
  decodeStream lens p out s =
    firstClaims p (decodeFrom cs p out out 0 · []) (List.range (min out 16)) { lanes := List.replicate 16 ⟨0, 0, 0⟩, next := 0 } s

/-! ### Collectives (R303, R304) -/

/-- The operators of a reduction on codes of 32 bits (R303). -/
def reduceTwo (red ty x y : Nat) : Nat :=
  if ty = 0 then
    let v := if red = 0 then (f32 x).add (f32 y) else if red = 1 then (f32 x).max (f32 y) else (f32 x).min (f32 y)
    fmtF32.round .rne v
  else
    let a := BitVec.ofNat 32 x
    let b := BitVec.ofNat 32 y
    let less (a b : BitVec 32) : Bool := if ty = 1 then a.slt b else a.ult b
    if red = 0 then (a + b).toNat else if red = 1 then (if less a b then y else x) else if less b a then y else x

/-- acc(p) of the tree of R303 after its first `n` levels, over T participants' values. -/
def accAfter (op : Nat → Nat → Nat) (t : Nat) (x : Nat → Nat) : Nat → Nat → Nat
  | 0, p => x p
  | n + 1, p =>
    if p % 2 ^ (n + 1) = 0 ∧ p + 2 ^ n < t then op (accAfter op t x n p) (accAfter op t x n (p + 2 ^ n)) else accAfter op t x n p

/-- Elements of a destination of a collective (R304). -/
def collLength (op count t : Nat) : Nat := if op = 1 then count / t else if op = 2 then count * t else count

/-- Element `j` of participant q's destination, where `x p e` is element e of participant p's source (R304). -/
def collElement (op red ty t count root q j : Nat) (x : Nat → Nat → Nat) : Nat :=
  let reduced (e : Nat) : Nat := accAfter (reduceTwo red ty) t (fun p => x p e) t 0
  if op = 0 then reduced j
  else if op = 1 then reduced (q * (count / t) + j)
  else if op = 2 then x (j / count) (j % count)
  else x root j

/-! ### Contexts that wait (R32) -/

/-- The moving context is WAITING for `w`, and nothing else changes. -/
def Waits (s : State) (w : Wait) : Host.Outcome State Fault Refusal :=
  .next (s.setCur { s.cur with st := .waiting, wait := w, since := s.tick })

/-! ### Messages and tasks (R45, R50) -/

/-- What an MSEND sends (R50, R314). -/
def messageOf (s : State) (kind mreg slot : Nat) (target arga argb : Word) (pay : List Word) (code : List W32) : Msg :=
  { kind := kind, mreg := mreg, slot := slot, srcv := s.cur.vcore, dstv := target.toNat % 256, pid := s.me.pid, group := s.cur.group,
    domain := s.cur.domain, peer := target.getLsbD 63, arga := arga, argb := argb, pay := pay, code := code, priv := s.cur.priv,
    major := s.cur.major, minor := s.cur.minor }

/-- An MSEND may name its payload: RPAY is s0, or the bytes lie in LOCAL, aligned, and are one whole entry of a queue or meet no FIFO
bank (R120, R314, R440). -/
def PayloadOk (s : State) (rpay codew : Nat) : Prop :=
  let a := s.cur.sreg rpay
  let n := 40 + 4 * codew
  rpay ≠ 0 → goodRange 0 a n 8 ∧ (fifoEntry s a n = true ∨ (meetsFifo s a n).isNone = true)

/-- The payload of an MSEND: zeros where RPAY is s0, else the bytes at its LOCAL address, read as a load reads them, a queue's entry
as one load takes it; and the state after the read (R120, R314). -/
def Payload (s : State) (rpay codew : Nat) (bs : List Byte) (w : State) : Prop :=
  let a := s.cur.sreg rpay
  let n := 40 + 4 * codew
  bs.length = n ∧
  if rpay = 0 then codew = 0 ∧ bs = List.replicate 40 0 ∧ w = s
  else if fifoEntry s a n then loadPiece s s.who .scalar 0 0 a n = .ok bs w
  else loadRange s s.who .scalar 0 0 a n n = .ok bs w

/-- P0 to P4 of a payload, and the code after them (R50, R314). -/
def payWords (bs : List Byte) : List Word :=
  (List.range 5).map fun i => BitVec.ofNat 64 (littleEndian (fun j => bs.getD (8 * i + j) 0) 8)

/-- The words of code of a payload. -/
def payCode (n : Nat) (bs : List Byte) : List W32 :=
  (List.range n).map fun i => BitVec.ofNat 32 (littleEndian (fun j => bs.getD (40 + 4 * i + j) 0) 4)

/-- The smallest scope that holds two cores (R51, R139). -/
def scopeOfCores (a b : Nat) : Nat := if a = b then 0 else if a / 8 = b / 8 then 1 else if a / 48 = b / 48 then 2 else 3

/-- Core cycles from a steal probe to its answer: within a paddock, a die, the device (R330). -/
def probeTime (a b : Nat) : Nat := if a / 8 = b / 8 then 16 else if a / 48 = b / 48 then 48 else 160

/-- The task that a FORK or START makes (R45). -/
def forkedTask (s : State) (pc arga argb join : Word) (full pinned : Bool) : Task :=
  { pc := pc, arga := arga, argb := argb, join := join, full := full, pinned := pinned, vcore := s.cur.vcore, pid := s.me.pid,
    group := s.cur.group, domain := s.cur.domain, cls := s.cur.cls, priv := s.cur.priv }

/-- The moving core with another task at the bottom of its deque (R45). -/
def withTask (s : State) (t : Task) : State := s.setMe { s.me with deque := t :: s.me.deque }

end Sys2Proof.Claims

namespace Sys2Proof.Claims

open Sys2Proof.Machine

/-! ### System registers (R316, R323) -/

/-- The moving context runs privileged: in its trap handler, as the overflow handler, or by descent (R316). -/
def Privileged (s : State) : Prop := s.cur.inHandler = true ∨ s.curSlot = 9 ∨ s.cur.priv = true

/-- A system register that is read whole: its selector and its value. -/
structure SysRead where
  sel : Nat
  val : State → Nat

/-- CTXID of the moving context (R34). -/
def ctxidOf (s : State) : Nat :=
  s.cur.group % 2 ^ 16 * 2 ^ 32 + s.cur.vcore % 2 ^ 8 * 2 ^ 24 + s.curCore % 2 ^ 7 * 2 ^ 10 + s.me.pid % 2 ^ 6 * 2 ^ 4 + s.curSlot % 2 ^ 4

/-- R323 by selector, but for the arrays, GEOM and GEOMSUB. STEP of VERS is an implementation's own (log 7). -/
def sysReads : List SysRead :=
  [ ⟨0x00, fun _ => 2 ^ 24 + Config.stepping.toNat * 2 ^ 16 + 0x302⟩, ⟨0x01, ctxidOf⟩, ⟨0x04, fun s => s.tick % 2 ^ 64⟩,
    ⟨0x05, fun s => s.ready.toNat⟩, ⟨0x06, fun s => (vget s.coresen 0 0).toNat⟩, ⟨0x07, fun s => (vget s.coresen 1 0).toNat⟩,
    ⟨0x10, fun s => s.cur.trapCause.toNat⟩, ⟨0x11, fun s => s.cur.trapPc.toNat⟩, ⟨0x12, fun s => s.cur.trapAddr.toNat⟩,
    ⟨0x18, fun s => s.procBase.toNat⟩, ⟨0x19, fun s => s.ptBase.toNat⟩, ⟨0x1C, fun s => s.me.dirPc.toNat⟩,
    ⟨0x1D, fun s => s.me.dirArea.toNat⟩, ⟨0x20, fun s => s.me.stampBase.toNat⟩, ⟨0x21, fun s => s.spillQ.toNat⟩,
    ⟨0x22, fun s => s.therm % 4 * 2 ^ 40 + s.clkStep % 16 * 2 ^ 32 + s.cap % 2 ^ 16⟩ ]

/-- The moving context with its latch of field A as an instruction that names `a` leaves it (R79). -/
def readsA (s : State) (a : Nat) : State := s.setCur { s.cur with la := latchAfter s.cur s.cur.la (some a) }

/-- A system register that an instruction writes: its selector, the bits that are not reserved, and what a write does. -/
structure SysWrite where
  sel : Nat
  bits : Nat
  upd : State → Word → State

/-- R323 by selector: ALIASTAB, XINV and POWERCAP are said apart. STAMPBASE: finished stamps go to the old ring, and COUNT of the
new one becomes zero; SPILLQ: every block of the new page begins its PEAK anew (R332, R393, R397). -/
def sysWrites : List SysWrite :=
  [ ⟨0x10, 0xFF00_0000_FFFF_00FF, fun s v => s.setCur { s.cur with trapCause := v }⟩,
    ⟨0x11, 2 ^ 64 - 1, fun s v => s.setCur { s.cur with trapPc := v }⟩,
    ⟨0x12, 2 ^ 64 - 1, fun s v => s.setCur { s.cur with trapAddr := v }⟩,
    ⟨0x18, 0x0000_3FFF_FFFF_F000, fun s v => { s with procBase := v }⟩,
    ⟨0x19, 0x0000_3FFF_FFFF_F000, fun s v => { s with ptBase := v }⟩,
    ⟨0x1C, 0x0000_FFFF_FFFF_FFFC, fun s v => s.setMe { s.me with dirPc := v, bcast := false }⟩,
    ⟨0x1D, 0x8000_003F_001F_F000, fun s v => s.setMe { s.me with dirArea := v, bcast := false }⟩,
    ⟨0x20, 0xFFF0_3FFF_FFFF_F000, fun s v => stampConfig s s.curCore v⟩,
    ⟨0x21, 0x8000_3FFF_FFFF_F000, fun s v => { s with spillQ := v, spillWrote := List.range 64 }⟩ ]

/-- No reserved bit of a value is set. -/
def within (v : Word) (bits : Nat) : Prop := ∀ i, i < 64 → v.getLsbD i = true → bits / 2 ^ i % 2 = 1

/-- The fields of every bank are within the widths that BANKMAP gives them, HEAD and TAIL within the queue, and no more entries than it
holds; and so are the fields of every switch on its way to a bank (R113, R120, R320, R322). -/
def BankFields (s : State) : Prop :=
  ∀ home b, let x := s.bank home b
    x.mode < 8 ∧ x.esize < 4 ∧ x.head < 2 ^ (14 - x.esize) ∧ x.tail < 2 ^ (14 - x.esize) ∧ x.count ≤ 2 ^ (14 - x.esize) ∧
    ∀ y ∈ x.switches, y.mode < 8 ∧ y.esize < 4

/-- The registers that only privileged code, the host or the debugger writes are the same: PROCBASE, PTBASE, ALIASTAB, SPILLQ,
POWERCAP's CAP, the handlers' entries, the code versions, the clients, the enabled cores, and each core's DIRPC, DIRAREA and STAMPBASE
(R39, R316, R323, R326, R331, R357, R374, R393, R419). -/
def SamePrivileged (s t : State) : Prop :=
  t.procBase = s.procBase ∧ t.ptBase = s.ptBase ∧ t.aliasTab = s.aliasTab ∧ t.spillQ = s.spillQ ∧ t.cap = s.cap ∧
  t.trapEnt = s.trapEnt ∧ t.versions = s.versions ∧ t.clients = s.clients ∧ t.coresen = s.coresen ∧
  ∀ c, (t.core c).dirPc = (s.core c).dirPc ∧ (t.core c).dirArea = (s.core c).dirArea ∧ (t.core c).stampBase = (s.core c).stampBase

/-! ### Traps (R416 to R421) -/

/-- TRAPCAUSE (R416). -/
def causeOf (pt : Bool) (t : Trap) : Word :=
  BitVec.ofNat 64 ((if pt then 2 ^ 63 else 0) + (if t.eng then 2 ^ 62 else 0) + t.tc % 8 * 2 ^ 59 + t.acc % 8 * 2 ^ 56 +
    t.info % 2 ^ 16 * 2 ^ 16 + t.code % 2 ^ 8)

/-- The moving context as trap entry leaves it: the three registers written, the pending transfer and the open windows held,
privileged, at the entry that TRAPENT gives its PID (R416 to R420). -/
def atHandler (s : State) (t : Trap) (pc : Word) : Ctx :=
  { s.cur with trapCause := causeOf s.cur.tv.isSome t, trapPc := pc, trapAddr := t.addr, held := s.cur.tv, tv := none,
               pend := s.cur.pend.map fun p => { p with outer := true }, inHandler := true,
               pc := ((vget s.trapEnt s.me.pid 0).setWidth 48).signExtend 64, st := .live, wait := .none, given := none }

/-- The moving context has a handler to enter: its PID's entry is valid, and it runs no handler already (R419, R421). -/
def HasHandler (s : State) : Prop :=
  (vget s.trapEnt s.me.pid 0).getLsbD 63 = true ∧ s.cur.inHandler = false ∧ s.curSlot ≠ 9

/-- Words 0 to 7 of a record go to entry 1 + `n` modulo 2^(6 + SIZE) − 1 of the fault ring (R424, R425). -/
def ringEntry (s : State) (n type : Nat) (w1 w2 w3 w4 w5 : Word) : State :=
  let words := [BitVec.ofNat 64 (type * 2 ^ 56 + s.tick % 2 ^ 56), w1, w2, w3, w4, w5, 0, 0]
  devStoreAll s (wfld s.fltRing 45 12 * 4096 + 64 * (1 + n % (2 ^ (6 + wfld s.fltRing 55 52) - 1))) 64
    (words.map (wordBytes 8)).flatten

/-- A record in the fault ring where the ring is enabled: at the entry of COUNT, and then COUNT is one more. A COUNT that cannot be
read has a record of TYPE 3 of its own before it (R424, R425, R426; log 43). -/
def faultRing (s : State) (type : Nat) (w1 w2 w3 w4 w5 : Word) : State :=
  let base := wfld s.fltRing 45 12 * 4096
  let n := (physWord s base).toNat
  if s.fltRing.getLsbD 63 = true then
    match physUnit s base 8 with
    | none => devStoreAll (ringEntry s n type w1 w2 w3 w4 w5) base 8 (natToBytes 8 (n + 1))
    | some (cls, idx, src) =>
      let u := ringEntry s n 3 (BitVec.ofNat 64 (cls * 2 ^ 56 + idx % 2 ^ 56)) (BitVec.ofNat 64 (src * 2 ^ 12 % 2 ^ 16 * 2 ^ 16 + 0x0E)) 0 0 0
      devStoreAll (ringEntry u (n + 1) type w1 w2 w3 w4 w5) base 8 (natToBytes 8 (n + 2))
  else s

/-- `u` is `s` after the decrement that the moving context's end performs: with its older writes performed at system scope for a DONE
cell and at its domain's for a join cell, one is taken from the cell; while one of them still waits, the decrement joins the writes of
the device itself that wait (R38, R47; log 31). -/
def CellLowered (s u : State) : Prop :=
  let a := s.cur.cell
  let w : Who := ⟨s.curCore, 16, s.me.pid⟩
  let scope := if s.cur.cellDone then 4 else s.cur.domain % 4
  if a = 0 then u = s
  else
    (∃ z, released s s.curCore [s.curSlot] scope = .ok () z ∧ check6 z w .atomic 2 0 a 8 3 3 = none ∧
      ∃ t y v, resolve z w .atomic .atomic (va48 a) 8 = (.ok t, y) ∧
        hbmAtomic y s.curCore s.me.pid (va48 a) 8 t false (fun old => some ((old + 2 ^ 64 - 1) % 2 ^ 64)) = .ok v u) ∨
    (∃ z, released s s.curCore [s.curSlot] scope = .wait z ∧
      u = { z with devQ := z.devQ ++ [.dec s.curCore s.me.pid [s.curSlot] scope (BitVec.ofNat 64 (ctxidOf s)) a] })

/-- The rein line of a group is raised where a context of it is held, and a peer is told (R56, R476). -/
def reined (s : State) (pid group : Nat) : State :=
  let u := if groupAlive s pid group = true ∧ s.reins.contains (pid, group) = false then { s with reins := (pid, group) :: s.reins } else s
  if u.tandemUp = true then { u with peerOut := u.peerOut ++ [.rein pid group] } else u

/-- The context as ERET leaves it: at TRAPPC with the transfer and the windows that the trap held, its level as before, its
prefetches dropped. `x` gives the registers that the handler's own windows write (R226, R420). -/
def fromHandler (c x : Ctx) : Ctx :=
  { c with s := x.s, v := x.v, sw := x.sw, vw := x.vw, pend := (c.pend.filter (·.outer)).map fun p => { p with outer := false }, inHandler := false,
           tv := c.held, held := none, pc := c.trapPc, b := c.b.map fun b => { b with pre := none } }

end Sys2Proof.Claims

open Sys2Proof Sys2Proof.Machine Sys2Proof.Claims

/-! ## Encoding -/

/-- Decoding the words of a well-formed instruction gives it back, with every operand, and its length (R171 to R183). -/
def Obligations.DecodeInvertsEncode : Prop :=
  ∀ (h : Bool) (i : Instr), i.faults h = [] → i.isStep = false → decode h (encodeNat i) = .ok i i.len

/-- What decoding answers is a well-formed instruction of the part, never a step of another agent, and it is read from
the words of its own length: bits above them do not matter (R171, R173, R184). -/
def Obligations.DecodedInstructionsAreWellFormed : Prop :=
  ∀ (h : Bool) (w : Nat) (i : Instr) (n : Nat), decode h w = .ok i n →
    i.faults h = [] ∧ i.isStep = false ∧ n = i.len ∧ decode h (w % 2 ^ (32 * n)) = .ok i n

/-- The words that the spec writes out for its own examples decode to the instructions they stand for: formats A, LL, M, I with
a literal, U, the prefixed pair, and the extended memory, atomic, vector and tile forms. -/
def Obligations.SpecWordsDecode : Prop :=
  decode false 0x00704E04 = .ok (.add 7 1 14) 1 ∧ decode false 0x008C1504 = .ok (.add 8 0x30 21) 1 ∧
  decode false 0x20910528 = .ok (.divI64 2 9 4 5) 1 ∧ decode false 0x0201055C = .ok (.ldg64 2 0 4 5) 1 ∧
  decode false (0x00000609 + 2 ^ 32 * 0x00123456) = .ok (.addiLit32 0x123456 0 6) 2 ∧
  decode false (0x005000F9 + 2 ^ 32 * 0x08304278) = .ok (.vadd 2 3 1 2 ⟨true, 0, 0, true, 2, false, false⟩) 2 ∧
  decode false 0x00000008 = .ok (.addi 0 0 0) 1 ∧ decode false 0x7654041C = .ok (.lui 0x76540 4) 1 ∧
  decode false 0x02010668 = .ok (.stg64 2 4 6) 1 ∧ decode false 0x100000B4 = .ok .exit 1 ∧
  decode false 0xC4518778 = .ok (.vsra 1 5 6 7 Pfx.none) 1 ∧ decode false 0x8810837C = .ok (.vcmpFlt 1 2 3 Pfx.none) 1 ∧
  decode false 0x24708084 = .ok (.vrsumF32 7 2 0 Pfx.none) 1 ∧
  decode false (0x2C010672 + 2 ^ 32 * 0x00002800 + 2 ^ 64 * 0x48) = .ok (.memxStI64 4 6 ⟨1, 1, .disp 0x48⟩ noExt) 3 ∧
  decode false (0x08710576 + 2 ^ 32 * 0x07804100 + 2 ^ 64 * 8) =
    .ok (.aadd 7 4 5 true ⟨2, 0, .disp 8⟩ { noExt with scope := 3, ord := 3 }) 3 ∧
  decode false (0x0042098E + 2 ^ 32 * 0x00004400 + 2 ^ 64 * 0x100) = .ok (.vld 4 8 9 2 0 false ⟨2, 0, .disp 0x100⟩ noExt) 3 ∧
  decode false (0x00010092 + 2 ^ 32 * 0x00004290 + 2 ^ 64 * 0x400) = .ok (.tld 0 4 0 1 4 true ⟨2, 0, .disp 0x400⟩ noExt) 3 ∧
  decode false 0x000242B0 = .ok (.tcwait 9 2) 1 ∧ decode false 0x004002BC = .ok (.sysrd 4 0 2) 1 ∧
  decode false 0x100101BC = .ok (.bankcfg 4 1 0) 1

/-! ## Steps -/

/-- A step in which a context moves runs exactly the instruction that its fetched words decode to, on the state that the
fetch left, in which the decoded operation is kept (R60), and the tick goes on: with the turn named for the context, and with no turn named, where it is the next
context that can run after the device's own units have moved. The schedule is the model's own (log 3). The tick goes up by one a step
while the clocks run, where no sample is due and no stamp waits; not at all while they are gated; and it stands still while a role-1
box waits for role 0's value (R384, R387, R487; one tick a step is the model's own, log 5). -/
def Obligations.StepRunsDecodedInstruction : Prop :=
  (∀ (s m s1 s2 : State) (core slot w0 : Nat) (ws : List Nat) (i : Instr) (n : Nat), s.gated = false →
    ((∃ rest, s.turns = .ctx core slot :: rest ∧ canRun s true core slot = true ∧ m = { s with turns := rest }) ∨
     (s.turns = [] ∧ m = sweep s ∧ nextCtx m = some (core, slot))) →
    atBreak m core slot = false →
    fetchWord (m.moveTo core slot) core slot (m.ctx core slot).pc = .ok [w0] s1 →
    firstWordKnown w0 = true → fetchWords s1 core slot (s1.cur.pc + 4) (lenOf w0 - 1) = .ok ws s2 →
    decode s2.helper (wordsToNat (w0 :: ws)) = .ok i n →
    step s = ticked (exec i (keepOp s2 s2.curCore s2.curSlot s2.cur.pc (w0 :: ws)))) ∧
  (∀ s : State,
    (s.gated = true → advanceTick s = s) ∧
    (s.gated = false →
      (s.tickWait = 0 → s.dbg.writes = [] → s.dbg.stopReq = none → (∀ k ∈ s.cores.toList, k.stamps = []) → s.tick % 1024 ≠ 0 →
        advanceTick s = { s with tick := s.tick + 1 }) ∧
      (s.tickWait ≠ 0 → advanceTick s = { s with tickWait := s.tickWait - 1 })))

/-- A fetch that cannot be made, a first word that is no instruction, later words past the end of inline code, and words with a
reserved field make the context take the fault that names them, and nothing executes. Where a later word cannot be fetched, an
encoding whose first word already shows that the context may not execute it is the fault that it is taken for (R184, R185, R431, R433,
R434). -/
def Obligations.StepTakesFetchAndDecodeFaults : Prop :=
  ∀ (s m : State) (core slot : Nat), s.gated = false → (∃ rest, s.turns = .ctx core slot :: rest ∧ m = { s with turns := rest }) →
    canRun s true core slot = true → atBreak m core slot = false →
    (∀ t s1, fetchWord (m.moveTo core slot) core slot (m.ctx core slot).pc = .trap t s1 → step s = ticked (.next (s1.fault t))) ∧
    (∀ w0 s1, fetchWord (m.moveTo core slot) core slot (m.ctx core slot).pc = .ok [w0] s1 → firstWordKnown w0 = false →
      step s = ticked (.next (s1.fault (Trap.plain 0x01 0)))) ∧
    (∀ w0 s1 t s2, fetchWord (m.moveTo core slot) core slot (m.ctx core slot).pc = .ok [w0] s1 → firstWordKnown w0 = true →
      fetchWords s1 core slot (s1.cur.pc + 4) (lenOf w0 - 1) = .trap t s2 →
      (t.code = 1 → step s = ticked (.next (s2.fault t))) ∧
      (t.code ≠ 1 → opMajor w0 ≠ 0x3E →
        (∀ x, classTrap s2 (opMajor w0) (w0 % 2 ^ 32 / 2 ^ 26) = some x → step s = ticked (.next (s2.fault x))) ∧
        (classTrap s2 (opMajor w0) (w0 % 2 ^ 32 / 2 ^ 26) = none → step s = ticked (.next (s2.fault t))))) ∧
    (∀ w0 s1 ws s2, fetchWord (m.moveTo core slot) core slot (m.ctx core slot).pc = .ok [w0] s1 → firstWordKnown w0 = true →
      fetchWords s1 core slot (s1.cur.pc + 4) (lenOf w0 - 1) = .ok ws s2 →
      (decode s2.helper (wordsToNat (w0 :: ws)) = .illegal → step s = ticked (.next (s2.fault (Trap.plain 0x01 0)))) ∧
      (∀ lo, decode s2.helper (wordsToNat (w0 :: ws)) = .reserved lo →
        step s = ticked (.next (s2.fault (reservedTrap s2 (wordsToNat (w0 :: ws)) lo)))))

/-! ## Scalar arithmetic -/

/-- Integer instructions of two sources: the result is the one R195 to R197 give, d takes it, and nothing else changes but
what every retirement changes. -/
def Obligations.IntegerTwoSourceResults : Prop :=
  ∀ e ∈ twoSource, ∀ (d a b : Nat) (s : State), Stands s → Admits s e.since →
    ∃ t r, exec (e.ins d a b) s = .next t ∧ e.rel (operand s.cur a) (operand s.cur b) r ∧
      WritesScalar s t 1 d r (some a) (some b)

/-- Integer instructions of one source (R195). -/
def Obligations.IntegerOneSourceResults : Prop :=
  ∀ e ∈ oneSource, ∀ (d a : Nat) (s : State), Stands s →
    ∃ t r, exec (e.ins d a) s = .next t ∧ e.rel (operand s.cur a) r ∧ WritesScalar s t e.words d r (some a) none

/-- Instructions with an immediate, in every form of it, LUI and AUIPC, whose immediate is 4,096 times a signed number of 20
bits, and INS.n64, which puts a field into the old value of d, as far as bit 63 (R175, R193, R196, R198, R199). -/
def Obligations.ImmediateAndFieldResults : Prop :=
  (∀ (i : BitVec 12) (l : BitVec 32) (q : BitVec 64) (n : Nat), n < 64 → ∀ e ∈ withImmediate i l q n,
    ∀ (d a : Nat) (s : State), Stands s →
    ∃ t r, exec (e.ins d a) s = .next t ∧ e.rel (operand s.cur a) r ∧ WritesScalar s t e.words d r (some a) none) ∧
  (∀ (i : BitVec 20) (d : Nat) (s : State), Stands s →
    (∃ t, exec (.lui i d) s = .next t ∧ WritesScalar s t 1 d (BitVec.ofInt 64 (i.toInt * 4096)) none none) ∧
    (∃ t, exec (.auipc i d) s = .next t ∧ WritesScalar s t 1 d (s.cur.pc + BitVec.ofInt 64 (i.toInt * 4096)) none none)) ∧
  (∀ (d a b : Nat) (s : State), Stands s →
    ∃ t r, exec (.insN64 d a b) s = .next t ∧ WritesScalar s t 1 d r (some a) (some b) ∧
      let x := operand s.cur a
      let y := operand s.cur b
      let pos := y.toNat % 64
      ∀ i, i < 64 → r.getLsbD i =
        if pos ≤ i ∧ i < pos + lenOfField y then x.getLsbD (i - pos) else (s.cur.sreg d).getLsbD i)

/-- Divisions, remainders and the square root: the result R200 or R203 gives, placed by the lookahead field (R75). -/
def Obligations.LongLatencyResults : Prop :=
  (∀ e ∈ longResults, ∀ (n d a b : Nat) (s : State), Stands s →
    ∃ t r, exec (e.ins n d a b) s = .next t ∧ e.rel (operand s.cur a) (operand s.cur b) r ∧
      PlacesScalar s t 1 n d r (some a) (some b)) ∧
  (∀ (n d a : Nat) (s : State), Stands s →
    ∃ t r, exec (.fsqrtF32 n d a) s = .next t ∧ r.toNat = rneF32 (fv (operand s.cur a)).sqrt ∧ PlacesScalar s t 1 n d r (some a) none)

/-- Scalar floating point: every result is the one R202 gives, rounded once; FMA.f32 reads d as its addend. -/
def Obligations.ScalarFloatResults : Prop :=
  (∀ e ∈ floatTwo, ∀ (d a b : Nat) (s : State), Stands s →
    ∃ t r, exec (e.ins d a b) s = .next t ∧ e.rel (operand s.cur a) (operand s.cur b) r ∧ WritesScalar s t 1 d r (some a) (some b)) ∧
  (∀ e ∈ floatOne, ∀ (d a : Nat) (s : State), Stands s →
    ∃ t r, exec (e.ins d a) s = .next t ∧ e.rel (operand s.cur a) r ∧ WritesScalar s t 1 d r (some a) none) ∧
  (∀ (d a b : Nat) (s : State), Stands s →
    ∃ t r, exec (.fmaF32 d a b) s = .next t ∧
      isF32 (((fv (operand s.cur a)).mul (fv (operand s.cur b))).add (fv (s.cur.sreg d))) r ∧
      WritesScalar s t 1 d r (some a) (some b))

/-! ## Guards -/

/-- Compares of registers and with an immediate, integer and floating-point, write the guard they name; GAND to GNOT combine
two guards, GSET sets one (R204 to R207). -/
def Obligations.GuardResults : Prop :=
  (∀ e ∈ compares, ∀ (g a b : Nat) (s : State), Stands s →
    ∃ t, exec (e.ins g a b) s = .next t ∧ WritesGuard s t g (e.cond (operand s.cur a) (operand s.cur b)) (some a) (some b)) ∧
  (∀ (i : BitVec 8) (cond a g : Nat) (s : State), Stands s → cond < 8 →
    ∃ t, exec (.cmpi i cond a g) s = .next t ∧
      ∀ e, compares[cond]? = some e → WritesGuard s t g (e.cond (operand s.cur a) (cmpImmediate cond i)) (some a) none) ∧
  (∀ e ∈ guardLogic, ∀ (d a b : Nat) (s : State), Stands s →
    ∃ t, exec (e.ins d a b) s = .next t ∧ WritesGuard s t d (e.val (s.cur.guard a) (s.cur.guard b)) none none) ∧
  (∀ (d v : Nat) (s : State), Stands s → ∃ t, exec (.gset d v) s = .next t ∧ WritesGuard s t d (decide (v = 1)) none none)

/-! ## Prepare and transfer -/

/-- PREP and PREPR. The relative form adds four times a signed 20-bit number to the address of the PREP; the literal form and
PREPR take a target that must be canonical and aligned, and else fault with FLT_TARGET, 1 for the one and 2 for the other. The
register takes the target and is valid; the prefetch never faults, and what it finds changes no register (it may fill TLBs:
the state it leaves is the second part of the prefetch) (R175, R210, R211, R437). -/
def Obligations.PrepareResults : Prop :=
  ∀ (disp : BitVec 20) (l : BitVec 64) (a n : Nat) (s : State), Stands s →
    (let x := BitVec.ofInt 64 (s.cur.pc.toInt + disp.toInt * 4)
     Stands (prefetch s x).2 →
      ∃ t, exec (.prep disp n) s = .next t ∧ WritesTarget (prefetch s x).2 t 1 n (prepared (prefetch s x).2 x (prefetch s x).1) none) ∧
    (goodTarget l → Stands (prefetch s l).2 →
      ∃ t, exec (.prepLit64 l n) s = .next t ∧ WritesTarget (prefetch s l).2 t 3 n (prepared (prefetch s l).2 l (prefetch s l).1) none) ∧
    (let x := operand s.cur a
     let u := s.setCur { s.cur with la := latchAfter s.cur s.cur.la (some a) }
     goodTarget x → Stands (prefetch u x).2 → (prefetch u x).2.cur = u.cur →
      ∃ t, exec (.prepr a n) s = .next t ∧ WritesTarget (prefetch u x).2 t 1 n (prepared (prefetch u x).2 x (prefetch u x).1) none) ∧
    (∀ x, ¬ goodTarget x →
      let r := if (x.setWidth 48).signExtend 64 = x then 2 else 1
      (x = l → exec (.prepLit64 l n) s = .next (s.fault (Trap.at 0x03 r 4 x))) ∧
      (x = operand s.cur a → exec (.prepr a n) s = .next (s.fault (Trap.at 0x03 r 4 x))))

/-- JMP, JMPT, JMPF, CALL and RET through a valid register: the instruction that follows is next, as the slot, and the target
or, where the guard does not take it, the address after the slot is held for after it; CALL sets b7 to that address. The
slot's first word tells its length (R212, R213). -/
def Obligations.TransfersHoldTheirDestination : Prop :=
  ∀ (n g w : Nat) (s u : State), Stands s → Stands u → s.cur.tv = none →
    fetchWord s s.curCore s.curSlot (s.cur.pc + 4) = .ok [w] u → u.cur = s.cur →
    let after := s.cur.pc + 4 + BitVec.ofNat 64 (4 * lenOf w)
    (∀ bt, vget s.cur.b n BTarget.clear = bt → bt.valid = true →
      (∀ e ∈ transfers, ∃ t, exec (e.ins n g) s = .next t ∧ Transferred u t (if e.taken s.cur g then bt.addr else after)) ∧
      (let p := prefetch u after
       Stands p.2 → p.2.cur = u.cur →
        ∃ t, exec (.call n) s = .next t ∧
          Transferred (p.2.setCur { u.cur with b := u.cur.b.setIfInBounds 7 (prepared p.2 after p.1) }) t bt.addr)) ∧
    (∀ bt, vget s.cur.b 7 BTarget.clear = bt → bt.valid = true →
      ∃ t, exec .ret s = .next t ∧ Transferred u t bt.addr)

/-- A transfer through a register that is not valid faults with FLT_TARGET 0, taken or not, and a transfer, TRAP or ERET in
a slot is FLT_ILLEGAL 2 (R212, R213, R435). -/
def Obligations.TransferFaults : Prop :=
  ∀ (n g k : Nat) (s : State), Stands s →
    (s.cur.tv = none → (vget s.cur.b n BTarget.clear).valid = false →
      (∀ e ∈ transfers, exec (e.ins n g) s = .next (s.fault (Trap.plain 0x03 0))) ∧
      exec (.call n) s = .next (s.fault (Trap.plain 0x03 0))) ∧
    (s.cur.tv = none → (vget s.cur.b 7 BTarget.clear).valid = false → exec .ret s = .next (s.fault (Trap.plain 0x03 0))) ∧
    (∀ d, s.cur.tv = some d →
      ∀ i ∈ [Instr.jmp n, .jmpt g n, .jmpf g n, .call n, .ret, .trap k, .eret],
        exec i s = .next (s.fault (Trap.plain 0x01 2)))

/-- FENCE, ISYNC and WAIT. FENCE retires at once: where older writes have still to be performed at its scope, a FENCE of REL or FULL
stays behind among the posted stores of the core as a marker, the model's choice (log 9), and the context goes on. ISYNC and WAIT retire once the older writes that they wait
for are performed, as far as the counts ask; ISYNC drops the prefetches of b0 to b7. Where nothing of the core is posted and, but for
scope 0, no stamped write is on its way, nothing else changes (R145 to R149, R223, R224, R226). -/
def Obligations.FencesAndWaitsComplete : Prop :=
  ∀ (scope kind code : Nat) (s : State), Stands s →
    (∀ u, settleScope s s.curCore (if kind = 1 then 0 else scope) = .ok () u → Stands u →
      ∃ t, exec (.fence scope kind) s = .next t ∧ WritesNothing u t 1 none none) ∧
    (∀ u, settleScope s s.curCore (if kind = 1 then 0 else scope) = .wait u →
      (kind = 1 → Stands u → ∃ t, exec (.fence scope kind) s = .next t ∧ WritesNothing u t 1 none none) ∧
      (kind ≠ 1 →
        let v := u.setMe { u.me with posted := u.me.posted ++ [fenceMark u scope (kind == 3)] }
        Stands v → ∃ t, exec (.fence scope kind) s = .next t ∧ WritesNothing v t 1 none none)) ∧
    (∀ u, settleWait s s.who code = .ok () u → Stands u →
      ∃ t, exec (.wait code) s = .next t ∧ WritesNothing u t 1 none none) ∧
    (∀ u, settleScope s s.curCore 2 = .ok () u → Stands u →
      ∃ t, exec .isync s = .next t ∧
        WritesNothing (u.setCur { u.cur with b := u.cur.b.map fun x => { x with pre := none } }) t 1 none none) ∧
    (s.me.posted = [] →
      (scope = 0 ∨ s.flights = [] → ∃ t, exec (.fence scope kind) s = .next t ∧ WritesNothing s t 1 none none) ∧
      (code < 2 ∨ s.flights = [] → ∃ t, exec (.wait code) s = .next t ∧ WritesNothing s t 1 none none))

/-- FLUSH of no bytes touches no line; of a range of canonical addresses it performs the older writes and then flushes, on
both dies, the lines of the resident process that the range touches, and retires when every one is done, else executes again; a
range that leaves the address space faults (R225, R437). -/
def Obligations.FlushCompletes : Prop :=
  ∀ (keep : Bool) (a b : Nat) (s : State), Stands s →
    let x := operand s.cur a
    let n := operand s.cur b
    (2 ^ 64 < x.toNat + n.toNat → exec (.flush keep a b) s = .next (s.fault (Trap.plain 0x02 0x8008))) ∧
    (∀ u, settleScope s s.curCore 3 = .ok () u → Stands u → u.cur = s.cur →
      (n = 0 → ∃ t, exec (.flush keep a b) s = .next t ∧ WritesNothing u t 1 (some a) (some b)) ∧
      (n ≠ 0 → x.toNat + n.toNat ≤ 2 ^ 64 → (x.setWidth 48).signExtend 64 = x →
        ((x + n - 1).setWidth 48).signExtend 64 = x + n - 1 →
        let lo := x.toNat % 2 ^ 48 / 128
        let hi := (x + n - 1).toNat % 2 ^ 48 / 128
        let p := flushDie u 0 u.me.pid lo hi keep
        let v := flushDie p 1 p.me.pid lo hi keep
        (FlushDone v 0 v.me.pid lo hi keep → FlushDone v 1 v.me.pid lo hi keep → Stands v → v.cur = s.cur →
          ∃ t, exec (.flush keep a b) s = .next t ∧ WritesNothing v t 1 (some a) (some b)) ∧
        (¬ (FlushDone v 0 v.me.pid lo hi keep ∧ FlushDone v 1 v.me.pid lo hi keep) → exec (.flush keep a b) s = .next v)))

/-! ## Scalar memory -/

/-- LOCAL loads of format M, and MEMX loads of LOCAL, read the little-endian bytes of the core's own pad bytes at their
effective address, extend them, and place them by the lookahead field (R110, R175, R179, R216, R217, R218). -/
def Obligations.LocalLoads : Prop :=
  (∀ e ∈ loadsM, e.space = 0 → ∀ (imm : BitVec 8) (n a d : Nat) (s : State), Stands s →
    let ea := addressM (operand s.cur a) imm e.lg
    PadClear s ea.toNat (2 ^ e.lg) → NoFailing s ea.toNat (2 ^ e.lg) →
    ∃ t, exec (e.ins imm n a d) s = .next t ∧
      PlacesScalar s t 1 n d
        (loaded e.signed (2 ^ e.lg) (littleEndian (fun i => memGet s.pad (localAt s.curCore (ea.toNat + i))) (2 ^ e.lg))) (some a) none) ∧
  (∀ e ∈ loadsX, ∀ (d a b isc : Nat) (m : Addr) (x : Ext) (s : State), Stands s → Executes s x → m.space = 0 → x.wait = 0 →
    let ea := addressX (operand s.cur a) (operand s.cur b) isc m.off
    PadClear s ea.toNat (2 ^ e.lg) → NoFailing s ea.toNat (2 ^ e.lg) →
    ∃ t, exec (e.ins d a b isc m x) s = .next t ∧
      PlacesScalar s t (extWords m.off) x.ahead d
        (loaded e.signed (2 ^ e.lg) (littleEndian (fun i => memGet s.pad (localAt s.curCore (ea.toNat + i))) (2 ^ e.lg))) (some a) (some b))

/-- LOCAL stores write the low bytes of their data register at their effective address, and every other byte of the device
reads as before (R110, R143, R175, R179, R216, R217). -/
def Obligations.LocalStores : Prop :=
  (∀ e ∈ storesM, e.space = 0 → ∀ (imm : BitVec 8) (a d : Nat) (s : State), Stands s →
    let ea := addressM (operand s.cur a) imm e.lg
    PadClear s ea.toNat (2 ^ e.lg) →
    ∃ u t, exec (e.ins imm a d) s = .next t ∧ LocalWritten s u ea.toNat (2 ^ e.lg) (operand s.cur d) ∧
      WritesNothing u t 1 (some a) (some d)) ∧
  (∀ e ∈ storesX, ∀ (a b : Nat) (m : Addr) (x : Ext) (s : State), Stands s → Executes s x → m.space = 0 → x.wait = 0 → x.ord ≠ 2 →
    let ea := addressX (operand s.cur a) 0 0 m.off
    PadClear s ea.toNat (2 ^ e.lg) →
    ∃ u t, exec (e.ins a b m x) s = .next t ∧ LocalWritten s u ea.toNat (2 ^ e.lg) (operand s.cur b) ∧
      WritesNothing u t (extWords m.off) (some a) (some b))

/-- Loads of any space: where the wait of the form is over, the address passes its checks and the access answers bytes, the
load completes with their value. The access is the model's own function (`loadPiece`); what a LOCAL one answers is said by
LocalLoads, what a GLOBAL one that hits the L2 answers by GlobalLoadHitsL2. -/
def Obligations.LoadsOfEverySpaceComplete : Prop :=
  (∀ e ∈ loadsM, ∀ (imm : BitVec 8) (n a d : Nat) (bs : List Byte) (s v u : State), Stands s → Stands u →
    let ea := addressM (operand s.cur a) imm e.lg
    settleFor s s.who e.space 0 ea = v → check6 v v.who .scalar e.space 0 ea (2 ^ e.lg) e.lg 1 = none →
    loadPiece v v.who .scalar e.space 0 ea (2 ^ e.lg) = .ok bs u → bs.length = 2 ^ e.lg →
    ∃ t, exec (e.ins imm n a d) s = .next t ∧
      PlacesScalar u t 1 n d (loaded e.signed (2 ^ e.lg) (littleEndian (fun i => bs.getD i 0) (2 ^ e.lg))) (some a) none) ∧
  (∀ e ∈ loadsX, ∀ (d a b isc : Nat) (m : Addr) (x : Ext) (bs : List Byte) (s w v u : State), Stands s → Executes s x → Stands u →
    settleWait s s.who x.wait = .ok () w →
    let ea := addressX (operand w.cur a) (operand w.cur b) isc m.off
    settleFor w w.who m.space m.csel ea = v → check6 v v.who .scalar m.space m.csel ea (2 ^ e.lg) e.lg 1 = none →
    loadPiece v v.who .scalar m.space m.csel ea (2 ^ e.lg) = .ok bs u → bs.length = 2 ^ e.lg →
    ∃ t, exec (e.ins d a b isc m x) s = .next t ∧
      PlacesScalar u t (extWords m.off) x.ahead d
        (loaded e.signed (2 ^ e.lg) (littleEndian (fun i => bs.getD i 0) (2 ^ e.lg))) (some a) (some b))

/-- Stores of any space: where the wait and the release of the form are done, the address passes its checks, every piece
has a place and the pieces leave the core, the store completes and changes no register (R143, R144, R148, R216, R217). -/
def Obligations.StoresOfEverySpaceComplete : Prop :=
  (∀ e ∈ storesM, ∀ (imm : BitVec 8) (a d : Nat) (ps : List Piece) (s v p u : State), Stands s → Stands u →
    let ea := addressM (operand s.cur a) imm e.lg
    settleFor s s.who e.space 0 ea = v → check6 v v.who .scalar e.space 0 ea (2 ^ e.lg) e.lg 2 = none →
    storePieces v v.who .scalar e.space 0 ea 2 0 (natToBytes (2 ^ e.lg) (operand v.cur d).toNat) = (.ok ps, p) →
    sendPieces p p.who (p.ctxid p.curCore p.curSlot) p.cur.pc e.space ps = .ok () u → v.cur = s.cur →
    ∃ t, exec (e.ins imm a d) s = .next t ∧ WritesNothing u t 1 (some a) (some d)) ∧
  (∀ e ∈ storesX, ∀ (a b : Nat) (m : Addr) (x : Ext) (ps : List Piece) (s w y v p u : State), Stands s → Executes s x → Stands u →
    settleWait s s.who x.wait = .ok () w → (if x.ord = 2 then settleScope w w.curCore x.scope else .ok () w) = .ok () y →
    let ea := addressX (operand y.cur a) 0 0 m.off
    settleFor y y.who m.space m.csel ea = v → check6 v v.who .scalar m.space m.csel ea (2 ^ e.lg) e.lg 2 = none →
    storePieces v v.who .scalar m.space m.csel ea 2 0 (natToBytes (2 ^ e.lg) (operand v.cur b).toNat) = (.ok ps, p) →
    sendPieces p p.who (p.ctxid p.curCore p.curSlot) p.cur.pc m.space ps = .ok () u → v.cur = y.cur →
    ∃ t, exec (e.ins a b m x) s = .next t ∧ WritesNothing u t (extWords m.off) (some a) (some b))

/-- A GLOBAL load of a translated HBM address that no paddock caches and whose line the die's L2 holds, under its canonical name,
reads the line's bytes, and nothing but the registers changes (R121 to R123, R127, R129, R216). -/
def Obligations.GlobalLoadHitsL2 : Prop :=
  ∀ e ∈ loadsM, e.space = 2 → ∀ (imm : BitVec 8) (n a d : Nat) (s : State) (te : TlbEnt) (ln : L2Line), Stands s → s.curSlot ≠ 9 →
    let ea := addressM (operand s.cur a) imm e.lg
    let va := ea.toNat % 2 ^ 48
    let die := s.curCore / 48
    ea.toNat % 2 ^ e.lg = 0 → (ea.setWidth 48).signExtend 64 = ea → s.me.posted = [] →
    (s.station (stationOf die s.me.pid va)).find? (·.hits s.me.pid va) = some te →
    wbit te.leaf 6 = false → wbit te.leaf 2 = true →
    let pa := wfld te.leaf 45 16 * 65536 + va % 2 ^ te.size
    pa < 0x47_B800_0000 → s.pc (s.curCore / 8) = [] →
    (s.l2Of die).find? (·.pln == pa / 128) = some ln → dirBusy s die ln.pid ln.vln = false →
    (∀ l ∈ s.l2Of die, l.pid = s.me.pid → l.vln = va / 128 → l.pln = pa / 128) → ln.bad = [] → ln.data.length = 128 →
    ln.valid = List.replicate 128 true → wayCount s (s.curCore / 8) = 0 →
    ∃ t, exec (e.ins imm n a d) s = .next t ∧
      PlacesScalar s t 1 n d (loaded e.signed (2 ^ e.lg) (littleEndian (fun i => ln.data.getD (va % 128 + i) 0) (2 ^ e.lg))) (some a) none

/-- Atomics on a pad word of the core's own LOCAL space: the old value goes to D, and the bytes become the new value,
ACAS's only where the compare holds. The step ATOMIC_PERFORM completes so too, for the context that can execute and whose next
instruction is the atomic, in the state `s` that fetching it leaves: that the step executes the atomic at the head of a context is the
model's own reading (log 4). In any space and with any ORD an atomic completes where its wait and its release are done, its address
passes its checks and the access answers: the access is the model's own function (`atomicAt`), given the value that the rules make of
the old one (R141, R148, R154, R160, R220, R221). -/
def Obligations.LocalAtomics : Prop :=
  ∀ (d a b c : Nat) (sz : Bool) (m : Addr) (x : Ext) (s : State), Stands s → Executes s x →
    let n := if sz then 8 else 4
    (∀ w y u, Stands u → settleWait s s.who x.wait = .ok () w →
      (if 2 ≤ x.ord then settleScope w w.curCore x.scope else .ok () w) = .ok () y →
      let ea := addressX (operand y.cur a) 0 0 m.off
      let v := (operand y.cur b).toNat % 2 ^ (8 * n)
      let z := settleFor y y.who m.space m.csel ea
      check6 z z.who .atomic m.space m.csel ea n (if sz then 3 else 2) 3 = none →
      (∀ old, old < 2 ^ (8 * n) → ∀ e ∈ atomics, atomicAt z z.who m.space m.csel ea n (fun o => some (e.new (8 * n) o v)) = .ok old u →
        ∃ t, exec (e.ins d a b sz m x) s = .next t ∧
          PlacesScalar u t (extWords m.off) x.ahead d (loaded (e.signed && !sz) n old) (some a) (some b)) ∧
      (∀ old, old < 2 ^ (8 * n) → atomicAt z z.who m.space m.csel ea n
          (fun o => if o = (z.cur.sreg c).toNat % 2 ^ (8 * n) then some v else none) = .ok old u →
        ∃ t, exec (.acas d a b sz c m x) s = .next t ∧
          PlacesScalar u t (extWords m.off) x.ahead d (loaded false n old) (some a) (some b)) ∧
      (∀ old, old < 2 ^ (8 * n) → sz = false → Admits s 2 →
        atomicAt z z.who m.space m.csel ea 4 (fun o => some (rneF32 ((f32 o).add (f32 v)))) = .ok old u →
        ∃ t, exec (.afaddF32 d a b m x) s = .next t ∧
          PlacesScalar u t (extWords m.off) x.ahead d (loaded false 4 old) (some a) (some b))) ∧
    (m.space = 0 → x.wait = 0 → x.ord < 2 →
    let ea := addressX (operand s.cur a) 0 0 m.off
    let old := littleEndian (fun i => memGet s.pad (localAt s.curCore (ea.toNat + i))) n
    let v := (operand s.cur b).toNat % 2 ^ (8 * n)
    PadClear s ea.toNat n → NoFailing s ea.toNat n →
    (∀ e ∈ atomics, ∃ u t, exec (e.ins d a b sz m x) s = .next t ∧
      LocalWritten s u ea.toNat n (BitVec.ofNat 64 (e.new (8 * n) old v)) ∧
      PlacesScalar u t (extWords m.off) x.ahead d (loaded (e.signed && !sz) n old) (some a) (some b)) ∧
    (∀ (core slot k : Nat) (s₀ f : State) (ws : List Nat) (i : Instr), canRun s₀ true core slot = true →
      atBreak s₀ core slot = false → fetchWords s₀ core slot (s₀.ctx core slot).pc 3 = .ok ws f → f.moveTo core slot = s →
      decodeIn atomRows (slot != 15) (wordsToNat ws) = .ok i k →
      (∀ e ∈ atomics, i = e.ins d a b sz m x → ∃ u t, exec (.atomicPerform core slot) s₀ = .next t ∧
        LocalWritten s u ea.toNat n (BitVec.ofNat 64 (e.new (8 * n) old v)) ∧
        PlacesScalar u t (extWords m.off) x.ahead d (loaded (e.signed && !sz) n old) (some a) (some b)) ∧
      (i = .acas d a b sz c m x → ∃ u t, exec (.atomicPerform core slot) s₀ = .next t ∧
        (if old = (s.cur.sreg c).toNat % 2 ^ (8 * n) then LocalWritten s u ea.toNat n (BitVec.ofNat 64 v) else u = s) ∧
        PlacesScalar u t (extWords m.off) x.ahead d (loaded false n old) (some a) (some b)) ∧
      (sz = false → Admits s 2 → i = .afaddF32 d a b m x → ∃ u t, exec (.atomicPerform core slot) s₀ = .next t ∧
        LocalWritten s u ea.toNat 4 (BitVec.ofNat 64 (rneF32 ((f32 old).add (f32 v)))) ∧
        PlacesScalar u t (extWords m.off) x.ahead d (loaded false 4 old) (some a) (some b))) ∧
    (∃ u t, exec (.acas d a b sz c m x) s = .next t ∧
      (if old = (s.cur.sreg c).toNat % 2 ^ (8 * n) then LocalWritten s u ea.toNat n (BitVec.ofNat 64 v) else u = s) ∧
      PlacesScalar u t (extWords m.off) x.ahead d (loaded false n old) (some a) (some b)) ∧
    (sz = false → Admits s 2 → ∃ u t, exec (.afaddF32 d a b m x) s = .next t ∧
      LocalWritten s u ea.toNat 4 (BitVec.ofNat 64 (rneF32 ((f32 old).add (f32 v)))) ∧
      PlacesScalar u t (extWords m.off) x.ahead d (loaded false 4 old) (some a) (some b)))

/-- A scalar load, store or atomic, of format M or of an extended form, in any space, whose address is no multiple of its size faults
with FLT_ALIGN and the size's logarithm; an aligned LOCAL address of 2^21 or more, a PADDOCK one of 2^24 or more, and a GLOBAL one that
is not canonical, with FLT_XLATE 1; an access that a FIFO bank does not take with FLT_ALIGN and its entry size, an atomic there, and one
of host memory, Tandem, the device or an alias page, with FLT_PERM 0x0400; one in a bank of another mode with FLT_XLATE and the mode, of
another PID, and in the directory overflow area, with FLT_PERM; and one of a page in HBM that lacks RD or W with FLT_PERM and the bits it
lacks. Nothing is accessed; the wait and the release of the form are done, and the switches that the core itself sent to the bank have
been performed (R109, R116, R128, R218, R431, R433, R436, R444, R445, R449). -/
def Obligations.ScalarAddressFaults : Prop :=
  ∀ (imm : BitVec 8) (n a b d isc : Nat) (m : Addr) (x : Ext) (s : State), Stands s →
    (∀ e ∈ loadsM, AccessFaults (e.ins imm n a d) s s e.space 0 e.lg 1 (addressM (operand s.cur a) imm e.lg)) ∧
    (∀ e ∈ storesM, AccessFaults (e.ins imm a d) s s e.space 0 e.lg 2 (addressM (operand s.cur a) imm e.lg)) ∧
    (Executes s x → ∀ w, settleWait s s.who x.wait = .ok () w →
      (∀ e ∈ loadsX, AccessFaults (e.ins d a b isc m x) s w m.space m.csel e.lg 1
        (addressX (operand w.cur a) (operand w.cur b) isc m.off)) ∧
      (∀ y, (if x.ord = 2 then settleScope w w.curCore x.scope else .ok () w) = .ok () y →
        ∀ e ∈ storesX, AccessFaults (e.ins a b m x) s y m.space m.csel e.lg 2 (addressX (operand y.cur a) 0 0 m.off)) ∧
      (∀ y, (if 2 ≤ x.ord then settleScope w w.curCore x.scope else .ok () w) = .ok () y →
        let ea := addressX (operand y.cur a) 0 0 m.off
        (∀ sz : Bool,
          let lg := if sz then 3 else 2
          (∀ e ∈ atomics, AccessFaults (e.ins d a b sz m x) s y m.space m.csel lg 3 ea) ∧
          ∀ c, AccessFaults (.acas d a b sz c m x) s y m.space m.csel lg 3 ea) ∧
        (Admits s 2 → AccessFaults (.afaddF32 d a b m x) s y m.space m.csel 2 3 ea)))

/-! ## Run vectors

The premise `vecResult … = .ok r` (`maskResult … = .ok r`) says that the result stays within 64 (128) runs. It is said with the
model's own alignment of runs, because the count depends on where runs end; the conclusions then speak of elements alone, so
they tie that alignment to R231. -/

/-- Element-wise instructions of two run vectors: element e of the result is the operation of the two sources' elements e, the
shorter source extended with zeros, where the mask is true, and else zero or the old element; a result of more than 64 runs
faults instead (R230, R231, R233, R237, R239). -/
def Obligations.VectorTwoSourceElements : Prop :=
  ∀ (w : Nat), w < 3 → ∀ e ∈ vecInts w ++ vecFloats, ∀ (d a b : Nat) (p : Pfx) (s : State), Stands s → a < 16 → b < 16 → d < 16 →
    let c := s.cur
    let n := lenV (c.vreg a)
    let runs := applySegs (fun x => e.op p x.1 x.2) (segments c p.mask p.zero n (pairRuns c a b) (c.vruns d) 0)
    (∀ r, vecResult p.coal runs = .ok r → ∃ t, exec (e.ins d a b p) s = .next t ∧
      WritesVector s t (prefixWords p) d (Elementwise c p n (fun i => e.op p (el (c.vreg a) i) (el (c.vreg b) i)) (c.vreg d)) none none) ∧
    Overflows s 64 (e.ins d a b p) (vecResult p.coal runs)

/-- Element-wise instructions of one run vector, the fused multiply-add of three, and the select; a result of more than 64 runs
faults instead (R233, R239, R241). -/
def Obligations.VectorOneAndThreeSourceElements : Prop :=
  ∀ (d a b : Nat) (p : Pfx) (s : State), Stands s → a < 16 → b < 16 → d < 16 → p.fourth < 16 →
    let c := s.cur
    let n := lenV (c.vreg a)
    (∀ e ∈ vecOnes,
      let res := vecResult p.coal (applySegs (e.op p) (segments c p.mask p.zero n (c.vruns a) (c.vruns d) 0))
      Overflows s 64 (e.ins d a p) res ∧
      ∀ r, res = .ok r → ∃ t, exec (e.ins d a p) s = .next t ∧
        WritesVector s t (prefixWords p) d (Elementwise c p n (fun i => e.op p (el (c.vreg a) i)) (c.vreg d)) none none) ∧
    (let z := if p.f4v then p.fourth else d
     let op (x : (Nat × Nat) × Nat) : Nat := rounded p (((f32 x.1.1).mul (f32 x.1.2)).add (f32 x.2))
     let res := vecResult p.coal (applySegs op (segments c p.mask p.zero n
        (zipRuns (pairRuns c a b) (fitRuns 0 n (c.vruns z))) (c.vruns d) 0))
     Overflows s 64 (.vfmaF32 d a b p) res ∧
     ∀ r, res = .ok r →
      ∃ t, exec (.vfmaF32 d a b p) s = .next t ∧
        WritesVector s t (prefixWords p) d
          (Elementwise c p n (fun i => op ((el (c.vreg a) i, el (c.vreg b) i), el (c.vreg z) i)) (c.vreg d)) none none) ∧
    (let res := vecResult p.coal (applySegs id (segments c p.mask false n (c.vruns a) (c.vruns b) 0))
     Overflows s 64 (.vsel d a b p) res ∧
     ∀ r, res = .ok r →
      ∃ t, exec (.vsel d a b p) s = .next t ∧
        WritesVector s t (prefixWords p) d
          (Elementwise c { p with zero := false } n (fun i => el (c.vreg a) i) (c.vreg b)) none none)

/-- Vector compares write a mask, in canonical form: element e is the condition of the two elements e; a result of more than 128 runs
faults instead (R232, R233, R238). -/
def Obligations.VectorCompareElements : Prop :=
  ∀ (w : Nat), w < 3 → ∀ e ∈ vecCompares w, ∀ (d a b : Nat) (p : Pfx) (s : State), Stands s → a < 16 → b < 16 → d < 8 →
    let c := s.cur
    let n := lenV (c.vreg a)
    let res := maskResult (applySegs (fun x => e.cond x.1 x.2) (segments c p.mask p.zero n (pairRuns c a b) (c.kruns d) false))
    Overflows s 128 (e.ins d a b p) res ∧
    ∀ r, res = .ok r →
      ∃ t, exec (e.ins d a b p) s = .next t ∧
        WritesMask s t (prefixWords p) d (ElementwiseK c p n (fun i => e.cond (el (c.vreg a) i) (el (c.vreg b) i)) (maskEl c d)) none none

/-- Mask logic, copies and complements, element by element, of the length of the first source, in canonical form; a result of more
than 128 runs faults instead (R232, R233, R248). -/
def Obligations.MaskLogicElements : Prop :=
  ∀ (d a b : Nat) (p : Pfx) (s : State), Stands s → a < 8 → b < 8 → d < 8 →
    let c := s.cur
    let n := maskLen c a
    (∀ e ∈ maskTwos,
      let res := maskResult (applySegs (fun x => e.op x.1 x.2)
        (segments c p.mask p.zero n (zipRuns (c.kruns a) (fitRuns false n (c.kruns b))) (c.kruns d) false))
      Overflows s 128 (e.ins d a b p) res ∧
      ∀ r, res = .ok r → ∃ t, exec (e.ins d a b p) s = .next t ∧
        WritesMask s t (prefixWords p) d (ElementwiseK c p n (fun i => e.op (maskEl c a i) (maskEl c b i)) (maskEl c d)) none none) ∧
    (∀ e ∈ maskOnes,
      let res := maskResult (applySegs e.op (segments c p.mask p.zero n (c.kruns a) (c.kruns d) false))
      Overflows s 128 (e.ins d a p) res ∧
      ∀ r, res = .ok r → ∃ t, exec (e.ins d a p) s = .next t ∧
        WritesMask s t (prefixWords p) d (ElementwiseK c p n (fun i => e.op (maskEl c a i)) (maskEl c d)) none none)

/-- The prefix parity of a mask, the bits of a register as a mask, a mask's bits as a word, its count and its length (R248 to
R250). Masks are in canonical form (R232). A parity of more than 128 runs, as one of more than 511 true bits has, faults with
FLT_RUNOVF, and a STOK of more than 64 bits with FLT_RESERVED on field b (R233, R433, R438). -/
def Obligations.MaskConversions : Prop :=
  ∀ (d a b : Nat) (p : Pfx) (s : State), Stands s → a < 8 →
    let c := s.cur
    let n := maskLen c a
    let trues (m : Nat) : Nat := ((List.range m).filter (maskEl c a)).length
    (∃ t, exec (.kpopc d a p) s = .next t ∧ WritesScalar s t (prefixWords p) d (BitVec.ofNat 64 (trues n)) none none) ∧
    (∃ t, exec (.klen d a p) s = .next t ∧ WritesScalar s t (prefixWords p) d (BitVec.ofNat 64 n) none none) ∧
    (Admits s 1 → ∃ t w, exec (.ktos d a b p) s = .next t ∧ WritesScalar s t (prefixWords p) d w none (some b) ∧
      ∀ j, j < 64 → w.getLsbD j = maskEl c a ((operand c b).toNat + j)) ∧
    (Admits s 1 → d < 8 →
      (511 < trueCount (c.kruns a) → exec (.kpxor d a b p) s = .next (s.fault (Trap.plain 0x04 511))) ∧
      (trueCount (c.kruns a) ≤ 511 →
        let res := maskResult (parityRuns ((operand c b).getLsbD 0) (c.kruns a))
        Overflows s 128 (.kpxor d a b p) res ∧
        ∀ r, res = .ok r → ∃ t, exec (.kpxor d a b p) s = .next t ∧ WritesMask s t (prefixWords p) d
          (fun x => lenK x = n ∧ CanonicalK c x ∧
            ∀ e, e < n → elK x e = ((operand c b).getLsbD 0 != decide (trues (e + 1) % 2 = 1))) none (some b))) ∧
    (∀ (q : Nat), Admits s 1 → d < 8 →
      (64 < (operand c b).toNat → exec (.stok d q b p) s = .next (s.fault (Trap.plain 0x02 (fieldB p)))) ∧
      ((operand c b).toNat ≤ 64 → ∃ t, exec (.stok d q b p) s = .next t ∧ WritesMask s t (prefixWords p) d
        (fun x => lenK x = (operand c b).toNat ∧ CanonicalK c x ∧
          ∀ e, e < (operand c b).toNat → elK x e = (operand c q).getLsbD e) (some q) (some b)))

/-- Construction and shape: VSPLAT, VIOTA, VRUN, VSETLEN, VCOAL, VCOMP and VEXP, by the elements of their results, those of VSPLAT,
VIOTA and VCOAL in canonical form (R232, R240 to R245). More than 64 runs are FLT_RUNOVF, as are more than 511 active elements of
VIOTA; a length above 2^22 is FLT_RESERVED on field b, and of VRUN FLT_RUNOVF with INFO[15] (R233, R433, R438). -/
def Obligations.VectorConstruction : Prop :=
  ∀ (d a b : Nat) (p : Pfx) (s : State), Stands s → d < 16 →
    let c := s.cur
    let n := (operand c b).toNat
    let v := (operand c a).toNat % 2 ^ 32
    let act (m : Nat) : List Nat := (List.range m).filter (active c p.mask)
    (2 ^ 22 < n → ∀ i ∈ [Instr.vsplat d a b p, .viota d a b p, .vsetlen d a b p],
      exec i s = .next (s.fault (Trap.plain 0x02 (fieldB p)))) ∧
    (n ≤ 2 ^ 22 →
      (let res := vecResult true (applySegs (fun _ => v) (segments c p.mask p.zero n (plainRuns n) (c.vruns d) 0))
       Overflows s 64 (.vsplat d a b p) res ∧
       ∀ r, res = .ok r → ∃ t, exec (.vsplat d a b p) s = .next t ∧
          WritesVector s t (prefixWords p) d (fun x => Elementwise c p n (fun _ => v) (c.vreg d) x ∧ Canonical c x) (some a) (some b)) ∧
      (511 < (act n).length → exec (.viota d a b p) s = .next (s.fault (Trap.plain 0x04 511))) ∧
      ((act n).length ≤ 511 →
        let res := vecResult true (iotaRuns v 0 (segments c p.mask p.zero n (plainRuns n) (c.vruns d) 0))
        Overflows s 64 (.viota d a b p) res ∧
        ∀ r, res = .ok r → ∃ t, exec (.viota d a b p) s = .next t ∧
          WritesVector s t (prefixWords p) d (fun x => Elementwise c p n (fun e => v + e) (c.vreg d) x ∧ Canonical c x)
            (some a) (some b)) ∧
      (a < 16 →
        let res := vecResult p.coal (fitRuns 0 n (c.vruns a))
        Overflows s 64 (.vsetlen d a b p) res ∧
        ∀ r, res = .ok r → ∃ t, exec (.vsetlen d a b p) s = .next t ∧
          WritesVector s t (prefixWords p) d (fun x => lenV x = n ∧ ∀ e, e < n → el x e = el (c.vreg a) e) none (some b))) ∧
    (2 ^ 22 < lenV (c.vreg d) + n → exec (.vrun d a b p) s = .next (s.fault (Trap.plain 0x04 0x8000))) ∧
    (lenV (c.vreg d) + n ≤ 2 ^ 22 →
      let res := vecResult false (runAppend p.coal (c.vruns d) v n)
      Overflows s 64 (.vrun d a b p) res ∧
      ∀ r, res = .ok r → ∃ t, exec (.vrun d a b p) s = .next t ∧
        WritesVector s t (prefixWords p) d (fun x => lenV x = lenV (c.vreg d) + n ∧
          ∀ e, e < lenV x → el x e = if e < lenV (c.vreg d) then el (c.vreg d) e else v) (some a) (some b)) ∧
    (a < 16 →
      let k := lenV (c.vreg a)
      (let res := vecResult true (c.vruns a)
       Overflows s 64 (.vcoal d a p) res ∧
       ∀ r, res = .ok r → ∃ t, exec (.vcoal d a p) s = .next t ∧
          WritesVector s t (prefixWords p) d (fun x => lenV x = k ∧ Canonical c x ∧ ∀ e, e < k → el x e = el (c.vreg a) e) none none) ∧
      (let res := vecResult p.coal (activeRuns (segments (β := Nat) c p.mask true k (c.vruns a) [] 0))
       Overflows s 64 (.vcomp d a p) res ∧
       ∀ r, res = .ok r → ∃ t, exec (.vcomp d a p) s = .next t ∧
          WritesVector s t (prefixWords p) d (fun x => lenV x = (act k).length ∧
            (List.range (lenV x)).map (el x) = (act k).map (el (c.vreg a))) none none) ∧
      (let m := if p.mask = 0 then k else lenK (vget c.k p.mask [])
       let segs := segments c p.mask p.zero m (plainRuns m) (c.vruns d) 0
       let res := vecResult p.coal (expRuns ((c.vruns a).length + segs.length) (c.vruns a) segs)
       Overflows s 64 (.vexp d a p) res ∧
       ∀ r, res = .ok r → ∃ t, exec (.vexp d a p) s = .next t ∧
          WritesVector s t (prefixWords p) d (Elementwise c p m (fun e => el (c.vreg a) (act e).length) (c.vreg d)) none none))

/-- Lengths, run counts and single elements as scalars (R245). -/
def Obligations.VectorToScalar : Prop :=
  ∀ (d a b : Nat) (p : Pfx) (s : State), Stands s →
    let c := s.cur
    (∃ t, exec (.vlen d a p) s = .next t ∧ WritesScalar s t (prefixWords p) d (BitVec.ofNat 64 (lenV (c.vreg a))) none none) ∧
    (∃ t, exec (.vnrun d a p) s = .next t ∧ WritesScalar s t (prefixWords p) d (BitVec.ofNat 64 (c.vreg a).length) none none) ∧
    (∃ t, exec (.vtos d a b p) s = .next t ∧
      WritesScalar s t (prefixWords p) d (BitVec.ofNat 64 (el (c.vreg a) (operand c b).toNat)) none (some b))

/-- Reductions: the active elements taken one after another from the initial value in s[b]; VRSUM.i32 as a signed sum of 64 bits;
VRSUM.f32 and the floating-point extremes over the canonical runs of the active elements, each run's sum rounded once (R105,
R246). -/
def Obligations.VectorReductions : Prop :=
  ∀ (d a b : Nat) (p : Pfx) (s : State), Stands s → a < 16 →
    let c := s.cur
    let v0 := (operand c b).toNat % 2 ^ 32
    (∀ e ∈ reductions, ∃ t, exec (e.ins d a b p) s = .next t ∧
      WritesScalar s t (prefixWords p) d (e.res ((activeEls c p a).foldl e.step v0)) none (some b)) ∧
    (∃ t, exec (.vrsumI32 d a b p) s = .next t ∧
      WritesScalar s t (prefixWords p) d (BitVec.ofInt 64 ((operand c b).toInt + ((activeEls c p a).map (signedOf 32)).sum)) none (some b)) ∧
    (∃ t, exec (.vrsumF32 d a b p) s = .next t ∧
      WritesScalar s t (prefixWords p) d (BitVec.ofNat 64 ((redRuns c a p.mask).foldl
        (fun acc x => rneF32 ((f32 acc).addPos ((f32 x.1).mul (.ofIntExact x.2)))) v0)) none (some b)) ∧
    (∃ t, exec (.vrminF32 d a b p) s = .next t ∧
      WritesScalar s t (prefixWords p) d (BitVec.ofNat 64 ((redRuns c a p.mask).foldl
        (fun acc x => rneF32 ((f32 acc).min (f32 x.1))) v0)) none (some b)) ∧
    (∃ t, exec (.vrmaxF32 d a b p) s = .next t ∧
      WritesScalar s t (prefixWords p) d (BitVec.ofNat 64 ((redRuns c a p.mask).foldl
        (fun acc x => rneF32 ((f32 acc).max (f32 x.1))) v0)) none (some b))

/-- Scans: an active element of the result is the initial value and every active element up to it taken one after another, and the
result is in canonical form; one of more than 64 runs faults instead (R106, R232, R233, R247). -/
def Obligations.VectorScans : Prop :=
  ∀ e ∈ scans, ∀ (d a b : Nat) (p : Pfx) (s : State), Stands s → a < 16 → d < 16 →
    let c := s.cur
    let n := lenV (c.vreg a)
    let upTo (i : Nat) : List Nat := ((List.range (i + 1)).filter (active c p.mask)).map (el (c.vreg a))
    let res := vecResult true (scanRuns e.step ((operand c b).toNat % 2 ^ 32)
        (segments c p.mask p.zero n (c.vruns a) (c.vruns d) 0))
    Overflows s 64 (e.ins d a b p) res ∧
    ∀ r, res = .ok r → ∃ t, exec (e.ins d a b p) s = .next t ∧
        WritesVector s t (prefixWords p) d
          (fun x => Elementwise c p n (fun i => (upTo i).foldl e.step ((operand c b).toNat % 2 ^ 32)) (c.vreg d) x ∧ Canonical c x)
          none (some b)

/-- Run-vector loads from LOCAL: VLD reads element e at ea + e × size, VLDR the records of whole runs, VGATH one value for each
element of the index vector, all little-endian, and place the result, that of VLD and VGATH in canonical form; a VLDR of more than 64
records faults with FLT_RESERVED on its count, and one of any smaller number whose ea is no multiple of 8 with FLT_ALIGN 3. From any
space they complete where their wait is over and the access, which is the model's own function (`vload`), answers values: VLD takes one
for each active element, in order, VLDR one for each record, VGATH one for each run of active elements of the index; too many runs, or a
LEN above 2^22, fault (R232, R233, R251 to R254, R433, R438). -/
def Obligations.VectorLoads : Prop :=
  ∀ (d a b w mask isc : Nat) (zero : Bool) (m : Addr) (x : Ext) (s : State), Stands s → Executes s x →
    (x.ahead = 0 ∨ (s.cur.pend.filter (·.isVec)).length < 4) → d < 16 → w < 3 →
    let c := s.cur
    let base := (operand c a).toNat
    let at' (i : Nat) : Word := BitVec.ofInt 64 (base + offsetOf m.off + i)
    let p : Pfx := { Pfx.none with mask := mask, zero := zero }
    let recs (n : Nat) (v : Nat → Nat) : List Run := (List.range n).map fun i => ⟨BitVec.ofNat 32 (v i), v i / 2 ^ 32 % 2 ^ 16 + 1⟩
    let loads (i : Instr) (u : State) (vs : List Nat) (as : List Word) (lg : Nat) (res : Except Trap (List Run))
        (P : List Run → Prop) (fb : Option Nat) : Prop :=
      ∀ y, Stands u → u.cur = c → settleWait s s.who x.wait = .ok () y → y.cur = c →
        (∀ f, vload y m.space m.csel lg as f = f vs u) →
        (∀ r, res = .ok r → ∃ t, exec i s = .next t ∧ PlacesVector u t (extWords m.off) x.ahead d P (some a) fb) ∧
        (∀ t, res = .error t → exec i s = .next (u.fault t) ∧ ∃ n, 64 < n ∧ t = Trap.plain 0x04 (min n 511))
    (∀ (u : State) (vs : List Nat),
      (let n := (operand c b).toNat
       let act := (List.range n).filter (active c mask)
       let segs := segments c mask zero n (plainRuns n) (c.vruns d) 0
       n ≤ 2 ^ 22 → vs.length = act.length → (∀ v ∈ vs, v < 2 ^ 32) →
       loads (.vld d a b w mask zero m x) u vs (act.map fun e => at' (e * 2 ^ w)) w (vecResult true (fillElems segs vs))
        (fun r => Elementwise c p n (fun e => vs.getD ((List.range e).filter (active c mask)).length 0) (c.vreg d) r ∧ Canonical c r)
        (some b)) ∧
      (let n := (operand c b).toNat
       let rs := recs n fun i => vs.getD i 0
       n ≤ 64 → (at' 0).toNat % 8 = 0 → vs.length = n →
       (lenV rs ≤ 2 ^ 22 → loads (.vldr d a b m x) u vs ((List.range n).map fun i => at' (8 * i)) 3 (.ok rs) (· = rs) (some b)) ∧
       (2 ^ 22 < lenV rs → ∀ y, settleWait s s.who x.wait = .ok () y → y.cur = c →
        (∀ f, vload y m.space m.csel 3 ((List.range n).map fun i => at' (8 * i)) f = f vs u) →
        exec (.vldr d a b m x) s = .next (u.fault (Trap.plain 0x04 0x8000)))) ∧
      (let segs := segments c mask zero (lenV (c.vreg b)) (c.vruns b) (c.vruns d) 0
       let res := vecResult true (fillSegs segs vs)
       loads (.vgath d a b w mask zero isc m x) u vs ((activeRuns segs).map fun i => at' (i.1 * 2 ^ isc)) w res
        (fun r => res = .ok r) none)) ∧
    (m.space = 0 → x.wait = 0 →
    let read (i k : Nat) : Nat := littleEndian (fun j => memGet s.pad (localAt s.curCore ((at' i).toNat + j))) k
    let clear (i k : Nat) : Prop := PadClear s (at' i).toNat k ∧ NoFailing s (at' i).toNat k
    (let n := (operand c b).toNat
     n ≤ 2 ^ 22 → (∀ e, e < n → active c mask e = true → clear (e * 2 ^ w) (2 ^ w)) →
      let segs := segments c mask zero n (plainRuns n) (c.vruns d) 0
      ∀ r, vecResult true (fillElems segs ((activeIdx 0 segs).map fun e => read (e * 2 ^ w) (2 ^ w))) = .ok r →
      ∃ t, exec (.vld d a b w mask zero m x) s = .next t ∧
        PlacesVector s t (extWords m.off) x.ahead d
          (fun r => Elementwise c p n (fun e => read (e * 2 ^ w) (2 ^ w)) (c.vreg d) r ∧ Canonical c r) (some a) (some b)) ∧
    (let n := (operand c b).toNat
     n ≤ 64 → (at' 0).toNat % 8 = 0 → (∀ i, i < n → clear (8 * i) 8) →
      let rs := recs n fun i => read (8 * i) 8
      lenV rs ≤ 2 ^ 22 →
      ∃ t, exec (.vldr d a b m x) s = .next t ∧ PlacesVector s t (extWords m.off) x.ahead d (· = rs) (some a) (some b)) ∧
    (x.ord ≠ 2 → 64 < (operand c b).toNat → exec (.vldr d a b m x) s = .next (s.fault (Trap.plain 0x02 0x8008))) ∧
    (x.ord ≠ 2 → (operand c b).toNat ≤ 64 → (at' 0).toNat % 8 ≠ 0 →
      exec (.vldr d a b m x) s = .next (s.fault (Trap.at 0x07 3 1 (at' 0)))) ∧
    (let n := lenV (c.vreg b)
     let ix (e : Nat) : Nat := el (c.vreg b) e * 2 ^ isc
     b < 16 → (∀ e, e < n → active c mask e = true → clear (ix e) (2 ^ w)) →
      let segs := segments c mask zero n (c.vruns b) (c.vruns d) 0
      (∀ q ∈ activeRuns segs, q.2 ≠ 0) →
      ∀ r, vecResult true (fillSegs segs ((activeRuns segs).map fun i => read (i.1 * 2 ^ isc) (2 ^ w))) = .ok r →
      ∃ t, exec (.vgath d a b w mask zero isc m x) s = .next t ∧
        PlacesVector s t (extWords m.off) x.ahead d
          (fun r => Elementwise c p n (fun e => read (ix e) (2 ^ w)) (c.vreg d) r ∧ Canonical c r) (some a) none))

/-- Run-vector stores to LOCAL: VST writes the active elements at ea + e × size, VSTR the records of the runs, VSCAT the active
elements at the addresses of the index vector; every byte outside the addresses they compute reads as before; a VSTR whose ea is no
multiple of 8 faults with FLT_ALIGN 3, of however many runs. To any space they complete where their wait and their release are done and
the access, which is the model's own function (`vstore`), takes the values at those addresses (R251 to R254, R438). -/
def Obligations.VectorStores : Prop :=
  ∀ (d a b w mask isc : Nat) (m : Addr) (x : Ext) (s : State), Stands s → Executes s x → d < 16 → b < 16 → w < 3 →
    (∀ r ∈ s.cur.vreg d, r.len ≠ 0) → (∀ r ∈ s.cur.vreg b, r.len ≠ 0) → (∀ r ∈ vget s.cur.k mask [], r.len ≠ 0) →
    let c := s.cur
    let rs := c.vreg d
    let wd (i : Nat) : Word := BitVec.ofInt 64 ((operand c a).toNat + offsetOf m.off + i)
    let at' (i : Nat) : Nat := (wd i).toNat
    let els := (List.range (lenV rs)).filter (active c mask)
    let record (i : Nat) : Option Nat := rs[i]?.map fun r => r.val.toNat + 2 ^ 32 * (r.len - 1)
    (∀ y z u, Stands u → settleWait s s.who x.wait = .ok () y →
      (if x.ord = 2 then settleScope y y.curCore x.scope else .ok () y) = .ok () z → z.cur = c →
      let stores (i : Instr) (lg : Nat) (es : List (Word × Nat)) : Prop :=
        (∀ f, vstore z m.space m.csel lg es f = f u) → ∃ t, exec i s = .next t ∧ WritesNothing u t (extWords m.off) (some a) none
      stores (.vst d a w mask m x) w (els.map fun e => (wd (e * 2 ^ w), el rs e)) ∧
      (at' 0 % 8 = 0 →
        stores (.vstr d a m x) 3 ((List.range rs.length).map fun i => (wd (8 * i), (record i).getD 0))) ∧
      (let segs := segments c mask true (lenV rs) (zipRuns (c.vruns d) (fitRuns 0 (lenV rs) (c.vruns b))) ([] : Runs Nat) 0
       stores (.vscat d a b w mask isc m x) w ((activeRuns segs).map fun e => (wd (e.1.2 * 2 ^ isc), e.1.1)))) ∧
    (m.space = 0 → x.wait = 0 → x.ord ≠ 2 →
    let outside (ks : List Nat) (n k : Nat) : Prop := ∀ i ∈ ks, ¬ (localAt s.curCore (at' i) ≤ k ∧ k < localAt s.curCore (at' i) + n)
    let done (i : Instr) (ks : List Nat) (n : Nat) (val : Nat → Option Nat) : Prop :=
      ∃ u t, exec i s = .next t ∧ u = { s with pad := u.pad, padBad := u.padBad } ∧ WritesNothing u t (extWords m.off) (some a) none ∧
        (∀ k, outside ks n k → memGet u.pad k = memGet s.pad k) ∧
        ∀ j ∈ ks, ∀ v, val j = some v → ∀ q, q < n → memGet u.pad (localAt s.curCore (at' j) + q) = storedByte (BitVec.ofNat 64 v) q
    ((∀ e ∈ els, PadClear s (at' (e * 2 ^ w)) (2 ^ w)) →
      done (.vst d a w mask m x) (els.map (· * 2 ^ w)) (2 ^ w) (fun j => some (el rs (j / 2 ^ w)))) ∧
    (at' 0 % 8 = 0 → (∀ i, i < rs.length → PadClear s (at' (8 * i)) 8) →
      done (.vstr d a m x) ((List.range rs.length).map (8 * ·)) 8 (fun j => record (j / 8))) ∧
    (at' 0 % 8 ≠ 0 → exec (.vstr d a m x) s = .next (s.fault (Trap.at 0x07 3 2 (BitVec.ofNat 64 (at' 0))))) ∧
    ((∀ e ∈ els, PadClear s (at' (el (c.vreg b) e * 2 ^ isc)) (2 ^ w)) →
      done (.vscat d a b w mask isc m x) (els.map fun e => el (c.vreg b) e * 2 ^ isc) (2 ^ w)
        (fun j => ((els.filter fun e => el (c.vreg b) e * 2 ^ isc == j).getLast?).map (el rs))))

/-! ## Tiles -/

/-- TZERO, TMOV and TREL: a tile of zeros with the tag of the encoding, a copy of a tile with its tag, a dead tile (R63,
R266). -/
def Obligations.TileCopies : Prop :=
  ∀ (d a kind pcnt : Nat) (sgn : Bool) (x : Ext) (s : State), Control s → Executes s x → d < 16 → a < 16 →
    ((freePhys s.me).isSome = true → ∃ t, exec (.tzero d kind pcnt sgn x) s = .next t ∧
      WritesTile s t 3 d (BitVec.ofNat 7 (32 * kind + 2 * pcnt + if sgn then 1 else 0))
        (fun v => ∀ i j, i < 64 → j < 256 → elt 8 v i j = 0) none none none) ∧
    ((freePhys s.me).isSome = true → ∀ y, s.tile a = some y → y.bad = [] → ∃ t, exec (.tmov d a x) s = .next t ∧
      WritesTile s t 3 d y.tag (· = y.rows) none none none) ∧
    (∃ t, exec (.trel d x) s = .next t ∧ TileRetired s t 3 noOwn ∧ Latches s t none none ∧
      (∀ r, r < 16 → t.cur.vreg r = thenV s.cur.pend r (s.cur.vreg r)) ∧
      ∀ i, i < 16 → t.tile i = if i = d then none else s.tile i)

/-- TADD, TSUB, TEMUL, TMAX and TMIN: every element of every row (R268). -/
def Obligations.TileElementResults : Prop :=
  ∀ e ∈ tileTwos, ∀ (d a b fmt rnd : Nat) (sat : Bool) (x : Ext) (s : State), Control s → Executes s x → fmt < 16 → d < 16 → a < 16 →
    b < 16 → (freePhys s.me).isSome = true → ∀ y z, s.tile a = some y → s.tile b = some z → elemTagOk fmt y.tag → z.tag = y.tag →
    y.bad = [] → z.bad = [] →
    ∃ t, exec (e.ins d a b fmt rnd sat x) s = .next t ∧
      WritesTile s t 3 d y.tag (fun v => ∀ i j, i < 64 → j < Machine.rowCap (tileWidth fmt) →
        elt (tileWidth fmt) v i j =
          tileResult e fmt rnd sat (elt (tileWidth fmt) y.rows i j) (elt (tileWidth fmt) z.rows i j)) none none none

/-- TACT, TCVT, TTRN and TPLANE, by the elements of their results: an activation of each element; the converted elements, in
the half or quarter that SEL names where they are wider or narrower; the transposed 64 by 64 square; and planes from which
the matrix engine reads back each element's code (R269 to R272, R257). -/
def Obligations.TileUnaryResults : Prop :=
  ∀ (d a fmt rnd fn dfmt sel : Nat) (sat : Bool) (x : Ext) (s : State), Control s → Executes s x → fmt < 16 → dfmt < 16 → d < 16 →
    a < 16 → (freePhys s.me).isSome = true → OldFine s d → ∀ y, s.tile a = some y → y.bad = [] →
    let w := tileWidth fmt
    let v' := tileWidth dfmt
    let old := s.rows d
    (y.tag = 0x00 ∨ (y.tag = 0x60 ∧ fmt = 8) → ∃ t, exec (.tact d a fmt rnd fn x) s = .next t ∧
      WritesTile s t 3 d y.tag (fun v => ∀ i j, i < 64 → j < Machine.rowCap w → elt w v i j = actElem fn fmt rnd (elt w y.rows i j) % 2 ^ w)
        none none none) ∧
    (elemTagOk fmt y.tag →
      let n := min (Machine.rowCap w) (Machine.rowCap v')
      (sel + 1) * n ≤ max (Machine.rowCap w) (Machine.rowCap v') →
      ∃ t, exec (.tcvt d a fmt rnd dfmt sat sel x) s = .next t ∧
        WritesTile s t 3 d 0x00 (fun v => ∀ i j, i < 64 → j < Machine.rowCap v' →
          elt v' v i j =
            if Machine.rowCap v' ≤ Machine.rowCap w then cvtElem fmt dfmt rnd sat (elt w y.rows i (sel * n + j)) % 2 ^ v'
            else if sel * n ≤ j ∧ j < sel * n + n then cvtElem fmt dfmt rnd sat (elt w y.rows i (j - sel * n)) % 2 ^ v'
            else elt v' old i j) none none none) ∧
    (y.tag = 0x00 ∨ ((y.tag = 0x40 ∨ y.tag = 0x60) ∧ w = 32) → (sel + 1) * 64 ≤ Machine.rowCap w →
      ∃ t, exec (.ttrn d a fmt sel x) s = .next t ∧
        WritesTile s t 3 d y.tag (fun v => ∀ i j, i < 64 → j < Machine.rowCap w →
          elt w v i j = if sel * 64 ≤ j ∧ j < sel * 64 + 64 then elt w y.rows (j - sel * 64) (sel * 64 + i) else elt w old i j)
          none none none) ∧
    (∀ pf, pf < 9 → y.tag = 0x00 → (sel + 1) * planeSlot pf ≤ Machine.rowCap (Machine.planeWidth pf) →
      ∃ t, exec (.tplane d a pf sel x) s = .next t ∧
        WritesTile s t 3 d (tagPlane (planeSpec pf).1 (planeSpec pf).2) (fun v => ∀ i k, i < 64 → k < planeSlot pf →
          planeGet pf (vget v i 0) k = planeCode pf (elt (Machine.planeWidth pf) y.rows i (sel * planeSlot pf + k))) none none none)

/-- TRED reduces each row or column to an element of a run vector; TBCAST spreads a run vector's elements over rows or columns
(R273, R274). -/
def Obligations.TileVectorExchange : Prop :=
  ∀ (d a fmt op kind : Nat) (dir : Bool) (x : Ext) (s : State), Control s → Executes s x → fmt < 16 → d < 16 → a < 16 →
    (∀ y, s.tile a = some y → y.bad = [] → y.tag = 0x00 ∨ y.tag = 0x40 ∨ y.tag = 0x60 →
      let line (i : Nat) : List Nat := (List.range 64).map fun j => if dir then elt 32 y.rows j i else elt 32 y.rows i j
      ∃ t v, exec (.tred d a fmt dir op x) s = .next t ∧ TileRetired s t 3 (ownV d) ∧ t.me.tiles = s.me.tiles ∧ Latches s t none none ∧
        lenV v = 64 ∧ (∀ i, i < 64 → el v i = redLine fmt op (line i) % 2 ^ 32) ∧
        ∀ r, r < 16 → t.cur.vreg r = thenV s.cur.pend r (if r = d then v else s.cur.vreg r)) ∧
    ((freePhys s.me).isSome = true →
      let w := tileWidth fmt
      ∃ t, exec (.tbcast d a fmt kind dir x) s = .next t ∧
        WritesTile s t 3 d (castTag kind) (fun v => ∀ i j, i < 64 → j < Machine.rowCap w →
          elt w v i j = el (s.cur.vreg a) (if dir then j else i) % 2 ^ w) none none none)

/-- The matrix engine and the scale stage: MMA adds to each element the exact sum of its k products of codes, and the sum
wraps; MMF takes its products in groups; SCAC and SCAL scale (R97 to R102, R276 to R280). With Z the old accumulator is taken
as zero and need not be live. -/
def Obligations.MatrixResults : Prop :=
  ∀ (d a b fa fb km1 kao kbo : Nat) (z : Bool) (x : Ext) (s : State), Control s → Executes s x → d < 16 → a < 16 → b < 16 →
    (freePhys s.me).isSome = true →
    (∀ y u, s.tile b = some u → s.tile a = some y → y.bad = [] → u.bad = [] →
      let k := km1 + 1
      let acc (tag : BitVec 7) : Prop := z = true ∨ Live s d (· = tag)
      let old (i j : Nat) : Nat := if z then 0 else elt 32 (s.rows d) i j
      (fa < 9 → fb < 9 → y.tag = tagPlane (planeSpec fa).1 (planeSpec fa).2 → u.tag = 0x00 → acc 0x40 →
        ∃ t, exec (.mma d a b fa fb z km1 kao kbo x) s = .next t ∧
          WritesTile s t 3 d 0x40 (fun v => ∀ i j, i < 64 → j < 64 →
            (elt 32 v i j : Int) = (signedOf 32 (old i j) + ((List.range k).map fun q =>
              planeGet fa (vget y.rows i 0) (8 * kao + q) * planeCode fb (elt (Machine.planeWidth fb) u.rows j (8 * kbo + q))).sum) % 2 ^ 32)
            none none none) ∧
      (fa < 5 → y.tag = 0x00 → u.tag = 0x00 → acc 0x60 →
        let fmt := mmfFmt fa
        let f := (tileFloat fmt).getD fmtF32
        ∃ t, exec (.mmf d a b fa z km1 kao kbo x) s = .next t ∧
          WritesTile s t 3 d 0x60 (fun v => ∀ i j, i < 64 → j < 64 →
            elt 32 v i j = mmfUpdate (mmfGroup fa) k (old i j) ((List.range k).map fun q =>
              (f.decode (elt (tileWidth fmt) y.rows i (8 * kao + q))).mul (f.decode (elt (tileWidth fmt) u.rows j (8 * kbo + q))))
              % 2 ^ 32) none none none)) ∧
    (∀ (sfmt : Bool) (q tsb ca cb : Nat), tsb < 16 → ca < 256 → cb < 256 → ∀ y u w, s.tile a = some y → s.tile b = some u →
      s.tile tsb = some w → y.bad = [] → u.bad = [] → w.bad = [] → y.tag = 0x40 → u.tag = 0x00 → w.tag = 0x00 → Live s d (· = 0x60) →
      let scale (c : Nat) : FVal := if sfmt then scaleE8M0 c else scaleE3M5 c
      ∃ t, exec (.scac d a b sfmt q tsb ca cb x) s = .next t ∧
        WritesTile s t 3 d 0x60 (fun v => ∀ i j, i < 64 → j < 64 →
          elt 32 v i j = scacElem (elt 32 (s.rows d) i j) (elt 32 y.rows i j) (scale (elt 8 u.rows i ca)) (scale (elt 8 w.rows j cb)) q
            % 2 ^ 32) none none none) ∧
    (Live s d (· = 0x60) →
      let bf (n : Nat) : FVal := fmtB16.decode ((operand s.cur n).toNat % 2 ^ 16)
      ∃ t, exec (.scal d a b x) s = .next t ∧
        WritesTile s t 3 d 0x60 (fun v => ∀ i j, i < 64 → j < 64 →
          elt 32 v i j = rneF32 (((f32 (elt 32 (s.rows d) i j)).mul (bf a)).mul (bf b)) % 2 ^ 32) none (some a) (some b))

/-- TLD from LOCAL and TST to LOCAL: the rows of the window, row r at ea + r × stride, byte by byte; rows outside the window keep
what they held (zero, where the tile was dead), and bytes outside the rows' addresses read as before. In any space they complete where
the address passes its checks, the wait and the release are done, and the access to the window, which is the model's own function
(`readWindow`, `writeWindow`), answers rows, or takes those of the tile (R259, R263 to R265). -/
def Obligations.TileLoadsAndStores : Prop :=
  ∀ (d a b kind pcnt : Nat) (sgn : Bool) (m : Addr) (x : Ext) (s : State), Control s → Executes s x → d < 16 →
    let c := s.cur
    let ew : Word := BitVec.ofInt 64 ((operand c a).toNat + offsetOf m.off)
    let ea := ew.toNat
    let tag : BitVec 7 := BitVec.ofNat 7 (32 * kind + 2 * pcnt + if sgn then 1 else 0)
    let at' (r : Nat) : Nat := ea + r * strideOf c b
    row0Of c b + nrowOf c b ≤ 64 →
    (∀ y z u, let w : Window := ⟨strideOf c b, row0Of c b, nrowOf c b⟩
      settleRows s m.space m.csel ew w = y → y.cur = c → Control u →
      (∀ rs, (freePhys y.me).isSome = true → (freePhys u.me).isSome = true → (y.tile d).isSome = (s.tile d).isSome → OldFine y d →
        tileCheck m.space m.csel 1 ew w y = none → settleWait y y.who x.wait = .ok () z →
        (∀ f, readWindow z m.space m.csel ew w f = f rs u) →
        ∃ t, exec (.tld d a b kind pcnt sgn m x) s = .next t ∧
          WritesTile u t (extWords m.off) d tag
            (fun v => ∀ r j, r < 64 → j < 256 →
              elt 8 v r j = if inRows c b r then ((rs.getD (r - row0Of c b) []).getD j 0).toNat else elt 8 (u.rows d) r j)
            (some (u.tick, u.inWindow)) (some a) (some b)) ∧
      (∀ q z', y.tile d = some q → q.bad = [] → tileCheck m.space m.csel 2 ew w y = none → settleWait y y.who x.wait = .ok () z' →
        (if x.ord = 2 then settleScope z' z'.curCore x.scope else .ok () z') = .ok () z →
        (∀ f, writeWindow z m.space m.csel ew w (z.rows d) f = f u) →
        ∃ t, exec (.tst d a b m x) s = .next t ∧ TileRetired u t (extWords m.off) noOwn ∧ t.me.tiles = u.me.tiles ∧
          Latches u t (some a) (some b) ∧ ∀ r, r < 16 → t.cur.vreg r = thenV u.cur.pend r (u.cur.vreg r))) ∧
    (m.space = 0 → x.wait = 0 → x.ord ≠ 2 → ea % 8 = 0 → strideOf c b % 8 = 0 → (∀ r, inRows c b r = true → RangeClear s (at' r) 256) →
    ((freePhys s.me).isSome = true → OldFine s d → ∃ t, exec (.tld d a b kind pcnt sgn m x) s = .next t ∧
      WritesTile s t (extWords m.off) d tag
        (fun v => ∀ r j, r < 64 → j < 256 →
          elt 8 v r j = if inRows c b r then (memGet s.pad (localAt s.curCore (at' r + j))).toNat else elt 8 (s.rows d) r j)
        (some (s.tick, s.inWindow)) (some a) (some b)) ∧
    (∀ y, s.tile d = some y → y.bad = [] → ∃ u t, exec (.tst d a b m x) s = .next t ∧
      u = { s with pad := u.pad, padBad := u.padBad } ∧ TileRetired u t (extWords m.off) noOwn ∧ t.me.tiles = s.me.tiles ∧
      Latches s t (some a) (some b) ∧ (∀ r, r < 16 → t.cur.vreg r = thenV s.cur.pend r (s.cur.vreg r)) ∧
      (∀ k, (∀ r j, inRows c b r = true → j < 256 → k ≠ localAt s.curCore (at' r + j)) → memGet u.pad k = memGet s.pad k) ∧
      (256 ≤ strideOf c b → ∀ r j, inRows c b r = true → j < 256 →
        memGet u.pad (localAt s.curCore (at' r + j)) = BitVec.ofNat 8 (elt 8 y.rows r j))))

/-- What stops a tile instruction: a helper may execute none, nor START; the first tile source in the order of the operands that is
dead, or whose tag is not accepted, faults with the operand and the tile, as does a TLD or TST whose window leaves the tile or whose
address or stride is no multiple of 8; and while no physical tile is free an instruction that writes a tile waits, counted by E4, and
nothing else changes (R63, R258, R259, R263, R265 to R274, R276 to R280, R399, R431, R433, R439). -/
def Obligations.TileInstructionFaults : Prop :=
  ∀ (d a b tsb : Nat) (z sat sgn : Bool) (f : Nat → Nat) (m : Addr) (x : Ext) (s : State), s.curCore < 96 →
    let uses := tileUses s d a b tsb z sat sgn f x
    (s.curSlot < 10 →
      (∀ e ∈ uses, exec e.ins s = .next (s.fault (Trap.plain 0x01 1))) ∧
      ∀ i ∈ [Instr.trel d x, .tst d a b m x, .tld d a b (f 0) (f 1) sgn m x, .start a b d x],
        exec i s = .next (s.fault (Trap.plain 0x01 1))) ∧
    (s.curSlot = 15 → Executes s x →
      (∀ e ∈ uses, ∀ before q after, e.srcs = before ++ q :: after → (∀ r ∈ before, ∃ y, s.tile r.tile = some y ∧ r.ok y.tag) →
        (s.tile q.tile = none → exec e.ins s = .next (s.fault (Trap.plain 0x06 (q.op * 2 ^ 12 + q.tile * 2 ^ 8)))) ∧
        (∀ y, s.tile q.tile = some y → ¬ q.ok y.tag →
          exec e.ins s = .next (s.fault (Trap.plain 0x05 (q.op * 2 ^ 12 + q.tile * 2 ^ 8 + y.tag.toNat))))) ∧
      (freePhys s.me = none → OldFine s d → ∀ e ∈ uses, e.makes = true → (∀ r ∈ e.srcs, Live s r.tile r.ok) →
        exec e.ins s = .next (s.bumpEv s.curCore 4 1)) ∧
      (∀ y, let w : Window := ⟨strideOf s.cur b, row0Of s.cur b, nrowOf s.cur b⟩
        let ew : Word := BitVec.ofInt 64 ((operand s.cur a).toNat + offsetOf m.off)
        let load := Instr.tld d a b (f 0) (f 1) sgn m x
        let store := Instr.tst d a b m x
        settleRows s m.space m.csel ew w = y → y.cur = s.cur → y.curCore = s.curCore →
        (64 < row0Of s.cur b + nrowOf s.cur b → ∀ i ∈ [load, store], exec i s = .next (y.fault (Trap.plain 0x02 0x8008))) ∧
        (row0Of s.cur b + nrowOf s.cur b ≤ 64 →
          let here (acc : Nat) : Trap := Trap.at 0x07 3 acc (ew + BitVec.ofNat 64 (row0Of s.cur b * strideOf s.cur b))
          (y.tile d = none → exec store s = .next (y.fault (Trap.plain 0x06 (2 * 2 ^ 12 + d * 2 ^ 8)))) ∧
          (ew.toNat % 8 ≠ 0 ∨ strideOf s.cur b % 8 ≠ 0 →
            ((y.tile d).isSome = (s.tile d).isSome → exec load s = .next (y.fault (here 1))) ∧
            (∀ q, y.tile d = some q → exec store s = .next (y.fault (here 2)))) ∧
          ((y.tile d).isSome = (s.tile d).isSome → OldFine y d → tileCheck m.space m.csel 1 ew w y = none → freePhys y.me = none →
            exec load s = .next (y.bumpEv s.curCore 4 1)))))

/-- A guarded instruction whose guard is false retires, reads and writes nothing, whatever its operands (R71, R219, R282, R432);
a tile instruction leaves only a stamp. Every instruction that has a guard is named. -/
def Obligations.FalseGuardsDiscard : Prop :=
  ∀ (s : State) (x : Ext), x.g = true → s.cur.guard x.gslot = x.ginv → ∀ (d a b : Nat) (f : Nat → Nat) (q : Nat → Bool) (m : Addr),
    (Stands s →
      (∀ i ∈ [Instr.memxLdI8 d a b (f 0) m x, .memxLdN8 d a b (f 0) m x, .memxLdI16 d a b (f 0) m x, .memxLdN16 d a b (f 0) m x,
          .memxLdI32 d a b (f 0) m x, .memxLdN32 d a b (f 0) m x, .memxLdI64 d a b (f 0) m x, .memxStI8 a b m x, .memxStI16 a b m x,
          .memxStI32 a b m x, .memxStI64 a b m x, .aswp d a b (q 0) m x, .acas d a b (q 0) (f 0) m x, .aadd d a b (q 0) m x,
          .aand d a b (q 0) m x, .aor d a b (q 0) m x, .axor d a b (q 0) m x, .aminI d a b (q 0) m x, .aminN d a b (q 0) m x,
          .amaxI d a b (q 0) m x, .amaxN d a b (q 0) m x, .vld d a b (f 0) (f 1) (q 0) m x, .vst d a (f 0) (f 1) m x, .vldr d a b m x,
          .vstr d a m x, .vgath d a b (f 0) (f 1) (q 0) (f 2) m x, .vscat d a b (f 0) (f 1) (f 2) m x],
        ∃ t, exec i s = .next t ∧ WritesNothing s t (extWords m.off) none none) ∧
      (Admits s 2 → ∃ t, exec (.afaddF32 d a b m x) s = .next t ∧ WritesNothing s t (extWords m.off) none none) ∧
      (∀ (len : CLen), ∀ i ∈ [Instr.cpy len a b (f 0) (f 1) (f 2) (f 3) (f 4) (q 0) (f 5) (f 6) x,
          .cpyw len a b (f 0) (f 1) (f 2) (f 3) (f 4) (q 0) (f 5) (f 6) (f 7) (f 8) (f 9) x],
        ∃ t, exec i s = .next t ∧ WritesNothing s t (copyLen s.cur len).2 none none) ∧
      (∀ i ∈ [Instr.xfm a b (f 0) (f 1) (f 2) (f 3) (f 4) (f 5) (q 0) (q 1) (f 6) x, .layv a (f 0) (f 1) x,
          .coll d a b (f 0) (f 1) (f 2) (q 0) (f 3) (q 1) (f 4) (f 5) (f 6) (f 7) (f 8) x,
          .msend a b (f 0) (f 1) (f 2) (f 3) (f 4) (f 5) x, .fork a b (q 0) (f 0) (f 1) x],
        ∃ t, exec i s = .next t ∧ WritesNothing s t 3 none none) ∧
      (s.curSlot = 15 → ∃ t, exec (.start a b (f 0) x) s = .next t ∧ WritesNothing s t 3 none none)) ∧
    (Control s →
      let nothing (words : Nat) (i : Instr) : Prop := ∃ t, exec i s = .next t ∧ TileRetired s t words noOwn ∧ t.me.tiles = s.me.tiles ∧
        Latches s t none none ∧ ∀ r, r < 16 → t.cur.vreg r = thenV s.cur.pend r (s.cur.vreg r)
      (∀ i ∈ [Instr.tzero d (f 0) (f 1) (q 0) x, .tmov d a x, .mma d a b (f 0) (f 1) (q 0) (f 2) (f 3) (f 4) x,
          .mmf d a b (f 0) (q 0) (f 1) (f 2) (f 3) x, .scac d a b (q 0) (f 0) (f 1) (f 2) (f 3) x, .scal d a b x,
          .tadd d a b (f 0) (f 1) (q 0) x, .tsub d a b (f 0) (f 1) (q 0) x, .temul d a b (f 0) (f 1) (q 0) x,
          .tmax d a b (f 0) (f 1) (q 0) x, .tmin d a b (f 0) (f 1) (q 0) x, .tact d a (f 0) (f 1) (f 2) x,
          .tcvt d a (f 0) (f 1) (f 2) (q 0) (f 3) x, .ttrn d a (f 0) (f 1) x, .tplane d a (f 0) (f 1) x,
          .tred d a (f 0) (q 0) (f 1) x, .tbcast d a (f 0) (f 1) (q 0) x], nothing 3 i) ∧
      (∀ i ∈ [Instr.tld d a b (f 0) (f 1) (q 0) m x, .tst d a b m x], nothing (extWords m.off) i))

/-! ## Commands, waits and work -/

/-- CPY, CPYW, XFM, LAYV and COLL: where the operands pass their checks and the older accesses of the core are performed,
the command is sent: it joins the core's commands with the operands taken, numbered one above ISSUED, and ISSUED takes its
number; nothing else changes but latches (R162, R163, R283, R285, R288, R292, R294, R301, R302, R440). -/
def Obligations.CommandsAreSent : Prop :=
  ∀ (a b tc : Nat) (x : Ext) (s u : State), Stands s → Stands u → Executes s x → u.cur = s.cur →
    let src := operand s.cur a
    let dst := operand s.cur b
    (∀ (len : CLen) (ssp scs dsp dcs nreg ncore wreg wsp wcs : Nat) (nv : Bool),
      let l := (copyLen s.cur len).1
      let n := l.toNat
      let w := (copyLen s.cur len).2
      let far := farRange s ssp src n || farRange s dsp dst n
      let cell := s.cur.sreg wreg
      goodRange ssp src n 8 → goodRange dsp dst n 8 → n % 8 = 0 →
      (settleScope s s.curCore (sendScope far) = .ok () u →
        ∃ t, exec (.cpy len a b ssp scs dsp dcs tc nv nreg ncore x) s = .next t ∧
          WritesNothing (withCommand u (commandOf u tc (.copy ssp scs dsp dcs none) src dst l (noteOf nv nreg ncore))) t w
            (some a) (some b)) ∧
      (settleScope s s.curCore (sendScope (far || farOperand s wsp cell)) = .ok () u → goodRange wsp cell 8 8 →
        cellInside s.curCore wsp wcs dsp dcs cell dst n = false →
        ∃ t, exec (.cpyw len a b ssp scs dsp dcs tc nv nreg ncore wreg wsp wcs x) s = .next t ∧
          WritesNothing
            (withCommand u (commandOf u tc (.copy ssp scs dsp dcs (some (wsp, wcs, cell))) src dst l (noteOf nv nreg ncore))) t w
            (some a) (some b))) ∧
    (∀ (dlay slay xop i1 i2 rnd : Nat) (i1v i2v : Bool), settleScope s s.curCore 4 = .ok () u →
      ∃ t, exec (.xfm a b dlay slay tc xop i1 i2 i1v i2v rnd x) s = .next t ∧
        WritesNothing
          (withCommand u (commandOf u tc
            (.xfm xop slay dlay (if i1v then some i1 else none) (if i2v then some i2 else none) rnd (a != 0) (b != 0)) src dst 0 none))
          t 3 (some a) (some b)) ∧
    (∀ slot, settleScope s s.curCore 3 = .ok () u → goodRange 0 src 64 64 →
      ∃ t, exec (.layv a slot tc x) s = .next t ∧
        WritesNothing (withCommand u (commandOf u tc (.layv slot) src 0 0 none)) t 3 (some a) none) ∧
    (∀ (d op red ty nreg ncore root ssp dsp : Nat) (span nv : Bool),
      let n := (s.cur.sreg d).toNat
      let total := s.me.gx * s.me.gy * (if span then 2 else 1)
      let nd := if op = 1 then n / total else if op = 2 then n * total else n
      let far := span || farRange s ssp src (4 * n) || farRange s dsp dst (4 * nd)
      settleScope s s.curCore (sendScope far) = .ok () u → n ≤ 2 ^ 26 → (op = 1 → n % total = 0) → (op = 3 → root < total) →
      goodRange ssp src (4 * n) 4 → goodRange dsp dst (4 * nd) 4 → (span = true → s.tandemUp = true) →
      let seq := collSent u u.me.pid u.cur.group u.cur.vcore
      let c := commandOf u tc (.coll op red ty span root ssp dsp seq) src dst (s.cur.sreg d) (noteOf nv nreg ncore)
      ∃ t, exec (.coll d a b op red ty span tc nv nreg ncore root ssp dsp x) s = .next t ∧
        WritesNothing (collBump (withCommand u c) u.me.pid u.cur.group u.cur.vcore) t 3 (some a) (some b))

/-- TCRD reads a counter. TCWAIT, MRECV and JOIN complete where what they wait for is there: DONE has reached the number and no
fault is latched at or below it; a value was taken for the context, or the register is full, which clears it; the cell
reads zero, or has read zero while the context waited. Else, in a group that is not stopped, the context is WAITING and its PC stays; and a fault latched at or below
the number is the TCWAIT's (R32, R47, R52, R163, R306, R308, R423, R466). -/
def Obligations.WaitsCompleteOrWait : Prop :=
  ∀ (a d n tc : Nat) (s : State), Stands s →
    let k := s.me
    let tcn := vget k.tcs tc ⟨0, 0, none⟩
    let num := operand s.cur a
    (∀ issued, ∃ t, exec (.tcrd d issued tc) s = .next t ∧
      WritesScalar s t 1 d (if issued = 1 then tcn.issued else tcn.done) none none) ∧
    (num.toNat ≤ tcn.done.toNat → (∀ l, tcn.latch = some l → num.toNat < l.num.toNat) →
      ∃ t, exec (.tcwait a tc) s = .next t ∧ WritesNothing s t 1 (some a) none) ∧
    (num.toNat ≤ tcn.done.toNat → ∀ l, tcn.latch = some l → l.num.toNat ≤ num.toNat →
      let cause : Trap := { code := l.code, info := l.num.toNat % 65536, acc := l.acc, addr := l.addr, eng := true, tc := tc, unit := none }
      let u := if s.entersHandler s.curCore s.curSlot then
          s.setMe { k with tcs := k.tcs.setIfInBounds tc { tcn with latch := none } }
        else s
      exec (.tcwait a tc) s = .next (u.fault cause)) ∧
    (∀ v, s.cur.given = some v → ∃ t, exec (.mrecv d n) s = .next t ∧
      WritesScalar (s.setCur { s.cur with given := none, wait := .none }) t 1 d v none none) ∧
    (s.cur.given = none → vget k.mfull n false = true → ∃ t, exec (.mrecv d n) s = .next t ∧
      WritesScalar (s.setMe { k with mfull := k.mfull.setIfInBounds n false }) t 1 d (vget k.m n 0) none none) ∧
    (∀ u, s.cur.wait ≠ .joined num → num.toNat % 8 = 0 → inSpace 2 num → inSpace 2 (num + 7) → readCell s s.who num = .ok 0 u →
      Stands u → u.cur = s.cur → ∃ t, exec (.join a) s = .next t ∧ WritesNothing u t 1 (some a) none) ∧
    (∀ u, s.cur.wait = .joined num → drainDies s = u → Stands u → u.cur = s.cur →
      ∃ t, exec (.join a) s = .next t ∧ WritesNothing (u.setCur { u.cur with wait := .none }) t 1 (some a) none) ∧
    (groupStopped s k.pid s.cur.group = false →
      (tcn.done.toNat < num.toNat → exec (.tcwait a tc) s = Waits s (.tcwait tc num)) ∧
      (s.cur.given = none → vget k.mfull n false = false → exec (.mrecv d n) s = Waits s (.mrecv n))) ∧
    (∀ v u, s.cur.wait ≠ .joined num → num.toNat % 8 = 0 → inSpace 2 num → inSpace 2 (num + 7) → readCell s s.who num = .ok v u → v ≠ 0 →
      groupStopped u u.me.pid u.cur.group = false → exec (.join a) s = Waits u (.join num))

/-- HSET, HSET.clr, REINQ, REIN, YIELD, MSEND, FORK, START and EXIT where they complete: the handler entry, the line, the
message on its way to the core that the core map names or to the peer, the task at the bottom of the deque, and the IDLE slot. An
MSEND's payload is read once its release is done. The model's choices: that YIELD of a helper, or with no other virtual core's
launch waiting, in the queue or spilled from it, only retires (logs 36, 45), and that a raise of the line is read at once (log 43)
(R43, R45, R46, R47, R50, R53, R56, R309 to R315). -/
def Obligations.WorkInstructionsComplete : Prop :=
  ∀ (a b d n : Nat) (x : Ext) (s : State), Stands s →
    let k := s.me
    let va := operand s.cur a
    let vb := operand s.cur b
    let setEntry (w : Nat) : State := s.setMe { k with handler := k.handler.setIfInBounds n (BitVec.ofNat 64 w) }
    (goodTarget va → ∃ t, exec (.hset false a n) s = .next t ∧
      WritesNothing (setEntry (2 ^ 63 + k.pid % 64 * 2 ^ 56 + va.toNat % 2 ^ 48)) t 1 (some a) none) ∧
    (∃ t, exec (.hset true a n) s = .next t ∧ WritesNothing (setEntry ((vget k.handler n 0).toNat % 2 ^ 63)) t 1 none none) ∧
    (∃ t, exec (.reinq d) s = .next t ∧ WritesGuard s t d (s.reins.contains (k.pid, s.cur.group)) none none) ∧
    (∀ u, settleScope s s.curCore 4 = .ok () u → Stands u → groupAlive u u.me.pid u.cur.group = true →
      u.tandemUp = false → u.reins.contains (u.me.pid, u.cur.group) = false →
      ∃ t, exec .rein s = .next t ∧ WritesNothing { u with reins := (u.me.pid, u.cur.group) :: u.reins } t 1 none none) ∧
    (s.curSlot ≠ 15 ∨ (∀ l ∈ k.launchQ ++ k.spLaunch, l.pid = k.pid → l.vcore = k.ctl.vcore) →
      ∃ t, exec .yield s = .next t ∧ WritesNothing s t 1 none none) ∧
    (Executes s x → ∀ (kind slot mreg rargb rpay codew : Nat) (bs : List Byte) (u w : State), PayloadOk s rpay codew →
      Payload u rpay codew bs w → Stands w → u.cur = s.cur → w.cur = s.cur → w.me.pid = k.pid →
      let m := messageOf s kind mreg slot va vb (s.cur.sreg rargb) (payWords bs) (payCode codew bs)
      (∀ p, va.toNat / 2 ^ 8 = 0 → k.pcoreOf (va.toNat % 256) = some p → s.enabled p = true →
        settleScope s s.curCore (scopeOfCores s.curCore p) = .ok () u →
        ∃ t, exec (.msend a b kind slot mreg rargb rpay codew x) s = .next t ∧
          WritesNothing (w.setCore p { w.core p with inbound := (w.core p).inbound ++ [m] }) t 3 (some a) (some b)) ∧
      (va.toNat / 2 ^ 8 = 2 ^ 55 → s.tandemUp = true → settleScope s s.curCore 4 = .ok () u →
        ∃ t, exec (.msend a b kind slot mreg rargb rpay codew x) s = .next t ∧
          WritesNothing { w with peerOut := w.peerOut ++ [.msg m],
                                 peerSends := (m.pid, m.group, w.tick) ::
                                   w.peerSends.filter fun y => !(y.1 == m.pid && y.2.1 == m.group) } t 3 (some a) (some b))) ∧
    (Executes s x → goodTarget va → k.deque.length < 32 → groupStopped s k.pid s.cur.group = false → ∀ rargb,
      (∀ (full : Bool) (rjoin : Nat) (u w : State),
        let j := s.cur.sreg rjoin
        settleScope s s.curCore (s.cur.domain % 4) = .ok () u →
        (if j = 0 then w = u
         else check6 s s.who .atomic 2 0 j 8 3 3 = none ∧
           ∃ v, atomicAt u u.who 2 0 j 8 (fun old => some ((old + 1) % 2 ^ 64)) = .ok v w) →
        Stands w → w.cur = s.cur → w.me.deque = k.deque → groupStopped w k.pid s.cur.group = false →
        ∃ t, exec (.fork a b full rargb rjoin x) s = .next t ∧
          WritesNothing (withTask w (forkedTask s va vb (s.cur.sreg rargb) j full false)) t 3 (some a) (some b)) ∧
      (s.curSlot = 15 → ∃ t, exec (.start a b rargb x) s = .next t ∧
        WritesNothing (withTask s (forkedTask s va vb (s.cur.sreg rargb) 0 false true)) t 3 (some a) (some b))) ∧
    (∀ u, s.cur.cell ≠ 0 → settleScope s s.curCore (if s.cur.cellDone then 4 else s.cur.domain % 4) = .ok () u →
      exec .exit s = .next (endSlot (endCell u.countRetired u.curCore u.curSlot u.cur) u.curCore u.curSlot)) ∧
    (s.cur.cell = 0 → s.cur.stall = none → ∃ t, exec .exit s = .next t ∧
      t.cur = { s.cur with st := .idle, tv := none, held := none, pend := [], inHandler := false, code := [], wait := .none, given := none } ∧
      SameMemory s t ∧
      (s.curSlot = 15 → ∀ i, t.tile i = none) ∧
      (∀ c slot, ¬ (c = s.curCore ∧ slot = s.curSlot) → t.ctx c slot = s.ctx c slot))

/-! ## System instructions and traps -/

/-- SYSRD of every readable register, and TICK; GEOM of a core that has taken no process yet is at its reset value; GEOMSUB gives the
virtual core's share of the extents WX and WY that its core took from the process record (R34, R41, R42, R113, R318, R322, R323,
R416). -/
def Obligations.SystemRegisterReads : Prop :=
  ∀ (d a : Nat) (s : State), Stands s →
    let k := s.me
    let idx := (operand s.cur a).toNat
    (∃ t, exec (.tick d) s = .next t ∧ WritesScalar s t 1 d (BitVec.ofNat 64 s.tick) none none) ∧
    (∀ e ∈ sysReads, e.sel ≤ 8 ∨ Privileged s → ∃ t w, exec (.sysrd d a e.sel) s = .next t ∧ w.toNat = e.val s % 2 ^ 64 ∧
      WritesScalar s t 1 d w (some a) none) ∧
    (k.resident = false → ∃ t, exec (.sysrd d a 2) s = .next t ∧ WritesScalar s t 1 d 0 (some a) none) ∧
    (k.resident = true → k.gx ≤ 256 → k.gy ≤ 256 → s.cur.vcore < k.gx * k.gy → ∃ t w, exec (.sysrd d a 2) s = .next t ∧
      WritesScalar s t 1 d w (some a) none ∧
      let x := s.cur.vcore % k.gx
      let y := s.cur.vcore / k.gx
      wfld w 15 0 = s.cur.vcore % 2 ^ 8 ∧ wfld w 23 16 = x ∧ wfld w 31 24 = y ∧ wfld w 39 32 = k.gx - 1 ∧ wfld w 47 40 = k.gy - 1 ∧
      w.getLsbD 48 = decide (x = 0) ∧ w.getLsbD 49 = decide (x + 1 = k.gx) ∧ w.getLsbD 50 = decide (y = 0) ∧
      w.getLsbD 51 = decide (y + 1 = k.gy)) ∧
    (∃ t w, exec (.sysrd d a 3) s = .next t ∧ WritesScalar s t 1 d w (some a) none ∧
      (s.cur.vcore < k.gx * k.gy →
        let wx := wfld k.grid 47 32
        let wy := wfld k.grid 63 48
        let x := s.cur.vcore % k.gx
        let y := s.cur.vcore / k.gx
        wfld w 15 0 = x * (wx / k.gx) + min x (wx % k.gx) ∧ wfld w 31 16 = wx / k.gx + (if x < wx % k.gx then 1 else 0) ∧
        wfld w 47 32 = y * (wy / k.gy) + min y (wy % k.gy) ∧ wfld w 63 48 = wy / k.gy + (if y < wy % k.gy then 1 else 0))) ∧
    (Privileged s → idx < 256 → ∃ t, exec (.sysrd d a 0x1B) s = .next t ∧
      WritesScalar s t 1 d (vget s.aliasTab idx 0) (some a) none) ∧
    (idx < 128 → ∀ u, settleBankmap s idx = u → Stands u → u.cur = s.cur → u.curCore = s.curCore → ∃ t w,
      exec (.sysrd d a 8) s = .next t ∧ WritesScalar u t 1 d w (some a) none ∧
      let home := u.curCore / 8 * 8 + idx / 16
      let b := u.bank home (idx % 16)
      let area := (u.core home).dirArea
      (b.mode < 8 → b.esize < 4 → b.head < 2 ^ 14 → b.tail < 2 ^ 14 → b.count < 2 ^ 15 →
        wfld w 2 0 = b.mode ∧ wfld w 18 17 = b.esize ∧ wfld w 32 19 = b.head ∧ wfld w 46 33 = b.tail ∧ wfld w 61 47 = b.count ∧
        wfld w 13 8 = if area.getLsbD 63 = true ∧ wfld area 20 17 = idx % 16 then 0 else b.pid % 64))

/-- SYSWR of every writable register, by a privileged context: the register takes the value, and nothing else changes but a
latch and what the register's rule says. A POWERCAP whose CAP is no cap of R487 faults. The model's choices: PROCBASE, PTBASE and
ALIASTAB are one register of the device (log 23), the stamps that a write of STAMPBASE finds go to the old ring (log 43), a write of
SPILLQ begins every PEAK anew (log 44), and a write of POWERCAP leaves STEP and THERM (log 35)
(R129, R135, R157, R318, R323, R331, R374, R393, R416, R440). -/
def Obligations.SystemRegisterWrites : Prop :=
  ∀ (d a : Nat) (s : State), Stands s → Privileged s →
    let v := operand s.cur a
    let u := readsA s a
    (∀ e ∈ sysWrites, within v e.bits → Stands (e.upd u v) → ∃ t, exec (.syswr d a e.sel) s = .next t ∧
      WritesNothing (e.upd u v) t 1 none none) ∧
    (within v 0x80FF_FFFF_FFFF_0000 → wfld v 49 48 ≠ 3 → Stands (xinv u v) → ∃ t, exec (.syswr d a 0x1A) s = .next t ∧
      WritesNothing (xinv u v) t 1 none none) ∧
    (let idx := (s.cur.sreg d).toNat
     let bits := if idx % 4 < 2 then 0x0000_3FFF_FFFF_FFFF else if idx % 4 = 2 then 0x0000_000F_FFFF_FFFF else 0
     within v bits → idx < 256 → ∃ t, exec (.syswr d a 0x1B) s = .next t ∧
      WritesNothing { u with aliasTab := u.aliasTab.setIfInBounds idx v } t 1 none none) ∧
    (within v 0x0000_030F_0000_FFFF →
      let c := v.toNat % 2 ^ 16
      (450 ≤ c → c ≤ 800 → c % 5 = 0 → ∃ t, exec (.syswr d a 0x22) s = .next t ∧ WritesNothing { u with cap := c } t 1 none none) ∧
      (¬ (450 ≤ c ∧ c ≤ 800 ∧ c % 5 = 0) → exec (.syswr d a 0x22) s = .next (s.fault (Trap.plain 0x02 0x800E))))

/-- What user level, a wrong direction, a wrong index and a reserved bit meet, and who may execute DIRRD, DIRWR and ERET. That bits
[1:0] of DIRPC and [11:0] of DIRAREA are reserved bits, where R157 only has zeros, is the model's choice (log 43)
(R318, R323, R433, R435, R440). -/
def Obligations.PrivilegeFaults : Prop :=
  ∀ (d a sel : Nat) (s : State), Stands s →
    (¬ Privileged s →
      (8 < sel → exec (.sysrd d a sel) s = .next (s.fault (Trap.plain 0x09 (256 + sel)))) ∧
      exec (.syswr d a sel) s = .next (s.fault (Trap.plain 0x09 (256 + sel)))) ∧
    (Privileged s →
      (exec (.sysrd d a 0x1A) s = .next (s.fault (Trap.plain 0x09 0x21A))) ∧
      (sel ≤ 8 → exec (.syswr d a sel) s = .next (s.fault (Trap.plain 0x09 (512 + sel)))) ∧
      (∀ e ∈ sysWrites, ¬ within (operand s.cur a) e.bits → exec (.syswr d a e.sel) s = .next (s.fault (Trap.plain 0x02 0x800E))) ∧
      (256 ≤ (operand s.cur a).toNat → exec (.sysrd d a 0x1B) s = .next (s.fault (Trap.plain 0x02 0x800E)))) ∧
    (128 ≤ (operand s.cur a).toNat → exec (.sysrd d a 8) s = .next (s.fault (Trap.plain 0x02 0x800E))) ∧
    (s.curSlot ≠ 9 →
      exec (.dirrd d) s = .next (s.fault (Trap.plain 0x09 0x300)) ∧ exec (.dirwr a) s = .next (s.fault (Trap.plain 0x09 0x300))) ∧
    (s.cur.tv = none → s.cur.inHandler = false → exec .eret s = .next (s.fault (Trap.plain 0x01 3)))

/-- Taking a trap and returning. A fault writes TRAPCAUSE, TRAPPC and TRAPADDR, holds the pending transfer and the open windows,
makes the context privileged and goes to the handler's entry, and nothing else of the device changes. TRAP retires, and its
TRAPPC is the next instruction. ERET goes on at TRAPPC with what was held. With no handler to enter, the context ends: its cell is
lowered, its group's rein line raised, each with its release (`released`), a record of TYPE 0 written, and it is IDLE; the overflow
handler's slices go to broadcast (`dirBroadcast`) with its record. Uncorrectable data leaves a record of TYPE 3 first. The bytes of
every fault record are those of R425. The model's choices: that taking a trap and returning leave both latches as they are is read
from what R418 and R420 name (log 34, DEDUCED); a decrement and a raise whose release is not complete wait among the writes of the
device itself (log 31); and what the record of an unread unit says in words 2 to 4, and that a COUNT which cannot be read has a
record of its own (log 43) (R38, R47, R56, R76, R316, R319, R416 to R421, R424 to R426, R463). -/
def Obligations.TrapsEnterAndReturn : Prop :=
  ∀ (s : State), Stands s →
    (HasHandler s → ∀ f : Trap, f.code ≠ 0 → f.unit = none → s.fault f = s.setCur (atHandler s f s.cur.pc)) ∧
    (HasHandler s → s.cur.tv = none → ∀ n, ∃ u, exec (.trap n) s = .next (u.setCur (atHandler u (Trap.plain 0x20 n) u.cur.pc)) ∧
      WritesNothing s u 1 none none) ∧
    (s.cur.inHandler = true → s.cur.tv = none → ∀ u, settleScope s s.curCore 2 = .ok () u → Stands u → u.cur = s.cur →
      u.me.preempt = none → ∃ t, exec .eret s = .next t ∧ OnlyContext u t ∧ t.cur = fromHandler s.cur t.cur ∧
      (∀ r, r < 48 → t.cur.sreg r =
        if r = 0 then 0 else (((s.cur.pend.filter fun p => !p.outer && !p.isVec && p.reg == r).getLast?).map (·.word)).getD (s.cur.sreg r)) ∧
      (∀ r, r < 16 → t.cur.vreg r =
        (((s.cur.pend.filter fun p => !p.outer && p.isVec && p.reg == r).getLast?).map (·.runs)).getD (s.cur.vreg r)) ∧
      let own (vec : Bool) (r : Nat) : Bool := s.cur.pend.any fun p => !p.outer && p.isVec == vec && p.reg == r
      (∀ r, r < 48 → vget t.cur.sw r 0 = if r ≠ 0 ∧ own false r = true then s.cur.now else vget s.cur.sw r 0) ∧
      (∀ r, r < 16 → vget t.cur.vw r 0 = if own true r = true then s.cur.now else vget s.cur.vw r 0)) ∧
    (¬ HasHandler s → s.curSlot ≠ 9 → s.cur.cell = 0 → s.cur.stall = none → s.me.posted = [] → s.flights = [] → s.tandemUp = false →
      s.fltRing.getLsbD 63 = false → ∀ f : Trap, f.code ≠ 0 → f.unit = none →
      (s.fault f).cur = { s.cur with st := .idle, tv := none, held := none, pend := [], inHandler := false, code := [], wait := .none,
                                     given := none } ∧
      SameMemory s (s.fault f) ∧ (s.curSlot = 15 → ∀ i, (s.fault f).tile i = none) ∧
      (∀ c slot, ¬ (c = s.curCore ∧ slot = s.curSlot) → (s.fault f).ctx c slot = s.ctx c slot)) ∧
    (¬ HasHandler s → ∀ f : Trap, f.code ≠ 0 → f.unit = none →
      let c := s.cur
      let served := if c.inHandler then c.trapCause else 0
      let record (u : State) : State := faultRing u 0 (BitVec.ofNat 64 (ctxidOf s)) (causeOf c.tv.isSome f) c.pc f.addr served
      (s.curSlot ≠ 9 → ∀ u, CellLowered s u →
        let pid := (u.core s.curCore).pid
        (∀ z, released u s.curCore [s.curSlot] 4 = .ok () z →
          s.fault f = endSlot (record (reined z pid c.group)) s.curCore s.curSlot) ∧
        (∀ z, released u s.curCore [s.curSlot] 4 = .wait z →
          s.fault f = endSlot (record { z with devQ := z.devQ ++ [.rein s.curCore [s.curSlot] pid c.group] }) s.curCore s.curSlot)) ∧
      (s.curSlot = 9 → s.fault f = endSlot (dirBroadcast (record s) s.curCore) s.curCore 9)) ∧
    (∀ (f : Trap) (cls idx : Nat), f.code ≠ 0 → f.unit = some (cls, idx) →
      let u := faultRing s 3 (BitVec.ofNat 64 (cls * 2 ^ 56 + idx % 2 ^ 56)) (causeOf s.cur.tv.isSome f) s.cur.pc f.addr 0
      s.fault f = faultOf u s.curCore s.curSlot { f with unit := none } s.cur.pc) ∧
    (∀ (type cls idx src code info : Nat) (w1 w2 w3 w4 w5 : Word),
      faultRecord s type w1 w2 w3 w4 w5 = faultRing s type w1 w2 w3 w4 w5 ∧
      entryRecord s w1 code info w5 = faultRing s 0 w1 (BitVec.ofNat 64 (info % 2 ^ 16 * 2 ^ 16 + code % 2 ^ 8)) 0 0 w5 ∧
      unitRecord s cls idx src =
        faultRing s 3 (BitVec.ofNat 64 (cls * 2 ^ 56 + idx % 2 ^ 56)) (BitVec.ofNat 64 (src * 2 ^ 12 % 2 ^ 16 * 2 ^ 16 + 0x0E)) 0 0 0)

/-- BANKCFG puts its switch on its way once the older accesses are performed, and says before that which one it may not
make; DIRRD and DIRWR of the overflow handler; MARK writes a marker and counts capture windows (R115, R116, R156, R320, R321, R322,
R398, R440, R450). -/
def Obligations.BanksDirectoryAndMarks : Prop :=
  ∀ (a d mode esize stopk : Nat) (s : State), Stands s →
    (∀ u w, let i := (operand s.cur a).toNat % 128
      let home := s.curCore / 8 * 8 + i / 16
      let b := i % 16
      settleBank (settleHomeBanks s s.curCore) s.curCore home b = u → u.cur = s.cur → u.curCore = s.curCore →
      (∀ t, some t ∉ bankcfgTraps u home b mode) → settleScope u u.curCore 1 = .ok () w → Stands w → w.cur = s.cur →
      let x := w.bank home b
      let y : BankSwitch := { core := w.curCore, mode := mode, esize := esize, pid := w.me.pid }
      ∃ t, exec (.bankcfg a mode esize) s = .next t ∧
        WritesNothing (w.setBank home b { x with switches := x.switches ++ [y] }) t 1 (some a) none) ∧
    (s.curSlot = 9 →
      let u := { s with fresh := s.fresh + 1 }
      (∀ r l, s.me.dirReq = some r → (s.l2Of r.die).find? (fun (x : L2Line) => x.pid == r.pid && x.vln == r.vln) = some l →
        ∃ t v, exec (.dirrd d) s = .next t ∧ WritesScalar u t 1 d v none none ∧ v.toNat < 2 ^ 9 ∧ v.getLsbD 8 = l.ovf ∧
          ∀ i, i < 8 → v.getLsbD i = l.sharers.contains i) ∧
      (∀ r, s.me.dirReq = some r → (s.l2Of r.die).find? (fun (x : L2Line) => x.pid == r.pid && x.vln == r.vln) = none →
        ∃ t, exec (.dirrd d) s = .next t ∧ WritesScalar u t 1 d 0 none none) ∧
      (s.me.dirReq = none → ∃ t v, exec (.dirrd d) s = .next t ∧ WritesScalar u t 1 d v none none ∧ v.toNat < 2 ^ 9) ∧
      (let v := operand s.cur a
       let u := readsA s a
       v.toNat < 2 ^ 16 → (v.toNat % 2 ^ 8 ≠ 0 → ∃ r, s.me.dirReq = some r ∧ r.reason = 1) → Stands (dirAnswer u s.curCore v) →
        ∃ t, exec (.dirwr a) s = .next t ∧ WritesNothing (dirAnswer u s.curCore v) t 1 none none)) ∧
    (let open' (u : State) : State := { u with openCount := if stopk = 0 then min (s.openCount + 1) 65535 else s.openCount - 1 }
     let r : RingRec := .words (2 ^ 56 + s.tick % 2 ^ 56) (ctxidOf s) ((operand s.cur a).toNat % 2 ^ 32 * 2 ^ 32 + stopk)
        (s.cur.pc.toNat % 2 ^ 48 / 4)
     Admits s 2 → s.tickWait = 0 →
     (∀ u, s.me.stampBase.getLsbD 63 = true → flushStamps (s.setMe { s.me with stamps := s.me.stamps ++ [r] }) s.curCore = u →
        Stands u → u.cur = s.cur → u.openCount = s.openCount → u.tickWait = 0 →
        ∃ t, exec (.mark a stopk) s = .next t ∧ WritesNothing (open' u) t 1 (some a) none) ∧
     (s.me.stampBase.getLsbD 63 = false → ∃ t, exec (.mark a stopk) s = .next t ∧ WritesNothing (open' s) t 1 (some a) none))

/-! ## Reset and invariants -/

/-- What reset leaves: the banks of every core in their power-up modes with their fields 0, pad bytes zero, credits, the arbiter's
pointer, the places' vectors, READY, FAILED, the tick and the registers at the reset values that the spec gives; and the memories
in their canonical form. The model's choice are the zeros that memory nothing has written reads (log 1), the enabled cores (log 6),
and that every context is IDLE, no process resident and the debugger not stopping (log 2); registers without a reset value are not
stated (R114, R158, R322, R327, R372, R374, R378, R416, R424, R486). -/
def Obligations.ResetState : Prop :=
  let s := State.reset
  s.MemOk ∧ BankFields s ∧ (∀ a, memGet s.pad a = 0) ∧
  (∀ c b, c < 96 → b < 16 → (s.bank c b).mode = (if b < 3 then 4 else 1) ∧ (s.bank c b).pid = 0 ∧ (s.bank c b).count = 0 ∧
    (s.bank c b).head = 0 ∧ (s.bank c b).tail = 0 ∧ (s.bank c b).retired = false) ∧
  (∀ c slot, c < 96 → (s.ctx c slot).st = .idle ∧ (s.ctx c slot).trapCause = 0) ∧
  (∀ c, c < 96 → (s.core c).resident = false ∧ (s.core c).rr = 0 ∧ (∀ n, n < 64 → vget (s.core c).cred n 1 = 0) ∧
    (s.core c).stampBase = 0 ∧ (s.core c).dirArea = 0 ∧ (s.core c).dirPc = 0) ∧
  (∀ p, p < 4 → s.vec p = [0, 0, 0, 0]) ∧ s.tick = 0 ∧ s.ready = 0 ∧ s.failed = 0 ∧ s.fltRing = 0 ∧ s.tandemCfg = 0 ∧ s.spillQ = 0 ∧
  s.procBase = 0 ∧ s.ptBase = 0 ∧ s.cap = 800 ∧ s.clkStep = 0 ∧ s.ctlRes = 0 ∧ s.dbg.stopped = false ∧
  (∀ n, n < 64 → vget s.clients n 1 = 0 ∧ vget s.trapEnt n 1 = 0)

/-- Every step keeps the canonical form of both memories, so that equal memories are equal data (log 1). -/
def Obligations.StepsKeepMemoryCanonical : Prop :=
  ∀ s t : State, s.MemOk → step s = .next t → t.MemOk

/-- No instruction of a context at user level changes a privileged register of the device or of a core, whatever it does or meets;
TRAPCAUSE, TRAPPC and TRAPADDR of its own context, which R323 counts among the privileged registers, are excepted, since every fault
and TRAP writes them (R416, R418). And every step keeps the fields of every bank within their widths, so that BANKMAP shows them whole.
The sides of a grid are within 256 in every state
(R41, R113, R120, R316, R318, R322, R323). -/
def Obligations.PrivilegedRegistersAndBankFieldsStay : Prop :=
  (∀ (i : Instr) (s t : State), ¬ Privileged s → i.isStep = false → exec i s = .next t → SamePrivileged s t) ∧
  (∀ s t : State, BankFields s → step s = .next t → BankFields t) ∧
  (∀ k : Core, k.gx ≤ 256 ∧ k.gy ≤ 256)

/-! ## The steps of other agents

Each statement gives the state that a step leaves where it does what it is for; a step with nothing to do leaves the state as it
is (log 18). -/

/-- What the host does where it is accepted: a launch joins its core's queue, a port message leaves for its core, writes and reads
of memory are made, a read once no handler request of its lines is outstanding, BAR0 reads answer, and the lines of a snoop and of a
BIRsp are given up; what is refused leaves its record,
and a write whose APBASE leads out of HBM stops the model (logs 33, 43). A map word that reads good leaves nothing of its reading;
what a failing one leaves is the model's `mapNote` (log 25) (R36, R161, R168, R365 to R371, R373, R484, R486). -/
def Obligations.HostSteps : Prop :=
  ∀ (ch off pa n core : Nat) (bytes : List Byte) (s : State),
    (let l := launchMade s ch bytes
     let u := mapNote s l.pid l.vcore
     let k := u.core core
     LaunchGood u ch bytes core → FunctionUp u (20 + core / 8) → u.flights = [] →
      groupStopped u l.pid l.group = false → 3 ≤ banksInService k → k.spLaunch = [] → k.launchQ.length < 16 →
      exec (.launch ch 0 bytes) s = .next (u.setCore core { k with launchQ := k.launchQ ++ [l] })) ∧
    (∀ pid v bs t, let at' := procRecord s pid + 0x800 + 8 * v
     regionOf at' ≠ .hbm ∨ physLoad { s with ready := BitVec.allOnes 64 } at' 8 = .ok bs t → mapNote s pid v = s) ∧
    (off ≠ 0 ∨ bytes.length ≠ 64 →
      exec (.launch ch off bytes) s = .next (entryRecord s 0 2 0 (BitVec.ofNat 64 ch)) ∧
      exec (.messagePortWrite ch off bytes) s = .next (entryRecord s 0 2 0 (BitVec.ofNat 64 ch))) ∧
    (let m := portMessage s ch bytes
     let u := mapNote s m.pid m.dstv
     bytes.length = 64 → u.hostWait = [] → (vget s.clients ch 0).getLsbD 38 = true → mapCore u m.pid m.dstv = some core → u.flights = [] →
     wfld (word8 bytes 0) 63 50 = 0 → wfld (word8 bytes 0) 33 8 = 0 → wfld (word8 bytes 0) 3 0 = 0 → (word8 bytes 2).toNat < 2 ^ 8 →
     (∀ i, 24 ≤ i → bytes.getD i 0 = 0) →
      exec (.messagePortWrite ch 0 bytes) s = .next (u.setCore core { u.core core with inbound := (u.core core).inbound ++ [m] })) ∧
    (let a := wfld (vget s.apBase ch 0) 45 23 * 2 ^ 23 + off
     bytes.length ∈ [4, 8, 16, 32, 64] → off % bytes.length = 0 → off < 2 ^ 23 →
      (regionOf a = .hbm → StacksUp s a bytes.length →
        exec (.apertureWrite ch off bytes) s = .next { hostWriteMem s a bytes.length bytes with hostWait := [] }) ∧
      (regionOf a ≠ .hbm → exec (.apertureWrite ch off bytes) s = .fault .hostHole)) ∧
    (bytes.length ∉ [4, 8, 16, 32, 64] ∨ off % bytes.length ≠ 0 →
      exec (.apertureWrite ch off bytes) s = .next (entryRecord s 0 2 0 (BitVec.ofNat 64 ch))) ∧
    (pa + bytes.length ≤ 0x47_B800_0000 → StacksUp s pa bytes.length →
      let u := hostWriteMem s pa bytes.length bytes
      exec (.cxlMemWrite pa bytes) s = .next { u with cxlOpen := u.cxlOpen ++ [(u.vec 2).getD 2 0], hostWait := [] }) ∧
    (pa + n ≤ 0x47_B800_0000 → StacksUp s pa n →
     (∀ i l, (pa / 128 + i) * 128 < pa + n → l2Phys s (memPlace ((pa / 128 + i) * 128)) (pa / 128 + i) = some l →
       dirBusy s (memPlace ((pa / 128 + i) * 128)) l.pid l.vln = false) →
      exec (.hostRead pa n) s =
        .next { (hostReadMem s pa n n).2 with hostData := (hostReadMem s pa n n).1, hostWait := [] }) ∧
    (0x1000_0000_0000 ≤ pa → pa + n ≤ 0x1000_4000_0000 →
      exec (.hostRead pa n) s = .next { (devRead s (pa - 0x1000_0000_0000) n).2 with hostData := (devRead s (pa - 0x1000_0000_0000) n).1 }) ∧
    (0x47_B800_0000 < pa + bytes.length → exec (.cxlMemWrite pa bytes) s = .fault .hostHole) ∧
    (regionOf pa ≠ .host → exec (.hostSnoop pa) s = .next s) ∧
    (∀ l, regionOf pa = .host → s.flights = [] → l2Phys s 0 (pa / 128) = some l → l2Phys (l2Evict s 0 l) 1 (pa / 128) = none →
      exec (.hostSnoop pa) s = .next (dropCodeDie (dropPaddocks (l2Evict s 0 l) 1 (pa / 128)) 1 (pa / 128))) ∧
    (let h := pa / 64 * 64
     let other := if h % 128 = 0 then h + 64 else h - 64
     s.bisnp.contains h = true →
      (s.bisnp.contains other = true → exec (.birsp pa) s = .next { s with bisnp := s.bisnp.filter (· != h) }) ∧
      (s.bisnp.contains other = false →
        exec (.birsp pa) s =
          .next (devRun (dropSharer { s with bisnp := s.bisnp.filter (· != h), hostLines := s.hostLines.filter (· != pa / 128) }
            (memPlace (pa / 128 * 128)) (pa / 128) 7))))

/-- A drain has left something to perform: a posted store of a context that the image holds, or a write of one that is still on its
way to host memory (R145, R336, R473). -/
def Sys2Proof.Claims.DrainLeft (s : State) (core : Nat) : Prop :=
  (∃ q ∈ (s.core core).posted, q.slot < 9 ∨ q.slot = 15) ∨
    ∃ d ∈ s.flights, d.dst = 2 ∧ d.line.isSome = true ∧ ∃ slot, d.owner = some (core, slot) ∧ (slot < 9 ∨ slot = 15)

/-- Requests of the core control window: a PREEMPT of a running core begins its pre-emption at this tick; one of an idle or
already pre-empted core is discarded; one whose fields are wrong leaves a record. The budget ends where the control context waits on
no queue, or after 2,048 cycles, and the FIFO accesses of the process then leave the queues they wait on; a
context in its handler holds the pre-emption back; a drain of 2^20 ticks is abandoned; an image is written once the drain has
ended, its last word behind the others, and one is loaded where its slots are free: of the oldest resume whose PID may run there, one
whose PID may not holding up none behind it. The last two are said by the model's own functions (`writeImage`, `writeLast`,
`resumeOldest`), as is what a RESUME request does once it is read (`resumeRequest`); that one reads CTLRES 6 before 5, 7 and 8 is
the model's choice (log 38), as are the ticks that cycles last (log 5) (R335, R336, R338, R346, R472, R473). -/
def Obligations.PreemptionSteps : Prop :=
  ∀ (w : Word) (core : Nat) (s : State),
    let k := s.core core
    (wfld w 63 62 = 1 → wfld w 61 55 = core → w.toNat % 2 ^ 55 = 0 → s.enabled core = true →
      (k.ctl.st ≠ .idle → k.preempt = none →
        exec (.preempt w) s =
          .next (s.setCore core { k with preempt := some { why := .request, start := s.tick, held := inHandlers k, expired := false,
                                                           issued := issuedNow k, imaged := false },
                                         ctlStat := ctlWord 0 k.pid 1 0 0 1 })) ∧
      (k.ctl.st = .idle ∨ k.preempt ≠ none → exec (.preempt w) s = .next (s.setCore core { k with ctlStat := ctlWord 0 k.pid 1 0 0 3 }))) ∧
    (wfld w 63 62 = 0 ∨ wfld w 63 62 = 3 ∨ w.getLsbD 54 = true ∨ wfld w 11 0 ≠ 0 →
      exec (.preempt w) s = .next (entryRecord s 0 2 0 w) ∧ exec (.resume w) s = .next (entryRecord s 0 2 0 w)) ∧
    (wfld w 63 62 = 2 → wfld w 61 54 = 0 → wfld w 11 0 = 0 →
      let pid := wfld w 53 48
      let va : Word := (BitVec.ofNat 48 (wfld w 47 12 * 4096)).signExtend 64
      let begun := { s with ctlRes := ctlWord 0 pid 2 0 0 1 }
      (∀ u, resumeRequest begun pid va = .ok () u → exec (.resume w) s = .next u) ∧
      (∀ u, resumeRequest begun pid va = .wait u → exec (.resume w) s = .next { u with resumeReqs := u.resumeReqs ++ [(pid, va)] })) ∧
    (∀ p, k.preempt = some p → p.held = false →
      (p.expired = false → inHandlers k = false → (∀ slot, (s.ctx core slot).stall = none) →
        exec (.preemptBudgetExpiry core) s = .next (s.setCore core { k with preempt := some { p with expired := true } })) ∧
      (p.expired = false → inHandlers k = false → k.ctl.stall ≠ none → s.tick < p.start + cycleTicks s 2048 →
        exec (.preemptBudgetExpiry core) s = .next s) ∧
      (core < 96 → p.expired = false → inHandlers k = false → k.ctl.stall = none ∨ p.start + cycleTicks s 2048 ≤ s.tick →
        ∃ u, exec (.preemptBudgetExpiry core) s = .next u ∧ (u.core core).preempt = some { p with expired := true } ∧
          (∀ slot, slot < 9 ∨ slot = 15 → (u.ctx core slot).stall = none ∧
            u.ctx core slot = { s.ctx core slot with stall := none }) ∧
          ∀ h b, h < 96 → b < 16 → ∀ w, w ∈ (u.bank h b).waiters ↔ w ∈ (s.bank h b).waiters ∧
            ¬ ∃ slot, (slot < 9 ∨ slot = 15) ∧ w = (core, slot) ∧ ∃ q, (s.ctx core slot).stall = some q ∧ q / 16 = h ∧ q % 16 = b) ∧
      (inHandlers k = true →
        let held := s.setCore core { k with preempt := some { p with held := true, expired := false } }
        (p.expired = false → exec (.preemptBudgetExpiry core) s = .next held) ∧
        (p.expired = true → exec (.preemptImageWrite core) s = .next held)) ∧
      (p.start + 2 ^ 20 ≤ s.tick → DrainLeft s core →
        let left := s.setCore core { k with preempt := none, ctlStat := ctlWord 0 k.pid (if p.why = .request then 1 else 3) 0 1 4 }
        exec (.preemptAbandon core) s = .next left ∧
        (p.expired = true → p.imaged = false → inHandlers k = false → exec (.preemptImageWrite core) s = .next left)) ∧
      (∀ u, p.expired = true → p.imaged = false → inHandlers k = false → (s.tick < p.start + 2 ^ 20 ∨ ¬ DrainLeft s core) →
        drain s core Posted.ofSaved = .ok () u → ¬ DrainLeft (settleFlights u 2) core →
        exec (.preemptImageWrite core) s = .next (writeImage (settleFlights u 2) core p)) ∧
      (p.expired = true → p.imaged = true → inHandlers k = false → exec (.preemptImageWrite core) s = .next (writeLast s core p))) ∧
    (∀ older r newer, k.resumes = older ++ r :: newer → pidOk k r.pid = true → (∀ x ∈ older, pidOk k x.pid = false) →
      r.asked = false ∨ (∀ x ∈ newer, x.asked = true ∨ pidOk k x.pid = false) →
      exec (.resumeLoad core) s = .next (resumeOldest s core r)) ∧
    (∀ r rs, k.resumes = r :: rs → (∀ x ∈ k.resumes, pidOk k x.pid = false) → exec (.resumeLoad core) s = .next (resumeOldest s core r))

/-- The context that a task starts in a slot: live at its PC with its three arguments, written at this tick, under the task's names and
the version its code is entered in (R35, R44, R45, R357, R396). -/
def Sys2Proof.Claims.startedTask (s : State) (core slot : Nat) (t : Task) : Ctx :=
  let old := s.ctx core slot
  let args : List Word := [0, t.arga, t.argb, if t.pinned then BitVec.ofNat 64 slot else t.join]
  { Ctx.reset with
    st := .live, pc := t.pc, s := Vector.ofFn fun i : Fin 48 => args.getD i.val 0,
    trapCause := old.trapCause, trapPc := old.trapPc, trapAddr := old.trapAddr,
    major := (codeVersion s t.pid t.pc).1, minor := (codeVersion s t.pid t.pc).2,
    group := t.group, vcore := t.vcore, domain := t.domain, cls := t.cls, priv := t.priv, cell := t.join, full := slot == 15,
    now := s.tick, sw := Vector.replicate 48 s.tick, vw := Vector.replicate 16 s.tick, kw := Vector.replicate 8 s.tick,
    gw := Vector.replicate 16 s.tick }

/-- What brings work to contexts: a message arrives in its register, its backlog or its inbox, and a context that waits on the register
takes the value; a cleared register takes the oldest message of its backlog; the arbiter starts the head of the pool's next source; a
satisfied wait wakes; helpers park and
return; tasks are stolen, a probe and its answer taking their cycles, and start, or return where no context is free; a spilled entry
returns to the first queue with room for its own. The model's choices: the ticks that cycles last (log 5), the spilled entries in lists
of the state (log 19), which waiting helper parks (`longestWaiter`, log 37), messages of different senders in the order in which
they were sent (log 43), and that a resume whose PID may not run yet bars no helper slot (`resumeBars`, log 45) (R35, R43, R45 to R55, R163, R327, R330, R333). -/
def Obligations.SchedulingSteps : Prop :=
  ∀ (core slot : Nat) (s : State),
    let k := s.core core
    (∀ m rest, k.inbound = m :: rest → m.kind = 0 → groupStopped s m.pid m.group = false → isSaved s m.pid m.dstv = false →
      k.resident = true → k.pid = m.pid →
      (vget k.mfull m.mreg false = false → k.backlog = [] → k.spBacklog = [] → mregWaiters k m.mreg = [] →
        exec (.messageArrival core) s =
          .next ((s.setCore core { k with inbound := rest }).setCore core
            { k with inbound := rest, m := k.m.setIfInBounds m.mreg m.arga, mfull := k.mfull.setIfInBounds m.mreg true,
                     mfrom := k.mfrom.setIfInBounds m.mreg (m.group, m.dstv) })) ∧
      (∀ e ∈ mregWaiters k m.mreg, core < 96 → m.mreg < 16 → vget k.mfull m.mreg false = false → k.backlog = [] → k.spBacklog = [] →
        (∀ y ∈ mregWaiters k m.mreg, e.1 < y.1 ∨ (e.1 = y.1 ∧ e.2.1 ≤ y.2.1)) →
        let n := { k with inbound := rest, m := k.m.setIfInBounds m.mreg m.arga, mfull := k.mfull.setIfInBounds m.mreg false,
                          mfrom := k.mfrom.setIfInBounds m.mreg (m.group, m.dstv) }
        (e.2.2 < 16 → exec (.messageArrival core) s =
          .next (s.setCore core (n.setCtx e.2.2 { k.ctx e.2.2 with given := some m.arga, st := .live }))) ∧
        (16 ≤ e.2.2 → exec (.messageArrival core) s =
          .next (s.setCore core { n with parked := k.parked.modify (e.2.2 - 16) fun c => { c with given := some m.arga } }))) ∧
      (core < 96 → vget k.mfull m.mreg false = true → k.backlog.length < 32 → k.spBacklog = [] →
        exec (.messageArrival core) s =
          .next ((s.setCore core { k with inbound := rest }).setCore core { k with inbound := rest, backlog := k.backlog ++ [m] }))) ∧
    (∀ m rest, k.inbound = m :: rest → m.kind = 1 → core < 96 → groupStopped s m.pid m.group = false → isSaved s m.pid m.dstv = false →
      k.resident = true → k.pid = m.pid → k.spInbox = [] → inboxFlits k < 64 →
        exec (.messageArrival core) s =
          .next ((s.setCore core { k with inbound := rest }).setCore core { k with inbound := rest, inbox := k.inbox ++ [m] })) ∧
    (∀ m rest, k.backlog = m :: rest → vget k.mfull m.mreg false = false → mregWaiters k m.mreg = [] →
      exec (.registerWriteApply core) s =
        .next (s.setCore core { k with backlog := rest, m := k.m.setIfInBounds m.mreg m.arga, mfull := k.mfull.setIfInBounds m.mreg true,
                                       mfrom := k.mfrom.setIfInBounds m.mreg (m.group, m.dstv) })) ∧
    (∀ i, s.enabled core = true → k.preempt = none → k.resumes = [] → k.ctl.st = .idle →
      grantPick k (grantPool k (sources s core false)) = some i →
      exec (.arbiterGrant core) s =
        .next (grantCredits (startSource s core 15 i) core i ((owedChannels k (sources s core false)).any (·.1 == i)))) ∧
    (∀ a, (s.ctx core slot).wait = .join a → (s.ctx core slot).st = .waiting → (∃ u, readCell s ⟨core, 16, k.pid⟩ a = .ok 0 u) →
      exec (.joinWake core slot) s = .next (s.setCtx core slot { s.ctx core slot with st := .live, wait := .joined a })) ∧
    (∀ tc n, (s.ctx core slot).wait = .tcwait tc n → (s.ctx core slot).st = .waiting → n.toNat ≤ (vget k.tcs tc ⟨0, 0, none⟩).done.toNat →
      exec (.tcwaitWake core slot) s = .next (s.setCtx core slot { s.ctx core slot with st := .live })) ∧
    (k.ctl.st = .waiting → k.ctl.since + 4096 ≤ s.tick → otherWork s core = true → k.preempt = none →
      exec (.vcoreSwitch core) s =
        .next (s.setCore core { k with preempt := some { why := .switch, start := s.tick, held := inHandlers k, expired := false,
                                                         issued := issuedNow k, imaged := false },
                                       ctlStat := ctlWord 0 k.pid 3 0 0 1 })) ∧
    (∀ i u, longestWaiter k = some i → slotWanted s core = true → k.preempt = none → spillTake s k.pid 256 = .ok u → u.core core = k →
      exec (.helperPark core) s =
        .next (u.setCore core ({ k with parked := k.parked ++ [{ k.ctx i with st := .parked }] }.setCtx i { (k.ctx i).ended with st := .idle }))) ∧
    (k.preempt = none → resumeBars k = false → ∀ u, parkedReturn s core = some u → exec (.parkedHelperReturn core) s = .next u) ∧
    (∀ v, k.steal = { k.steal with victim := none, backoff := false } → isThief s core = true →
      (List.range 96).find? (fun j => decide (k.steal.next ≤ j) && decide (1 ≤ j) && isVictim s ((core + j) % 96) k) = some v →
      exec (.stealProbe core) s =
        .next (s.setCore core { k with steal := { k.steal with next := v + 1, victim := some ((core + v) % 96), arrived := false, task := none,
                                                                 since := s.tick } })) ∧
    (∀ v x rest, k.steal.victim = some v → k.steal.arrived = false →
      k.steal.since + cycleTicks s (probeTime core v / 2) ≤ s.tick → v ≠ core → (s.core v).spTasks = [] →
      takeFirst (mayTake k core v) (s.core v).deque.reverse = some (x, rest) →
      exec (.stealProbeArrival core) s =
        .next ((s.setCore v { s.core v with deque := rest.reverse }).setCore core { k with steal := { k.steal with arrived := true, task := some x } })) ∧
    (∀ v, k.steal.victim = some v → k.steal.arrived = true → k.steal.since + cycleTicks s (probeTime core v) ≤ s.tick →
      k.steal.task = none →
      exec (.stealAnswer core) s = .next (s.setCore core { k with steal := { k.steal with victim := none, arrived := false } })) ∧
    (∀ v x, core < 96 → k.steal.victim = some v → k.steal.arrived = true → k.steal.since + cycleTicks s (probeTime core v) ≤ s.tick →
      k.steal.task = some x →
      let n := { k with steal := { k.steal with victim := none, arrived := false, task := none, took := true } }
      (groupStopped s x.pid x.group = true → x.join = 0 → exec (.stealAnswer core) s = .next (s.setCore core n)) ∧
      (groupStopped s x.pid x.group = false → k.resident = true → k.pid = x.pid → k.preempt = none → k.resumes = [] →
        (∀ slot, (x.full = true ∧ slot = 15 ∧ k.ctl.st = .idle ∧ 3 ≤ banksInService k) ∨
            (x.full = false ∧ k.parked = [] ∧ freeHelper k = some slot) →
          exec (.stealAnswer core) s =
            .next (s.setCore core
              ({ n with rr := 65, switched := if slot = 15 then none else k.switched }.setCtx slot (startedTask s core slot x)))) ∧
        ((x.full = true ∧ k.ctl.st ≠ .idle) ∨ (x.full = false ∧ freeHelper k = none) → v ≠ core → (s.core v).spTasks = [] →
          (s.core v).deque.length < 32 →
          exec (.stealAnswer core) s =
            .next ((s.setCore core n).setCore v { s.core v with deque := (s.core v).deque ++ [x] })))) ∧
    (k.steal.backoff = true → k.steal.since + cycleTicks s 512 ≤ s.tick →
      exec (.stealSweepBackoff core) s = .next (s.setCore core { k with steal := { k.steal with backoff := false, next := 1 } })) ∧
    (∀ m rest, k.spInbox = m :: rest → inboxFlits k + m.units ≤ 64 →
      exec (.spillRefill core) s =
        .next (spillGive (s.setCore core { k with inbox := k.inbox ++ [m], spInbox := rest }) m.pid m.units)) ∧
    (∀ m rest, k.spBacklog = m :: rest → k.backlog.length < 32 → (∀ x ∈ k.spInbox.head?, 64 < inboxFlits k + x.units) →
      exec (.spillRefill core) s =
        .next (spillGive (s.setCore core { k with backlog := k.backlog ++ [m], spBacklog := rest }) m.pid 1))

/-- What the engines of a core do: the oldest command whose engine is free is taken, and the peer is told of a COLL; a copy moves its
next word, and stores its write pointer once every word before it is performed; a consistent
layout record goes into its slot; a transform writes each element of its destination, or each MX block, at its place with the bits
that its source gives, a stream's symbols among them, or faults with the reason of its records; a matched set of collectives that
agrees delivers to each participant by OP, its reductions by the tree of R303, and one that disagrees faults with the fields that do;
and DONE passes a complete command in order, with its notification. The model's choices: a COLL with SPAN 0 is told to the peer too
(log 17), the words that a faulting transform writes are free (log 20), as is what the bits of a plane code without an element come
to (log 25), and the order of a transform's checks (log 39)
(R163 to R165, R284, R286, R287, R289, R291 to R300, R302 to R305, R422, R442, R469, R471). -/
def Obligations.EngineSteps : Prop :=
  ∀ (core chan tc : Nat) (s : State),
    let k := s.core core
    (∀ older c newer g, k.cmds = older ++ c :: newer → (∀ x ∈ older, ∀ h, ¬ TakenTo k x h) → TakenTo k c g →
      ((∀ op red ty span root ssp dsp seq, c.op ≠ .coll op red ty span root ssp dsp seq) →
        exec (.commandDispatch core) s = .next (nowCommand s core { c with stage := g })) ∧
      (∀ op red ty span root ssp dsp seq, c.op = .coll op red ty span root ssp dsp seq →
        (span = false → s.tandemUp = false → exec (.commandDispatch core) s = .next (nowCommand s core { c with stage := g })) ∧
        (span = false → s.tandemUp = true → exec (.commandDispatch core) s =
          .next (nowCommand { s with peerOut := s.peerOut ++ [.coll (collFlit s core c op red ty false root seq [])] } core
            { c with stage := g })) ∧
        (∀ bs u, span = true → readBytes ⟨core, 20, k.pid⟩ ssp 0 4 c.len.toNat (4 * c.len.toNat) c.a s = .ok bs u →
          let words : List W32 := (List.range c.len.toNat).map fun i =>
            BitVec.ofNat 32 (littleEndian (fun j => bs.getD (4 * i + j) 0) 4)
          exec (.commandDispatch core) s =
            .next (nowCommand { u with peerOut := u.peerOut ++ [.coll (collFlit s core c op red ty true root seq words)] } core
              { c with word := some bs, stage := g })))) ∧
    (∀ c bs u v ssp scs dsp dcs ptr, cmdAt s core (.chan chan) = some c → c.op = .copy ssp scs dsp dcs ptr → c.word = none →
      c.off < c.len.toNat →
      (ptr = none ∨ ((c.off + 8) % 256 ≠ 0 ∧ c.off + 8 < c.len.toNat ∧ (c.off % 256 ≠ 0 ∨ c.off = 0 ∨ c.cellAt = c.off))) →
      let w : Who := ⟨core, 17 + chan, k.pid⟩
      let p := settleFor s w ssp scs c.a
      let q := settleFor u w dsp dcs c.b
      let next : Cmd := { c with off := c.off + 8, word := none }
      copyRead p w ssp scs (if (fifoAt p core ssp scs c.a).isSome then c.a else c.a + BitVec.ofNat 64 c.off) (c.len.toNat - c.off) =
        .ok bs u → bs.length = 8 →
      onAlias u w dsp (c.b + BitVec.ofNat 64 c.off) = false →
      copyWrite u w c.ctxid c.pc dsp dcs (if (fifoAt q core dsp dcs c.b).isSome then c.b else c.b + BitVec.ofNat 64 c.off) bs =
        .ok () v →
      (c.off + 8 ≠ c.len.toNat → exec (.copyChannelTransfer core chan) s = .next (nowCommand v core next)) ∧
      (c.off + 8 = c.len.toNat → exec (.copyChannelTransfer core chan) s = .next (doneCmd v core next))) ∧
    (∀ c ssp scs dsp dcs sp cs a, cmdAt s core (.chan chan) = some c → c.op = .copy ssp scs dsp dcs (some (sp, cs, a)) →
      0 < c.off → c.off % 256 = 0 ∨ c.off = c.len.toNat → c.cellAt ≠ c.off →
      let u := engineRelease s
      let next : Cmd := { c with cellAt := c.off }
      (u.flights ≠ [] → exec (.copyChannelTransfer core chan) s = .next (nowCommand u core c)) ∧
      (∀ v, u.flights = [] → copyWrite u ⟨core, 17 + chan, k.pid⟩ c.ctxid c.pc sp cs a (natToBytes 8 c.off) = .ok () v →
        (c.off ≠ c.len.toNat → exec (.copyChannelTransfer core chan) s = .next (nowCommand v core next)) ∧
        (c.off = c.len.toNat → exec (.copyChannelTransfer core chan) s = .next (doneCmd v core next)))) ∧
    (∀ c bs u slot, cmdAt s core .engine = some c → c.op = .layv slot → readBytes ⟨core, 19, k.pid⟩ 0 0 8 8 64 c.a s = .ok bs u →
      (tensorOf bs).reason = none →
      exec (.transformRun core) s =
        .next (doneCmd (u.setCore core { u.core core with layouts := (u.core core).layouts.setIfInBounds slot (some bs) }) core c)) ∧
    (∀ c xop slay dlay i1 i2 rnd baseA baseB, cmdAt s core .engine = some c →
      c.op = .xfm xop slay dlay i1 i2 rnd baseA baseB →
      let src := slotRecord k slay baseA c.a
      let dst := slotRecord k dlay baseB c.b
      (∀ r wh, xfmReason core xop src dst = some (r, wh) → ∃ addr,
        exec (.transformRun core) s =
          .next (failCmd { s with fresh := s.fresh + 8 } core c { code := 0x0A, info := wh * 2 ^ 12 + r, acc := 7, addr := addr } none) ∧
        (wh ≠ 2 → ∀ a, src = some a → addr = BitVec.ofNat 64 a.base) ∧ (wh = 2 → ∀ b, dst = some b → addr = BitVec.ofNat 64 b.base)) ∧
      (∀ a b, src = some a → dst = some b → (tensorOf ((vget k.layouts slay none).getD [])).reason = none →
        (tensorOf ((vget k.layouts dlay none).getD [])).reason = none → xfmReason core xop src dst = none →
        (xop ≤ 5 → TransformEnds core c b (transformUnits ⟨core, 19, k.pid⟩ xop a b i1 i2 rnd) none true s s) ∧
        (∀ head u, xop = 6 → readBytes ⟨core, 19, k.pid⟩ a.space a.csel 8 18 144 (BitVec.ofNat 64 a.base) s = .ok head u →
          head.length = 144 →
          let out := littleEndian (fun i => head.getD i 0) 4
          let words := littleEndian (fun i => head.getD (4 + i) 0) 4
          let lens := (List.range 256).map fun y =>
            if y % 2 = 0 then (head.getD (16 + y / 2) 0).toNat % 16 else (head.getD (16 + y / 2) 0).toNat / 16
          let p : Payload := { who := ⟨core, 19, k.pid⟩, space := a.space, csel := a.csel, base := BitVec.ofNat 64 (a.base + 144), count := words }
          let bad (r l o : Nat) : CmdFault × Option (Nat × Nat) :=
            ({ code := 0x10, info := r + (if r = 2 ∨ r = 6 then l else 0) * 2 ^ 4, acc := 5, addr := BitVec.ofNat 64 (a.base + o) }, none)
          StreamDecodes lens p out u ∧
          (∀ r, streamBad head a.e0 b.count = some r → exec (.transformRun core) s = .next (failCmd u core c (bad r 0 0).1 none)) ∧
          (∀ syms e v, streamBad head a.e0 b.count = none → decodeStream lens p out u = .ok (syms, e) v →
            (e = .well → TransformEnds core c b (symbolUnits b syms) none true s v) ∧
            (∀ r l o, e = .bad r l o → TransformEnds core c b (symbolUnits b syms) (some (bad r l o)) (decide (r = 3)) s v))))) ∧
    (∀ ps, cmdAt s core .judged = none → ((k.cmds.filter fun c => c.stage == .port).findSome? (matchedSet s core)) = some ps →
      exec (.collectiveMatch core) s = .next (runColl s ps)) ∧
    (∀ (ps : List Part) (m : Nat), m ≠ 0 →
      (∀ i, m.testBit i = true ↔ i < 6 ∧ ∃ p ∈ ps, ∃ q ∈ ps, p.fields.getD i 0 ≠ q.fields.getD i 0) →
      runColl s ps = failSet (dropFar s ps) { code := 0x02, info := m, acc := 0, addr := 0 } ps.length none 0 ps) ∧
    (∀ (ps : List Part) (op red ty sp count root : Nat) (x : Nat → Nat → Nat) u ws v y, ps ≠ [] →
      (∀ p ∈ ps, p.fields = [op, red, ty, sp, count, root]) → op < 4 → (op = 3 → root < ps.length) →
      readSources 0 ps none s = .ok ((List.range ps.length).map fun p => (List.range count).map fun e => some (x p e), none) u →
      checkDests (fun q => (List.range (collLength op count ps.length)).map fun j =>
        some (collElement op red ty ps.length count root q j x)) 0 ps none u = ((ws, none), v) →
      (destsReady true ws v = (false, y) → runColl s ps = y) ∧
      (destsReady true ws v = (true, y) →
        let z := dropFar (engineRelease (ws.foldl (putDest true) y)) ps
        ((∀ p ∈ ps, ∃ h c, p = .own h c) →
          runColl s ps = ps.foldl (fun t p => match p with | .own h c => doneCmd t h c | .far _ => t) z) ∧
        ((∃ f, .far f ∈ ps) →
          runColl s ps = ps.foldl (endPart true) (((List.range ps.length).zip ps).foldl (tellVerdict none) z)))) ∧
    (∀ c rest, k.cmds = c :: rest → s.flights = [] → core < 96 → tc < 8 → c.tc = tc → c.num = (vget k.tcs tc ⟨0, 0, none⟩).done + 1 →
      c.stage = .complete → (∀ x ∈ rest, x.tc ≠ tc) →
      let u := s.setCore core { k with cmds := rest, tcs := k.tcs.setIfInBounds tc { vget k.tcs tc ⟨0, 0, none⟩ with done := c.num } }
      (c.notify = none → exec (.commandComplete core tc) s = .next u) ∧
      (∀ reg v, c.notify = some (reg, v) →
        (∀ dest, k.pcoreOf v = some dest → s.enabled dest = true →
          let m : Msg :=
            { kind := 0, mreg := reg, slot := 0, srcv := c.vcore, dstv := v, pid := k.pid, group := c.group, domain := 0, peer := false,
              arga := if c.fault.isSome then c.num ||| 0x8000_0000_0000_0000 else c.num, argb := 0, pay := List.replicate 5 0,
              code := [], priv := c.priv, major := 3, minor := 2 }
          exec (.commandComplete core tc) s = .next (u.setCore dest { u.core dest with inbound := (u.core dest).inbound ++ [m] })) ∧
        (k.pcoreOf v = none →
          let cause : Trap := { code := 0x02, info := 0x8213, acc := 0, addr := 0, eng := true, tc := tc, unit := none }
          let t := faultRing u 1 c.ctxid (causeOf false cause) c.pc 0 c.num
          (t.core core).cmds = rest → exec (.commandComplete core tc) s = .next t)))

/-- What banks, stores, translation, caches, controllers, the converter and the places do in a step of their own: each moves the
oldest or the named piece of work. The model's choices: a switch whose copies meet a failing word stops with a record (log 43), an
atomic is performed where it executes (log 4), and a switch from PAD to PAD changes nothing (log 27)
(R107, R108, R116 to R120, R122, R126, R129, R131, R144, R156, R158). -/
def Obligations.MemorySteps : Prop :=
  ∀ (pad bank core slot die pid va pa desc blk pos place : Nat) (c area : Bool) (bytes : List Byte) (w : Word) (s : State),
    let home := pad * 8 + bank / 16
    let b := bank % 16
    let x := s.bank home b
    let k := s.core core
    (∀ y rest, x.switches = y :: rest →
      let u := s.setBank home b { x with switches := rest }
      (switchAllowed u home b y = false → exec (.bankSwitchPoint pad bank) s = .next u) ∧
      (switchAllowed u home b y = true → copyStops u home b y = false →
        exec (.bankSwitchPoint pad bank) s = .next (switchEffect u home b y)) ∧
      (switchAllowed u home b y = true → copyStops u home b y = true →
        exec (.bankSwitchPoint pad bank) s = .next (unitRecord u (bankUnit home b).1 (bankUnit home b).2 5))) ∧
    (∀ k', (∃ y ∈ x.switches, y.mode ≠ 4) → tileCopyOne (s.core home) b = some k' →
      exec (.bankTileCopy pad bank) s = .next (s.setCore home k')) ∧
    (exec (.bankClearDone pad bank) s = .next (s.setBank home b { x with clearing := false })) ∧
    (∀ p ps u, k.posted = p :: ps → performStore s core p = .ok () u →
      exec (.postedStorePerform core) s = .next (u.setCore core { u.core core with posted := ps })) ∧
    (∀ i ws n t, canRun s true core slot = true → atBreak s core slot = false → fetchWords s core slot (s.ctx core slot).pc 3 = .ok ws t →
      decodeIn atomRows (slot != 15) (wordsToNat ws) = .ok i n → (atomMeaning i).isSome = true →
      exec (.atomicPerform core slot) s = exec i (t.moveTo core slot)) ∧
    (∀ rest, x.waiters = (core, slot) :: rest → x.count ≠ 0 → slot < 16 → s.turns.contains (.ctx core slot) = false →
      (256 ≤ x.count ∨ ∀ c, c < 96 → ∀ p ∈ (s.core c).posted, p.toBank home b = false) →
      exec (.fifoWaitServe pad bank) s = .next { s with turns := .ctx core slot :: s.turns }) ∧
    (exec (.storeProbeAnswer die pid va) s = .next (translateFor s die pid va .store).2) ∧
    (exec (.pageWalk die pid va) s = .next (translate s die pid va).2) ∧
    (exec (.xinvWrite w) s = .next (xinv s w)) ∧
    (∀ t u, resolve s ⟨die * 48, 16, pid⟩ .scalar .load va 1 = (.ok t, u) → isAlias t.leaf = false → regionOf t.pa = .hbm →
      l2Phys u die (t.pa / 128) = none → dirBusyLine u die pid (va / 128) (t.pa / 128) = false →
      exec (.l2LoadMissFill die pid va) s = .next (l2Fill u die pid (va / 128) (t.pa / 128) (wbit t.leaf 5) false).2) ∧
    (∀ l, (s.l2Of die).find? (fun (l : L2Line) => l.pid == pid && l.vln == va / 128) = some l →
      exec (.l2Writeback die pid va) s = .next (l2Writeback s die l)) ∧
    (pa < 0x47_B800_0000 →
      exec (.controllerLineRead pa) s = .next (lineRead s (pa / 128)).2 ∧
      (bytes.length = 128 → metaReady s (pa / 128) = true →
        exec (.controllerLineWrite pa c bytes) s = .next (lineWrite s (pa / 128) bytes c)) ∧
      (bytes ≠ [] → pa % 128 + bytes.length ≤ 128 → metaReady s (pa / 128) = true →
        exec (.controllerPartialMerge pa c bytes) s =
          .next (lineMerge s (pa / 128) (rangeMask (pa % 128) bytes.length) (lineWith (pa % 128) bytes) c))) ∧
    (exec (.metadataMiss desc blk) s = .next (if s.ready.getLsbD (32 + ctrlOf (blk * 64)) then metaLoad s desc blk else s)) ∧
    (exec (.metadataWriteback desc blk) s = .next (metaEvict s desc blk)) ∧
    (aliasHolds s desc blk = true →
      (∀ bs u, aliasRead s desc blk 0 64 = .ok bs u → exec (.aliasRead desc blk) s = .next u) ∧
      (∀ u, pos % 2 = 0 → bytes.length % 2 = 0 → pos + bytes.length ≤ 64 → aliasFree s desc blk = .ok () u →
        exec (.aliasWriteRepack desc blk pos bytes) s = .next (aliasWrite u desc blk pos bytes false 0 0))) ∧
    (∀ u, applyNext s place = some u → exec (.stampedWriteApply place) s = .next u) ∧
    (∀ r rest, k.dirQ = r :: rest → k.bcast = false → (k.ctx 9).st = .idle → k.dirReq = none → core < 96 →
      ∃ t, exec (.directoryOverflowRequest core) s = .next t ∧
        (t.core core).dirReq = some r ∧ (t.core core).dirQ = rest ∧ (t.ctx core 9).st = .live ∧
        (t.ctx core 9).pc = (k.dirPc.setWidth 48).signExtend 64 ∧
        (t.ctx core 9).sreg 1 = BitVec.ofNat 64 (r.reason * 2 ^ 62 + if r.reason = 1 then 0 else 2 ^ (r.sharer % 8)) ∧
        (t.ctx core 9).sreg 2 = BitVec.ofNat 64 (r.pid % 2 ^ 6 * 2 ^ 41 + r.vln % 2 ^ 41) ∧
        (t.ctx core 9).sreg 3 = BitVec.ofNat 64 r.slice) ∧
    (exec (.directoryConfigWrite core area w) s =
      .next (s.setCore core (if area then { k with dirArea := w &&& 0x8000_003F_001F_F000, bcast := false }
                             else { k with dirPc := w &&& 0x0000_FFFF_FFFF_FFFC, bcast := false })))

/-- N and W of the events of a class, corrected or not (R428, R480). -/
def Sys2Proof.Claims.threshold (cls : Nat) (uncorrectable : Bool) : Nat × Nat :=
  if cls = 1 then (if uncorrectable = true then 2 else 16, 2 ^ 30)
  else if cls = 2 then (if uncorrectable = true then 2 else 32, 2 ^ 30)
  else if cls ≤ 4 then (8, 2 ^ 30)
  else if cls = 5 then (if uncorrectable = true then 1 else 8, 2 ^ 34)
  else if cls ≤ 8 then (64, 2 ^ 20)
  else (1, 0)

/-- Whether a class has a unit of an index (R428, R480). -/
def Sys2Proof.Claims.UnitExists (cls index : Nat) : Prop :=
  ((cls = 1 ∨ cls = 2) ∧ index < 2 * 768) ∨
  (cls = 3 ∧ (index / 2 ^ 16 < 2 ∧ index / 2 ^ 8 % 2 ^ 8 < 96 ∨ index / 2 ^ 16 = 2 ∧ index / 2 ^ 8 % 2 ^ 8 < 16)) ∨
  (cls = 4 ∧ index / 2 ^ 16 < 2 ∧ index / 2 ^ 12 % 16 < 8) ∨ (cls = 5 ∧ index < 2 ^ 30) ∨ (cls = 6 ∧ index < 2 * 256) ∨
  (cls = 7 ∧ index < 16) ∨ (cls = 8 ∧ index < 8) ∨ (cls = 9 ∧ index < 2)

/-- What a lasting fault of a class leaves: a bank is retired, a way or a Tandem lane with its record of TYPE 4, a link loses width, one
that has lost too much of it goes down; a page and a sensor are recorded only (R428, R429, R480, R481; log 41). -/
def Sys2Proof.Claims.LastingLeaves (s t : State) (cls index : Nat) : Prop :=
  let kept : State := { s with retired := (cls, index) :: s.retired }
  let lost := (kept.retired.filter fun x => x.1 == cls).length
  let type4 : State := faultRecord kept 4 (BitVec.ofNat 64 (cls * 2 ^ 56 + index)) 0 0 0 0
  (cls = 1 → t = retireBank s index) ∧
  (cls = 2 ∨ cls = 3 ∨ cls = 4 → t = type4) ∧
  (cls = 5 ∨ cls = 9 → t = s) ∧
  (cls = 6 → t = kept) ∧
  (cls = 7 → (lost < 3 ∨ s.hostDown = true → t = kept) ∧ (3 ≤ lost → s.hostDown = false → exec (.linkDown 7) kept = .next t)) ∧
  (cls = 8 → (lostLanes type4 8 < 7 → t = type4) ∧ (7 ≤ lostLanes type4 8 → exec (.linkDown 8) type4 = .next t))

/-- What the loss of the Tandem link leaves (R481, R483): its record, READY.TANDEM clear until EN is written again, nothing of the peer's
that is not applied, what waited for the peer's counter applied; a command fault FLT_LINK for each incomplete COLL with SPAN 1, and the
rein lines of its group and of those that sent to the peer within 2,000 ticks, with the release of R56. -/
def Sys2Proof.Claims.tandemLost (s : State) : State :=
  let r := faultRecord s 2 (BitVec.ofNat 64 (8 * 2 ^ 56 + 0xFF)) 0 0 0 0
  let d : State := { r with tandemArmed := false, ready := r.ready &&& ~~~(0x40 : Word), peerMsgs := [], peerCtrl := [], peerColl := [],
                            flights := r.flights.filter fun d => d.origin != 3 && d.dst != 3 }
  let spanning (c : Cmd) : Bool := c.stage != .complete && (match c.op with
    | .coll _ _ _ span _ _ _ _ => span
    | _ => false)
  let failed := (List.range 96).foldl (fun t core => ((t.core core).cmds.filter spanning).foldl (fun t c =>
    let u := failCmd t core c { code := 0x0F, info := 2, acc := 0, addr := 0 } none
    reinLine u core [] (u.core core).pid c.group) t) (drainTo (drainDies d) 2)
  { (failed.peerSends.filter fun x => decide (failed.tick ≤ x.2.2 + 2000)).foldl (fun t x =>
      reinLine ((List.range 96).foldl (fun t core =>
        if (t.core core).pid = x.1 ∧ t.enabled core = true then asked (drain t core fun _ => true) else t) t) 0 [] x.1 x.2.1) failed with
    peerSends := [] }

/-- Power-up, readiness, measurement and quotes, the host's registers, power and temperature, errors, links, the peer's flits, and
the profiler. The oldest finished record of a core goes to its ring, a tile stamp's laid out with its times, and COUNT goes up by one;
a stamp that waits for its T5 stays, and one that STAMPBASE asks for no more only leaves. A sample that is due writes the counters
behind the records before it, where WIN does not suppress it, and starts them again. The model's choices: zeros of HBM at power-up
(log 1), the firmware's log entry (log 15), the tick and WSIZE flits of bring-up, the form of a peer's message and the stamp that its
write takes here (log 17), the readings of error events (log 41), and the old ring of a STAMPBASE written anew (log 43). An error event
that makes a fault lasting has its record and its action, any other is only counted; the loss of Tandem leaves what R483 says
(`tandemLost`) (R26, R114, R357, R368, R372, R374, R375, R377 to
R384, R393 to R399, R424, R428, R429, R480 to R487). -/
def Obligations.PlatformSteps : Prop :=
  ∀ (core bit off n m : Nat) (bytes : List Byte) (st : List Nat) (w : Word) (s : State),
    (∃ t, exec .powerUp s = .next t ∧ t.tick = 0 ∧ t.ready = 0 ∧ t.pad = [] ∧ t.coresen = s.coresen ∧
      (∀ a, a < 0x2000_0000_0000 → memGet t.phys a = 0) ∧
      ∀ c b, c < 96 → b < 16 → (t.bank c b).mode = if s.enabled c = false then 0 else if b < 3 then 4 else 1) ∧
    (mayBeReady s bit = true → s.ready.getLsbD bit = false → bit ≠ 7 → s.hostWait = [] →
      exec (.functionReady bit) s = .next { s with ready := s.ready ||| BitVec.ofNat 64 (2 ^ bit) }) ∧
    (mayBeReady s 7 = true → s.ready.getLsbD 7 = false →
      (firmwareGood = true → ∃ e, exec (.functionReady 7) s = .next { s with ready := s.ready ||| 0x80, attest := [e] } ∧
        e.length = 128 ∧ (e.drop 32).take 64 = natToBytes 64 (shake256 Config.firmwareImage).toNat) ∧
      (firmwareGood = false → exec (.functionReady 7) s = .next { s with failed := s.failed ||| 0x80 })) ∧
    (readyField bit = true → s.ready.getLsbD bit = false → s.hostWait = [] →
      exec (.functionFailed bit) s = .next { s with failed := s.failed ||| BitVec.ofNat 64 (2 ^ bit) }) ∧
    (exec (.mstart w) s =
      .next { s with meas := some (wfld w 53 48, BitVec.ofNat 64 (wfld w 47 0), []), measErr := s.meas.isSome, measFull := false }) ∧
    (∀ pid base bs, s.meas = some (pid, base, bs) →
      exec (.mdata bytes) s = .next { s with meas := some (pid, base, bs ++ bytes) } ∧
      (4096 ≤ s.attest.length → exec (.mend w) s = .next { s with meas := none, measFull := true }) ∧
      (s.attest.length < 4096 → ∃ e, exec (.mend w) s = .next { s with meas := none, attest := s.attest ++ [e] } ∧ e.length = 128 ∧
        (e.drop 32).take 64 = natToBytes 64 (shake256 (bs.take w.toNat)).toNat)) ∧
    (s.meas = none → exec (.mdata bytes) s = .next { s with measErr := true } ∧ exec (.mend w) s = .next { s with measErr := true }) ∧
    (bytes.length = 64 → exec (.qnonce bytes) s = .next { s with quote := some (bytes, s.attest.length) }) ∧
    (∀ nonce m, s.quote = some (nonce, m) →
      exec .quoteComplete s =
        .next { s with quote := none, signed := some (shake256 (nonce ++ (s.attest.take m).flatten)),
                       qstat := BitVec.ofNat 64 (2 ^ 63 + m % 2 ^ 32) }) ∧
    (exec (.stampbaseWrite core w) s = .next (stampConfig s core (w &&& 0xFFF0_3FFF_FFFF_F000))) ∧
    (∃ v, v = w &&& 0x80F0_3FFF_FFFF_F000 ∧
      exec (.fltringWrite w) s = .next (devStoreAll { s with fltRing := v } (wfld v 45 12 * 4096) 8 (List.replicate 8 0))) ∧
    (∀ v, v = w.toNat % 2 ^ 16 →
      (450 ≤ v → v ≤ 800 → v % 5 = 0 → exec (.powercapWrite w) s = .next { s with cap := v }) ∧
      (¬ (450 ≤ v ∧ v ≤ 800 ∧ v % 5 = 0) → exec (.powercapWrite w) s = .next s)) ∧
    (s.tandemCfg.getLsbD 63 = false →
      exec (.tandemcfgWrite w) s = .next { s with tandemCfg := w &&& 0xC000_3FFF_FFE0_0000, tandemArmed := w.getLsbD 63 }) ∧
    (s.tandemCfg.getLsbD 63 = true →
      (w.getLsbD 63 = true → exec (.tandemcfgWrite w) s = .next s) ∧
      (w.getLsbD 63 = false → s.tandemUp = false →
        exec (.tandemcfgWrite w) s = .next { s with tandemCfg := w &&& 0xC000_3FFF_FFE0_0000, tandemArmed := false })) ∧
    (∀ i, i < 64 →
      exec (.hostRegisterWrite (0x1000 + 8 * i) w) s =
        .next { s with clients := s.clients.setIfInBounds i (w &&& 0x0000_00FF_0000_00FF) } ∧
      exec (.hostRegisterWrite (0x1_4000 + 8 * i) w) s =
        .next { s with trapEnt := s.trapEnt.setIfInBounds i (w &&& 0x8000_FFFF_FFFF_FFFF) }) ∧
    (exec (.hostRegisterWrite 0x10 w) s = exec (.powercapWrite w) s ∧ exec (.hostRegisterWrite 0x30 w) s = exec (.fltringWrite w) s ∧
      exec (.hostRegisterWrite 0x2000 w) s = exec (.preempt w) s) ∧
    (s.cap < n → s.pwrTick + 1000 ≤ s.tick → (s.pwrP + 1 ≤ 9 → s.clkStep ≠ 9 →
      exec (.powerWindow n) s =
        .next { s with pwrP := s.pwrP + 1, pwrLow := 0, pwrHigh := 0, pwrTick := s.pwrTick + 1000,
                       clkStep := max (s.pwrP + 1) (if s.therm = 0 then 0 else if s.therm = 1 then 3 else 9) })) ∧
    (s.tick < s.pwrTick + 1000 → exec (.powerWindow n) s = .next s) ∧
    (n ≤ s.cap → s.cap ≤ n + 25 → s.pwrTick + 1000 ≤ s.tick →
      exec (.powerWindow n) s =
        .next { s with pwrLow := 0, pwrHigh := 0, pwrTick := s.pwrTick + 1000, clkStep := max s.pwrP (if s.therm = 0 then 0 else if s.therm = 1 then 3 else 9) }) ∧
    (s.tick < s.thermTick + 1000 → exec (.thermalSample ⟨n, m⟩) s = .next s) ∧
    (s.therm = 0 → n < 110 → m < 110 → s.thermTick + 1000 ≤ s.tick →
      let th := if max n m < 95 then 0 else if max n m < 105 then 1 else 2
      exec (.thermalSample ⟨n, m⟩) s =
        .next { s with therm := th, thermTick := s.thermTick + 1000, clkStep := max s.pwrP (if th = 0 then 0 else if th = 1 then 3 else 9) }) ∧
    (∀ e : ErrEvent,
      (¬ UnitExists e.cls e.index → exec (.errorEvent e) s = .next s) ∧
      (UnitExists e.cls e.index →
        let b := markBad s e.unit
        let u : State := { b with errors := (e.cls, e.index, e.uncorrectable, s.tick) :: s.errors }
        let events := (u.errors.filter fun x => decide (x.1 = e.cls ∧ x.2.1 = e.index ∧ x.2.2.1 = e.uncorrectable ∧
          u.tick ≤ x.2.2.2 + (threshold e.cls e.uncorrectable).2)).length
        let retired := e.cls ≠ 6 ∧ e.cls ≠ 7 ∧ (e.cls, e.index) ∈ b.retired
        (events ≠ (threshold e.cls e.uncorrectable).1 ∨ retired → exec (.errorEvent e) s = .next u) ∧
        (events = (threshold e.cls e.uncorrectable).1 → ¬ retired →
          ∃ t, exec (.errorEvent e) s = .next t ∧
            LastingLeaves (faultRecord u 2 (BitVec.ofNat 64 (e.cls * 2 ^ 56 + e.index)) 0 0 0 0) t e.cls e.index))) ∧
    (∀ pad bank o, pad < 96 → bank < 16 →
      let x := s.bank (bankAt pad bank).1 (bankAt pad bank).2
      let key := padKey (bankAt pad bank).1 (bankAt pad bank).2 (o / 8 * 8)
      (x.mode = 1 ∨ (x.mode = 3 ∧ x.count ≠ 0) → (markBad s (.pad pad bank o)).padBad = key :: s.padBad.filter (· != key)) ∧
      (x.mode ≠ 1 → x.mode ≠ 3 ∨ x.count = 0 → markBad s (.pad pad bank o) = s)) ∧
    (∀ pa, regionOf pa = .hbm →
      let r := tagRead s (pa / 128)
      (r.1 = 0 → (markBad s (.hbm pa)).hbmBad = pa / 32 * 32 :: r.2.hbmBad.filter (· != pa / 32 * 32)) ∧
      (r.1 = 1 → markBad s (.hbm pa) = r.2) ∧
      (2 ≤ r.1 → (markBad s (.hbm pa)).hbmBad = pa / 128 * 128 :: r.2.hbmBad.filter (· != pa / 128 * 128))) ∧
    (markBad s .corrected = s) ∧
    (s.tandemUp = true → exec (.linkDown 8) s = .next (tandemLost s)) ∧
    (s.tandemUp = false → exec (.linkDown 8) s = .next s) ∧
    (s.hostDown = true → exec (.linkDown 7) s = .next s) ∧
    (exec (.linkRetrainDone n) s = .next s) ∧
    (s.hostDown = false → exec (.linkDown 7) s = .next (hostLoss { faultRecord s 2 (BitVec.ofNat 64 (7 * 2 ^ 56 + 255)) 0 0 0 0 with
      ready := (faultRecord s 2 (BitVec.ofNat 64 (7 * 2 ^ 56 + 255)) 0 0 0 0).ready &&& ~~~(7 : Word) })) ∧
    (s.tandemCfg.getLsbD 63 = true → s.tandemArmed = true → s.tandemUp = false → s.ready.getLsbD 7 = true →
      s.failed.getLsbD 6 = false → lostLanes s 8 < 7 → n ≤ 286 →
      let size := wfld s.tandemCfg 29 21
      let u := { restartPlace3 s with ready := s.ready ||| 0x40, peerSize := n }
      (s.tandemCfg.getLsbD 62 = false →
        (w.toNat ≤ s.tick → exec (.tandemBringUp n w) s =
          .next { u with peerOut := s.peerOut ++ [.size size, .tick (BitVec.ofNat 64 s.tick)] }) ∧
        (s.tick < w.toNat → exec (.tandemBringUp n w) s = .next s)) ∧
      (s.tandemCfg.getLsbD 62 = true →
        (s.tick ≤ w.toNat → exec (.tandemBringUp n w) s =
          .next { u with tick := w.toNat, tickWait := 0, peerOut := s.peerOut ++ [.size size] }) ∧
        (w.toNat < s.tick → exec (.tandemBringUp n w) s = .next { s with tickWait := s.tick - w.toNat }))) ∧
    (∀ pa, pa = wfld s.tandemCfg 45 30 * 2 ^ 30 + off → s.tandemUp = true → bytes ≠ [] → off % 64 + bytes.length ≤ 64 →
      off + bytes.length ≤ wfld s.tandemCfg 29 21 * 2 ^ 30 → pa + bytes.length ≤ 0x47_B800_0000 →
      exec (.tandemWriteFlit off bytes st) s = .next (deliverPeer (peerWriteLine s st pa bytes))) ∧
    (s.tandemUp = true → bytes.length = 64 * (1 + wfld (word8 bytes 0) 3 2) → wfld (word8 bytes 0) 1 0 < 3 →
      exec (.tandemMsgFlit ⟨off, n, m⟩ bytes) s = .next (deliverPeer { s with peerMsgs := s.peerMsgs ++ [peerMsg off n m bytes] })) ∧
    (∀ f, s.tandemUp = true → f.last = false → exec (.tandemCollFlit f) s = .next { s with peerColl := s.peerColl ++ [f] }) ∧
    (s.tandemUp = true → s.peerCtrl = [] → (∀ d ∈ s.flights, ¬ (d.origin = 3 ∧ d.dst < 2 ∧ d.line.isNone = true)) →
      (∀ pid group, exec (.tandemCtrlFlit (.rein pid group)) s = .next (raiseRein s pid group)) ∧
      (s.tandemCfg.getLsbD 62 = true →
        (s.tick ≤ w.toNat → exec (.tandemCtrlFlit (.tick w)) s = .next { s with tick := w.toNat, tickWait := 0 }) ∧
        (w.toNat < s.tick → exec (.tandemCtrlFlit (.tick w)) s = .next { s with tickWait := s.tick - w.toNat }))) ∧
    (core < 96 →
      let k := s.core core
      let base := k.stampBase
      (∀ x xs, k.stamps = x :: xs →
        let u := s.setCore core { k with stamps := xs }
        (∀ w0 w1 w2 w3, x = .words w0 w1 w2 w3 →
          exec (.stampRecordWrite core) s = .next (if base.getLsbD 63 then ringRecord u core w0 w1 w2 w3 else u)) ∧
        (∀ t, x = .tile t →
          (t.t5 = none → exec (.stampRecordWrite core) s = .next s) ∧
          (∀ t5, t.t5 = some t5 →
            (base.getLsbD 63 = true → base.getLsbD 62 = true → (base.getLsbD 60 = true → t.win = true) →
              exec (.stampRecordWrite core) s = .next (ringRecord u core (t.t1 % 2 ^ 56)
                (tickWord t.t2 t.t1 * 2 ^ 32 + tickWord t.t3 t.t1) (tickWord t.t4 t.t1 * 2 ^ 32 + tickWord t5 t.t1)
                (t.pid % 2 ^ 6 * 2 ^ 58 + t.major % 2 ^ 6 * 2 ^ 52 + t.minor % 2 ^ 4 * 2 ^ 48 + (if t.disc then 2 ^ 46 else 0) +
                  wfld t.pc 47 2))) ∧
            (base.getLsbD 62 = false ∨ (base.getLsbD 60 = true ∧ t.win = false) →
              exec (.stampRecordWrite core) s = .next u)))) ∧
      (base.getLsbD 61 = true → s.tick % 2 ^ (10 + wfld base 59 56) = 0 → k.sampleAt ≠ some s.tick →
        let u := s.setCore core { k with ev := Vector.replicate 6 0, sampleAt := some s.tick }
        (base.getLsbD 60 = true → s.openCount = 0 → exec (.counterSample core) s = .next u) ∧
        (base.getLsbD 63 = false → exec (.counterSample core) s = .next u) ∧
        (base.getLsbD 60 = false ∨ s.openCount ≠ 0 → base.getLsbD 63 = true → k.stamps = [] →
          let e (i : Nat) : Nat := vget k.ev i 0
          let v := ringRecord (u.setCore core { u.core core with stamps := [.words (2 ^ 57 + s.tick % 2 ^ 56) (e 0 * 2 ^ 32 + e 1)
            (e 2 * 2 ^ 32 + e 3) (e 4 * 2 ^ 32 + e 5)] }) core (2 ^ 57 + s.tick % 2 ^ 56) (e 0 * 2 ^ 32 + e 1) (e 2 * 2 ^ 32 + e 3)
            (e 4 * 2 ^ 32 + e 5)
          exec (.counterSample core) s = .next (v.setCore core { v.core core with stamps := [] }))))

/-- The debugger: stops at a tick far enough ahead, goes on, reports, streams, reads and writes registers and memory, and sets
breakpoints; a pair's stop and a breakpoint's are sent to the peer; a command that names nothing it may name is refused and does
nothing else. A register write squashes its context's unretired instruction, and PEND tells of a writer of the register that has not
retired: a pending write record, a guard's, a load that waits on a queue, an MRECV that waits or has its value, and for a latch a load,
a JOIN or a TCWAIT that reads its field from a register. A memory command at an address that R21 leaves unmapped or R134 keeps for the
controllers fails its translation. The readings of log 40 are the model's: latch NUM 0 and 1, a written branch target valid with its
context's tags, the first 64 bits of a SCAN in its response, and STATUS 0x05 at such an address
(R21, R79, R83, R134, R386 to R392, R488, R489). -/
def Obligations.DebuggerSteps : Prop :=
  ∀ (c : DbgCmd) (core slot : Nat) (s : State),
    (CleanCmd c 1 →
      (c.pair = s.tandemUp → s.tick + (if c.pair then 4096 else 1024) ≤ c.addr.toNat → s.dbg.stopReq = none →
        exec (.stop c) s = .next (answered { s with dbg := { s.dbg with stopReq := some c.addr.toNat, byBp := false },
                                                    peerOut := if c.pair then s.peerOut ++ [.stop c.addr.toNat] else s.peerOut } 0 0 false)) ∧
      (c.pair = s.tandemUp → c.addr.toNat < s.tick + (if c.pair then 4096 else 1024) → exec (.stop c) s = .next (answered s 2 0 false)) ∧
      (s.tandemUp = true → c.pair = false → exec (.stop c) s = .next (answered s 3 0 false)) ∧
      (s.tandemUp = false → c.pair = true → exec (.stop c) s = .next (answered s 7 0 false))) ∧
    (∀ t, s.dbg.stopReq = some t → t ≤ s.tick →
      exec .stopTickReached s = .next { s with dbg := { s.dbg with stopped := true, stopTick := t, stopReq := none } }) ∧
    (CleanCmd c 2 → s.dbg.stopped = true →
      exec (.debugResume c) s =
        .next (answered { s with dbg := { s.dbg with stopped := false, byBp := false, pastBp := s.dbg.atBp, atBp := [] } } 0 0 false)) ∧
    (CleanCmd c 3 → ∃ v, exec (.stat c) s = .next (answered s 0 v false) ∧ v.getLsbD 63 = s.dbg.stopped ∧
      (s.dbg.byBp = false → v.getLsbD 62 = false ∧ wfld v 50 0 = s.dbg.stopTick % 2 ^ 51)) ∧
    (CleanCmd c 4 → s.enabled c.pcore = true →
      (s.dbg.stopped = false → exec (.scan c) s = .next (answered s 1 0 false)) ∧
      (s.dbg.stopped = true → tileUe (s.core c.pcore) c.pcore = none →
        let t := answered { s with fresh := s.fresh + 0x7_0000 } 0 (word8 ((scanBytes s c.pcore).take 8) 0) false
        exec (.scan c) s = .next { t with dbg := { t.dbg with stream := scanBytes s c.pcore } })) ∧
    (NamesRegister s c → s.dbg.stopped = true →
      let k := s.core c.pcore
      let x := s.ctx c.pcore c.slot
      ∃ p v, (p = true ↔ (c.fam = 0 ∧ ∃ y ∈ x.pend, y.isVec = false ∧ y.reg = c.num) ∨ (c.fam = 2 ∧ vget x.gres c.num true = false) ∨
          openDest s c.pcore c.slot = some (c.fam, c.num) ∨ (c.fam = 5 ∧ openLatch s c.pcore c.slot c.num = true)) ∧
        (c.fam = 0 → v = x.sreg c.num) ∧ (c.fam = 1 → v = (vget x.b c.num BTarget.clear).addr) ∧
        (c.fam = 2 → v = if vget x.g c.num false then 1 else 0) ∧ (c.fam = 3 → v = vget k.m c.num 0) ∧
        (∀ y, c.fam = 4 → vget k.tiles c.num none = some y →
          v = BitVec.ofNat 64 (elt 64 y.rows (wfld c.addr 13 3 / 32) (wfld c.addr 13 3 % 32))) ∧
        (c.fam = 5 → v = if c.num = 0 then x.la else x.lb) ∧
        (CleanCmd c 5 → debugUe s c = none → exec (.rdreg c) s = .next (answered { s with fresh := s.fresh + 8 } 0 v p)) ∧
        (CleanCmd c 6 →
          let u := squashed s c.pcore c.slot
          let k := u.core c.pcore
          let x := u.ctx c.pcore c.slot
          (c.fam = 0 → c.num ≠ 0 → exec (.wrreg c) s =
            .next (answered (u.setCtx c.pcore c.slot { x with s := x.s.setIfInBounds c.num c.value,
                                                               sw := x.sw.setIfInBounds c.num x.now }) 0 0 p)) ∧
          (c.fam = 0 → c.num = 0 → exec (.wrreg c) s = .next (answered (u.setCtx c.pcore c.slot x) 0 0 p)) ∧
          (c.fam = 1 → exec (.wrreg c) s =
            .next (answered (u.setCtx c.pcore c.slot { x with b := x.b.setIfInBounds c.num ⟨c.value, true, c.slot, x.major, x.minor, none⟩ })
              0 0 p)) ∧
          (c.fam = 2 → vget x.gres c.num true = false → exec (.wrreg c) s = .next (answered (u.setCtx c.pcore c.slot x) 0 0 p)) ∧
          (c.fam = 2 → vget x.gres c.num true = true → exec (.wrreg c) s =
            .next (answered (u.setCtx c.pcore c.slot { x with g := x.g.setIfInBounds c.num (c.value.getLsbD 0) }) 0 0 p)) ∧
          (c.fam = 3 → exec (.wrreg c) s =
            .next (answered (u.setCore c.pcore { k with m := k.m.setIfInBounds c.num c.value }) 0 0 p)) ∧
          (∀ y, c.fam = 4 → vget k.tiles c.num none = some y → exec (.wrreg c) s =
            .next (answered (u.setCore c.pcore { k with tiles := k.tiles.setIfInBounds c.num (some (tileSetWord y (wfld c.addr 13 3) c.value)) })
              0 0 p)) ∧
          (c.fam = 5 → exec (.wrreg c) s =
            .next (answered (u.setCtx c.pcore c.slot { x with la := if c.num = 0 then c.value else x.la,
                                                              lb := if c.num = 0 then x.lb else c.value }) 0 0 p)))) ∧
    (let x := s.ctx core slot
     let isOp (w major minor : Nat) : Prop := w / 2 ^ 2 % 2 ^ 6 = major ∧ w / 2 ^ 26 % 2 ^ 6 = minor
     let fieldA (w : Nat) : Prop := w / 2 ^ 14 % 2 ^ 6 ≠ 0x30 ∧ w / 2 ^ 14 % 2 ^ 6 ≠ 0x31
     (x.stall = none → x.wait = .none → openDest s core slot = none ∧ ∀ n, openLatch s core slot n = false) ∧
     (∀ n w t, x.stall = none → x.wait = .mrecv n → fetchWord s core slot x.pc = .ok [w] t → isOp w 0x2D 0 →
       openDest s core slot = some (0, w / 2 ^ 20 % 2 ^ 6) ∧ ∀ m, openLatch s core slot m = false) ∧
     (∀ a tc n w t, x.stall = none → fetchWord s core slot x.pc = .ok [w] t → fieldA w →
       (x.wait = .tcwait tc n ∧ isOp w 0x2C 0) ∨ ((x.wait = .join a ∨ x.wait = .joined a) ∧ isOp w 0x2D 2) →
       openDest s core slot = none ∧ openLatch s core slot 0 = true ∧ openLatch s core slot 1 = false) ∧
     (∀ w ws t u i m, x.stall ≠ none → fetchWord s core slot x.pc = .ok w t → fetchWords s core slot x.pc (lenOf (wordsToNat w)) = .ok ws u →
       decodeIn queueRows (slot != 15) (wordsToNat ws) = .ok i m →
       openDest s core slot = loadDest i ∧ (fieldA (wordsToNat w) → openLatch s core slot 0 = true))) ∧
    (c.rsv ≠ 0 → ∀ i ∈ [Instr.stop c, .debugResume c, .stat c, .scan c, .rdreg c, .wrreg c, .rdmem c, .wrmem c, .tickset c, .setbp c,
        .clrbp c], exec i s = .next (answered s 4 0 false)) ∧
    (c.addr.toNat % 8 = 0 → c.phys = true → regionOf c.addr.toNat = .metadata ∨ regionOf c.addr.toNat = .hole →
      (CleanCmd c 7 → exec (.rdmem c) s = .next (answered s 5 0 false)) ∧
      (CleanCmd c 8 → s.dbg.stopped = true → exec (.wrmem c) s = .next (answered s 5 0 false))) ∧
    (CleanCmd c 7 → c.addr.toNat % 8 = 0 → c.phys = true → c.addr.toNat < 0x47_B800_0000 →
      ∀ bs u, physLoad s c.addr.toNat 8 = .ok bs u →
      exec (.rdmem c) s = .next (answered u 0 (bytesWord bs) false)) ∧
    (CleanCmd c 8 → c.addr.toNat % 8 = 0 → c.phys = true → c.addr.toNat < 0x47_B800_0000 →
      (s.dbg.stopped = true → exec (.wrmem c) s =
        .next (answered (debugStore s (.phys c.addr.toNat) (wordBytes 8 c.value)) 0 0 false)) ∧
      (s.dbg.stopped = false → (∀ t, s.dbg.tickSet = some t → t.toNat < s.tick + 1024) →
        exec (.wrmem c) s = .next (answered s 8 0 false)) ∧
      (s.dbg.stopped = false → ∀ t, s.dbg.tickSet = some t → s.tick + 1024 ≤ t.toNat →
        exec (.wrmem c) s = .next (answered { s with dbg := { s.dbg with
          writes := s.dbg.writes ++ [(t.toNat, .phys c.addr.toNat, wordBytes 8 c.value)], tickSet := none } } 0 0 false))) ∧
    (∀ t d bs rest, s.dbg.stopped = false → s.dbg.writes = (t, d, bs) :: rest → t ≤ s.tick →
      exec .debuggerWriteApply s = .next (debugStore { s with dbg := { s.dbg with writes := rest } } d bs)) ∧
    (CleanCmd c 9 → exec (.tickset c) s = .next (answered { s with dbg := { s.dbg with tickSet := some c.value } } 0 0 false)) ∧
    (s.enabled c.pcore = true → c.num < 4 →
      let k := s.core c.pcore
      (CleanCmd c 0x0A → exec (.setbp c) s =
        .next (answered (s.setCore c.pcore { k with bps := k.bps.setIfInBounds c.num (some (c.pid, c.addr)) }) 0 0 false)) ∧
      (CleanCmd c 0x0B → exec (.clrbp c) s =
        .next (answered (s.setCore c.pcore { k with bps := k.bps.setIfInBounds c.num none }) 0 0 false))) ∧
    (atBreak s core slot = true → s.dbg.atBp.contains (core, slot) = false → s.dbg.stopReq = none →
      exec (.breakpointMatch core slot) s =
        .next { s with dbg := { s.dbg with atBp := (core, slot) :: s.dbg.atBp, stopReq := some (s.tick + 256), byBp := true,
                                           bpCore := core, bpSlot := slot },
                       peerOut := if s.tandemUp && !s.peerOut.contains (.stop (s.tick + 256)) then s.peerOut ++ [.stop (s.tick + 256)]
                                  else s.peerOut })
end

