-- ==== Sys2Proof/Laws/State.lean ====
section
/-! SUPPORT. What each update of the state leaves: one lemma per field and update, and the readings of a part after an update of
the same or another part. Cite these in place of unfolding a record update. -/

namespace Sys2Proof.Machine

/-! ### Fixed arrays -/

theorem vget_set {α : Type} {n : Nat} (v : Vector α n) (i j : Nat) (x d : α) :
    vget (v.setIfInBounds i x) j d = if i = j ∧ i < n then x else vget v j d := by
  unfold vget
  rw [Vector.getElem?_setIfInBounds]
  by_cases e : i = j
  · subst e
    by_cases h : i < n <;> simp [h]
  · simp [e]

@[simp] theorem vget_set_same {α : Type} {n : Nat} (v : Vector α n) (i : Nat) (x d : α) (h : i < n) :
    vget (v.setIfInBounds i x) i d = x := by simp [vget_set, h]

theorem vget_set_other {α : Type} {n : Nat} (v : Vector α n) (i j : Nat) (x d : α) (h : i ≠ j) :
    vget (v.setIfInBounds i x) j d = vget v j d := by simp [vget_set, h]

/-! ### Fields of the state that an update of a core leaves -/

@[simp] theorem State.setCore_turns (s : State) (c : Nat) (k : Core) : (s.setCore c k).turns = s.turns := rfl
@[simp] theorem State.setCore_curCore (s : State) (c : Nat) (k : Core) : (s.setCore c k).curCore = s.curCore := rfl
@[simp] theorem State.setCore_curSlot (s : State) (c : Nat) (k : Core) : (s.setCore c k).curSlot = s.curSlot := rfl
@[simp] theorem State.setCore_fresh (s : State) (c : Nat) (k : Core) : (s.setCore c k).fresh = s.fresh := rfl
@[simp] theorem State.setCore_coresen (s : State) (c : Nat) (k : Core) : (s.setCore c k).coresen = s.coresen := rfl
@[simp] theorem State.setCore_tick (s : State) (c : Nat) (k : Core) : (s.setCore c k).tick = s.tick := rfl
@[simp] theorem State.setCore_tickWait (s : State) (c : Nat) (k : Core) : (s.setCore c k).tickWait = s.tickWait := rfl
@[simp] theorem State.setCore_pad (s : State) (c : Nat) (k : Core) : (s.setCore c k).pad = s.pad := rfl
@[simp] theorem State.setCore_padBad (s : State) (c : Nat) (k : Core) : (s.setCore c k).padBad = s.padBad := rfl
@[simp] theorem State.setCore_phys (s : State) (c : Nat) (k : Core) : (s.setCore c k).phys = s.phys := rfl
@[simp] theorem State.setCore_hbmBad (s : State) (c : Nat) (k : Core) : (s.setCore c k).hbmBad = s.hbmBad := rfl
@[simp] theorem State.setCore_tagBad (s : State) (c : Nat) (k : Core) : (s.setCore c k).tagBad = s.tagBad := rfl
@[simp] theorem State.setCore_wordGood (s : State) (c : Nat) (k : Core) : (s.setCore c k).wordGood = s.wordGood := rfl
@[simp] theorem State.setCore_l2 (s : State) (c : Nat) (k : Core) : (s.setCore c k).l2 = s.l2 := rfl
@[simp] theorem State.setCore_pcache (s : State) (c : Nat) (k : Core) : (s.setCore c k).pcache = s.pcache := rfl
@[simp] theorem State.setCore_tlb (s : State) (c : Nat) (k : Core) : (s.setCore c k).tlb = s.tlb := rfl
@[simp] theorem State.setCore_metas (s : State) (c : Nat) (k : Core) : (s.setCore c k).metas = s.metas := rfl
@[simp] theorem State.setCore_vecs (s : State) (c : Nat) (k : Core) : (s.setCore c k).vecs = s.vecs := rfl
@[simp] theorem State.setCore_flights (s : State) (c : Nat) (k : Core) : (s.setCore c k).flights = s.flights := rfl
@[simp] theorem State.setCore_stamps (s : State) (c : Nat) (k : Core) : (s.setCore c k).stamps = s.stamps := rfl
@[simp] theorem State.setCore_hostLines (s : State) (c : Nat) (k : Core) : (s.setCore c k).hostLines = s.hostLines := rfl
@[simp] theorem State.setCore_bisnp (s : State) (c : Nat) (k : Core) : (s.setCore c k).bisnp = s.bisnp := rfl
@[simp] theorem State.setCore_collected (s : State) (c : Nat) (k : Core) : (s.setCore c k).collected = s.collected := rfl
@[simp] theorem State.setCore_devQ (s : State) (c : Nat) (k : Core) : (s.setCore c k).devQ = s.devQ := rfl
@[simp] theorem State.setCore_hostData (s : State) (c : Nat) (k : Core) : (s.setCore c k).hostData = s.hostData := rfl
@[simp] theorem State.setCore_reins (s : State) (c : Nat) (k : Core) : (s.setCore c k).reins = s.reins := rfl
@[simp] theorem State.setCore_stoppedGroups (s : State) (c : Nat) (k : Core) : (s.setCore c k).stoppedGroups = s.stoppedGroups := rfl
@[simp] theorem State.setCore_saved (s : State) (c : Nat) (k : Core) : (s.setCore c k).saved = s.saved := rfl
@[simp] theorem State.setCore_collSeq (s : State) (c : Nat) (k : Core) : (s.setCore c k).collSeq = s.collSeq := rfl
@[simp] theorem State.setCore_ready (s : State) (c : Nat) (k : Core) : (s.setCore c k).ready = s.ready := rfl
@[simp] theorem State.setCore_failed (s : State) (c : Nat) (k : Core) : (s.setCore c k).failed = s.failed := rfl
@[simp] theorem State.setCore_clients (s : State) (c : Nat) (k : Core) : (s.setCore c k).clients = s.clients := rfl
@[simp] theorem State.setCore_apBase (s : State) (c : Nat) (k : Core) : (s.setCore c k).apBase = s.apBase := rfl
@[simp] theorem State.setCore_trapEnt (s : State) (c : Nat) (k : Core) : (s.setCore c k).trapEnt = s.trapEnt := rfl
@[simp] theorem State.setCore_versions (s : State) (c : Nat) (k : Core) : (s.setCore c k).versions = s.versions := rfl
@[simp] theorem State.setCore_ctlRes (s : State) (c : Nat) (k : Core) : (s.setCore c k).ctlRes = s.ctlRes := rfl
@[simp] theorem State.setCore_resumeReqs (s : State) (c : Nat) (k : Core) : (s.setCore c k).resumeReqs = s.resumeReqs := rfl
@[simp] theorem State.setCore_spillWrote (s : State) (c : Nat) (k : Core) : (s.setCore c k).spillWrote = s.spillWrote := rfl
@[simp] theorem State.setCore_fltRing (s : State) (c : Nat) (k : Core) : (s.setCore c k).fltRing = s.fltRing := rfl
@[simp] theorem State.setCore_spillQ (s : State) (c : Nat) (k : Core) : (s.setCore c k).spillQ = s.spillQ := rfl
@[simp] theorem State.setCore_procBase (s : State) (c : Nat) (k : Core) : (s.setCore c k).procBase = s.procBase := rfl
@[simp] theorem State.setCore_ptBase (s : State) (c : Nat) (k : Core) : (s.setCore c k).ptBase = s.ptBase := rfl
@[simp] theorem State.setCore_aliasTab (s : State) (c : Nat) (k : Core) : (s.setCore c k).aliasTab = s.aliasTab := rfl
@[simp] theorem State.setCore_cap (s : State) (c : Nat) (k : Core) : (s.setCore c k).cap = s.cap := rfl
@[simp] theorem State.setCore_clkStep (s : State) (c : Nat) (k : Core) : (s.setCore c k).clkStep = s.clkStep := rfl
@[simp] theorem State.setCore_therm (s : State) (c : Nat) (k : Core) : (s.setCore c k).therm = s.therm := rfl
@[simp] theorem State.setCore_pwrP (s : State) (c : Nat) (k : Core) : (s.setCore c k).pwrP = s.pwrP := rfl
@[simp] theorem State.setCore_pwrLow (s : State) (c : Nat) (k : Core) : (s.setCore c k).pwrLow = s.pwrLow := rfl
@[simp] theorem State.setCore_pwrHigh (s : State) (c : Nat) (k : Core) : (s.setCore c k).pwrHigh = s.pwrHigh := rfl
@[simp] theorem State.setCore_pwrTick (s : State) (c : Nat) (k : Core) : (s.setCore c k).pwrTick = s.pwrTick := rfl
@[simp] theorem State.setCore_thermTick (s : State) (c : Nat) (k : Core) : (s.setCore c k).thermTick = s.thermTick := rfl
@[simp] theorem State.setCore_hostWait (s : State) (c : Nat) (k : Core) : (s.setCore c k).hostWait = s.hostWait := rfl
@[simp] theorem State.setCore_cxlOpen (s : State) (c : Nat) (k : Core) : (s.setCore c k).cxlOpen = s.cxlOpen := rfl
@[simp] theorem State.setCore_cxlDone (s : State) (c : Nat) (k : Core) : (s.setCore c k).cxlDone = s.cxlDone := rfl
@[simp] theorem State.setCore_meas (s : State) (c : Nat) (k : Core) : (s.setCore c k).meas = s.meas := rfl
@[simp] theorem State.setCore_measErr (s : State) (c : Nat) (k : Core) : (s.setCore c k).measErr = s.measErr := rfl
@[simp] theorem State.setCore_measFull (s : State) (c : Nat) (k : Core) : (s.setCore c k).measFull = s.measFull := rfl
@[simp] theorem State.setCore_attest (s : State) (c : Nat) (k : Core) : (s.setCore c k).attest = s.attest := rfl
@[simp] theorem State.setCore_quote (s : State) (c : Nat) (k : Core) : (s.setCore c k).quote = s.quote := rfl
@[simp] theorem State.setCore_qstat (s : State) (c : Nat) (k : Core) : (s.setCore c k).qstat = s.qstat := rfl
@[simp] theorem State.setCore_signed (s : State) (c : Nat) (k : Core) : (s.setCore c k).signed = s.signed := rfl
@[simp] theorem State.setCore_openCount (s : State) (c : Nat) (k : Core) : (s.setCore c k).openCount = s.openCount := rfl
@[simp] theorem State.setCore_dbg (s : State) (c : Nat) (k : Core) : (s.setCore c k).dbg = s.dbg := rfl
@[simp] theorem State.setCore_halted (s : State) (c : Nat) (k : Core) : (s.setCore c k).halted = s.halted := rfl
@[simp] theorem State.setCore_errors (s : State) (c : Nat) (k : Core) : (s.setCore c k).errors = s.errors := rfl
@[simp] theorem State.setCore_cxlioErrs (s : State) (c : Nat) (k : Core) : (s.setCore c k).cxlioErrs = s.cxlioErrs := rfl
@[simp] theorem State.setCore_retired (s : State) (c : Nat) (k : Core) : (s.setCore c k).retired = s.retired := rfl
@[simp] theorem State.setCore_tandemCfg (s : State) (c : Nat) (k : Core) : (s.setCore c k).tandemCfg = s.tandemCfg := rfl
@[simp] theorem State.setCore_hostDown (s : State) (c : Nat) (k : Core) : (s.setCore c k).hostDown = s.hostDown := rfl
@[simp] theorem State.setCore_peerSize (s : State) (c : Nat) (k : Core) : (s.setCore c k).peerSize = s.peerSize := rfl
@[simp] theorem State.setCore_peerOut (s : State) (c : Nat) (k : Core) : (s.setCore c k).peerOut = s.peerOut := rfl
@[simp] theorem State.setCore_peerMsgs (s : State) (c : Nat) (k : Core) : (s.setCore c k).peerMsgs = s.peerMsgs := rfl
@[simp] theorem State.setCore_peerCtrl (s : State) (c : Nat) (k : Core) : (s.setCore c k).peerCtrl = s.peerCtrl := rfl
@[simp] theorem State.setCore_peerColl (s : State) (c : Nat) (k : Core) : (s.setCore c k).peerColl = s.peerColl := rfl
@[simp] theorem State.setCore_peerSends (s : State) (c : Nat) (k : Core) : (s.setCore c k).peerSends = s.peerSends := rfl
@[simp] theorem State.setCore_discardTick (s : State) (c : Nat) (k : Core) : (s.setCore c k).discardTick = s.discardTick := rfl
@[simp] theorem State.setCore_tandemArmed (s : State) (c : Nat) (k : Core) : (s.setCore c k).tandemArmed = s.tandemArmed := rfl

@[simp] theorem State.setMe_turns (s : State) (k : Core) : (s.setMe k).turns = s.turns := rfl
@[simp] theorem State.setMe_curCore (s : State) (k : Core) : (s.setMe k).curCore = s.curCore := rfl
@[simp] theorem State.setMe_curSlot (s : State) (k : Core) : (s.setMe k).curSlot = s.curSlot := rfl
@[simp] theorem State.setMe_fresh (s : State) (k : Core) : (s.setMe k).fresh = s.fresh := rfl
@[simp] theorem State.setMe_coresen (s : State) (k : Core) : (s.setMe k).coresen = s.coresen := rfl
@[simp] theorem State.setMe_tick (s : State) (k : Core) : (s.setMe k).tick = s.tick := rfl
@[simp] theorem State.setMe_tickWait (s : State) (k : Core) : (s.setMe k).tickWait = s.tickWait := rfl
@[simp] theorem State.setMe_pad (s : State) (k : Core) : (s.setMe k).pad = s.pad := rfl
@[simp] theorem State.setMe_padBad (s : State) (k : Core) : (s.setMe k).padBad = s.padBad := rfl
@[simp] theorem State.setMe_phys (s : State) (k : Core) : (s.setMe k).phys = s.phys := rfl
@[simp] theorem State.setMe_hbmBad (s : State) (k : Core) : (s.setMe k).hbmBad = s.hbmBad := rfl
@[simp] theorem State.setMe_tagBad (s : State) (k : Core) : (s.setMe k).tagBad = s.tagBad := rfl
@[simp] theorem State.setMe_wordGood (s : State) (k : Core) : (s.setMe k).wordGood = s.wordGood := rfl
@[simp] theorem State.setMe_l2 (s : State) (k : Core) : (s.setMe k).l2 = s.l2 := rfl
@[simp] theorem State.setMe_pcache (s : State) (k : Core) : (s.setMe k).pcache = s.pcache := rfl
@[simp] theorem State.setMe_tlb (s : State) (k : Core) : (s.setMe k).tlb = s.tlb := rfl
@[simp] theorem State.setMe_metas (s : State) (k : Core) : (s.setMe k).metas = s.metas := rfl
@[simp] theorem State.setMe_vecs (s : State) (k : Core) : (s.setMe k).vecs = s.vecs := rfl
@[simp] theorem State.setMe_flights (s : State) (k : Core) : (s.setMe k).flights = s.flights := rfl
@[simp] theorem State.setMe_stamps (s : State) (k : Core) : (s.setMe k).stamps = s.stamps := rfl
@[simp] theorem State.setMe_hostLines (s : State) (k : Core) : (s.setMe k).hostLines = s.hostLines := rfl
@[simp] theorem State.setMe_bisnp (s : State) (k : Core) : (s.setMe k).bisnp = s.bisnp := rfl
@[simp] theorem State.setMe_collected (s : State) (k : Core) : (s.setMe k).collected = s.collected := rfl
@[simp] theorem State.setMe_devQ (s : State) (k : Core) : (s.setMe k).devQ = s.devQ := rfl
@[simp] theorem State.setMe_hostData (s : State) (k : Core) : (s.setMe k).hostData = s.hostData := rfl
@[simp] theorem State.setMe_reins (s : State) (k : Core) : (s.setMe k).reins = s.reins := rfl
@[simp] theorem State.setMe_stoppedGroups (s : State) (k : Core) : (s.setMe k).stoppedGroups = s.stoppedGroups := rfl
@[simp] theorem State.setMe_saved (s : State) (k : Core) : (s.setMe k).saved = s.saved := rfl
@[simp] theorem State.setMe_collSeq (s : State) (k : Core) : (s.setMe k).collSeq = s.collSeq := rfl
@[simp] theorem State.setMe_ready (s : State) (k : Core) : (s.setMe k).ready = s.ready := rfl
@[simp] theorem State.setMe_failed (s : State) (k : Core) : (s.setMe k).failed = s.failed := rfl
@[simp] theorem State.setMe_clients (s : State) (k : Core) : (s.setMe k).clients = s.clients := rfl
@[simp] theorem State.setMe_apBase (s : State) (k : Core) : (s.setMe k).apBase = s.apBase := rfl
@[simp] theorem State.setMe_trapEnt (s : State) (k : Core) : (s.setMe k).trapEnt = s.trapEnt := rfl
@[simp] theorem State.setMe_versions (s : State) (k : Core) : (s.setMe k).versions = s.versions := rfl
@[simp] theorem State.setMe_ctlRes (s : State) (k : Core) : (s.setMe k).ctlRes = s.ctlRes := rfl
@[simp] theorem State.setMe_resumeReqs (s : State) (k : Core) : (s.setMe k).resumeReqs = s.resumeReqs := rfl
@[simp] theorem State.setMe_spillWrote (s : State) (k : Core) : (s.setMe k).spillWrote = s.spillWrote := rfl
@[simp] theorem State.setMe_fltRing (s : State) (k : Core) : (s.setMe k).fltRing = s.fltRing := rfl
@[simp] theorem State.setMe_spillQ (s : State) (k : Core) : (s.setMe k).spillQ = s.spillQ := rfl
@[simp] theorem State.setMe_procBase (s : State) (k : Core) : (s.setMe k).procBase = s.procBase := rfl
@[simp] theorem State.setMe_ptBase (s : State) (k : Core) : (s.setMe k).ptBase = s.ptBase := rfl
@[simp] theorem State.setMe_aliasTab (s : State) (k : Core) : (s.setMe k).aliasTab = s.aliasTab := rfl
@[simp] theorem State.setMe_cap (s : State) (k : Core) : (s.setMe k).cap = s.cap := rfl
@[simp] theorem State.setMe_clkStep (s : State) (k : Core) : (s.setMe k).clkStep = s.clkStep := rfl
@[simp] theorem State.setMe_therm (s : State) (k : Core) : (s.setMe k).therm = s.therm := rfl
@[simp] theorem State.setMe_pwrP (s : State) (k : Core) : (s.setMe k).pwrP = s.pwrP := rfl
@[simp] theorem State.setMe_pwrLow (s : State) (k : Core) : (s.setMe k).pwrLow = s.pwrLow := rfl
@[simp] theorem State.setMe_pwrHigh (s : State) (k : Core) : (s.setMe k).pwrHigh = s.pwrHigh := rfl
@[simp] theorem State.setMe_pwrTick (s : State) (k : Core) : (s.setMe k).pwrTick = s.pwrTick := rfl
@[simp] theorem State.setMe_thermTick (s : State) (k : Core) : (s.setMe k).thermTick = s.thermTick := rfl
@[simp] theorem State.setMe_hostWait (s : State) (k : Core) : (s.setMe k).hostWait = s.hostWait := rfl
@[simp] theorem State.setMe_cxlOpen (s : State) (k : Core) : (s.setMe k).cxlOpen = s.cxlOpen := rfl
@[simp] theorem State.setMe_cxlDone (s : State) (k : Core) : (s.setMe k).cxlDone = s.cxlDone := rfl
@[simp] theorem State.setMe_meas (s : State) (k : Core) : (s.setMe k).meas = s.meas := rfl
@[simp] theorem State.setMe_measErr (s : State) (k : Core) : (s.setMe k).measErr = s.measErr := rfl
@[simp] theorem State.setMe_measFull (s : State) (k : Core) : (s.setMe k).measFull = s.measFull := rfl
@[simp] theorem State.setMe_attest (s : State) (k : Core) : (s.setMe k).attest = s.attest := rfl
@[simp] theorem State.setMe_quote (s : State) (k : Core) : (s.setMe k).quote = s.quote := rfl
@[simp] theorem State.setMe_qstat (s : State) (k : Core) : (s.setMe k).qstat = s.qstat := rfl
@[simp] theorem State.setMe_signed (s : State) (k : Core) : (s.setMe k).signed = s.signed := rfl
@[simp] theorem State.setMe_openCount (s : State) (k : Core) : (s.setMe k).openCount = s.openCount := rfl
@[simp] theorem State.setMe_dbg (s : State) (k : Core) : (s.setMe k).dbg = s.dbg := rfl
@[simp] theorem State.setMe_halted (s : State) (k : Core) : (s.setMe k).halted = s.halted := rfl
@[simp] theorem State.setMe_errors (s : State) (k : Core) : (s.setMe k).errors = s.errors := rfl
@[simp] theorem State.setMe_cxlioErrs (s : State) (k : Core) : (s.setMe k).cxlioErrs = s.cxlioErrs := rfl
@[simp] theorem State.setMe_retired (s : State) (k : Core) : (s.setMe k).retired = s.retired := rfl
@[simp] theorem State.setMe_tandemCfg (s : State) (k : Core) : (s.setMe k).tandemCfg = s.tandemCfg := rfl
@[simp] theorem State.setMe_hostDown (s : State) (k : Core) : (s.setMe k).hostDown = s.hostDown := rfl
@[simp] theorem State.setMe_peerSize (s : State) (k : Core) : (s.setMe k).peerSize = s.peerSize := rfl
@[simp] theorem State.setMe_peerOut (s : State) (k : Core) : (s.setMe k).peerOut = s.peerOut := rfl
@[simp] theorem State.setMe_peerMsgs (s : State) (k : Core) : (s.setMe k).peerMsgs = s.peerMsgs := rfl
@[simp] theorem State.setMe_peerCtrl (s : State) (k : Core) : (s.setMe k).peerCtrl = s.peerCtrl := rfl
@[simp] theorem State.setMe_peerColl (s : State) (k : Core) : (s.setMe k).peerColl = s.peerColl := rfl
@[simp] theorem State.setMe_peerSends (s : State) (k : Core) : (s.setMe k).peerSends = s.peerSends := rfl
@[simp] theorem State.setMe_discardTick (s : State) (k : Core) : (s.setMe k).discardTick = s.discardTick := rfl
@[simp] theorem State.setMe_tandemArmed (s : State) (k : Core) : (s.setMe k).tandemArmed = s.tandemArmed := rfl

@[simp] theorem State.setCur_turns (s : State) (x : Ctx) : (s.setCur x).turns = s.turns := rfl
@[simp] theorem State.setCur_curCore (s : State) (x : Ctx) : (s.setCur x).curCore = s.curCore := rfl
@[simp] theorem State.setCur_curSlot (s : State) (x : Ctx) : (s.setCur x).curSlot = s.curSlot := rfl
@[simp] theorem State.setCur_fresh (s : State) (x : Ctx) : (s.setCur x).fresh = s.fresh := rfl
@[simp] theorem State.setCur_coresen (s : State) (x : Ctx) : (s.setCur x).coresen = s.coresen := rfl
@[simp] theorem State.setCur_tick (s : State) (x : Ctx) : (s.setCur x).tick = s.tick := rfl
@[simp] theorem State.setCur_tickWait (s : State) (x : Ctx) : (s.setCur x).tickWait = s.tickWait := rfl
@[simp] theorem State.setCur_pad (s : State) (x : Ctx) : (s.setCur x).pad = s.pad := rfl
@[simp] theorem State.setCur_padBad (s : State) (x : Ctx) : (s.setCur x).padBad = s.padBad := rfl
@[simp] theorem State.setCur_phys (s : State) (x : Ctx) : (s.setCur x).phys = s.phys := rfl
@[simp] theorem State.setCur_hbmBad (s : State) (x : Ctx) : (s.setCur x).hbmBad = s.hbmBad := rfl
@[simp] theorem State.setCur_tagBad (s : State) (x : Ctx) : (s.setCur x).tagBad = s.tagBad := rfl
@[simp] theorem State.setCur_wordGood (s : State) (x : Ctx) : (s.setCur x).wordGood = s.wordGood := rfl
@[simp] theorem State.setCur_l2 (s : State) (x : Ctx) : (s.setCur x).l2 = s.l2 := rfl
@[simp] theorem State.setCur_pcache (s : State) (x : Ctx) : (s.setCur x).pcache = s.pcache := rfl
@[simp] theorem State.setCur_tlb (s : State) (x : Ctx) : (s.setCur x).tlb = s.tlb := rfl
@[simp] theorem State.setCur_metas (s : State) (x : Ctx) : (s.setCur x).metas = s.metas := rfl
@[simp] theorem State.setCur_vecs (s : State) (x : Ctx) : (s.setCur x).vecs = s.vecs := rfl
@[simp] theorem State.setCur_flights (s : State) (x : Ctx) : (s.setCur x).flights = s.flights := rfl
@[simp] theorem State.setCur_stamps (s : State) (x : Ctx) : (s.setCur x).stamps = s.stamps := rfl
@[simp] theorem State.setCur_hostLines (s : State) (x : Ctx) : (s.setCur x).hostLines = s.hostLines := rfl
@[simp] theorem State.setCur_bisnp (s : State) (x : Ctx) : (s.setCur x).bisnp = s.bisnp := rfl
@[simp] theorem State.setCur_collected (s : State) (x : Ctx) : (s.setCur x).collected = s.collected := rfl
@[simp] theorem State.setCur_devQ (s : State) (x : Ctx) : (s.setCur x).devQ = s.devQ := rfl
@[simp] theorem State.setCur_hostData (s : State) (x : Ctx) : (s.setCur x).hostData = s.hostData := rfl
@[simp] theorem State.setCur_reins (s : State) (x : Ctx) : (s.setCur x).reins = s.reins := rfl
@[simp] theorem State.setCur_stoppedGroups (s : State) (x : Ctx) : (s.setCur x).stoppedGroups = s.stoppedGroups := rfl
@[simp] theorem State.setCur_saved (s : State) (x : Ctx) : (s.setCur x).saved = s.saved := rfl
@[simp] theorem State.setCur_collSeq (s : State) (x : Ctx) : (s.setCur x).collSeq = s.collSeq := rfl
@[simp] theorem State.setCur_ready (s : State) (x : Ctx) : (s.setCur x).ready = s.ready := rfl
@[simp] theorem State.setCur_failed (s : State) (x : Ctx) : (s.setCur x).failed = s.failed := rfl
@[simp] theorem State.setCur_clients (s : State) (x : Ctx) : (s.setCur x).clients = s.clients := rfl
@[simp] theorem State.setCur_apBase (s : State) (x : Ctx) : (s.setCur x).apBase = s.apBase := rfl
@[simp] theorem State.setCur_trapEnt (s : State) (x : Ctx) : (s.setCur x).trapEnt = s.trapEnt := rfl
@[simp] theorem State.setCur_versions (s : State) (x : Ctx) : (s.setCur x).versions = s.versions := rfl
@[simp] theorem State.setCur_ctlRes (s : State) (x : Ctx) : (s.setCur x).ctlRes = s.ctlRes := rfl
@[simp] theorem State.setCur_resumeReqs (s : State) (x : Ctx) : (s.setCur x).resumeReqs = s.resumeReqs := rfl
@[simp] theorem State.setCur_spillWrote (s : State) (x : Ctx) : (s.setCur x).spillWrote = s.spillWrote := rfl
@[simp] theorem State.setCur_fltRing (s : State) (x : Ctx) : (s.setCur x).fltRing = s.fltRing := rfl
@[simp] theorem State.setCur_spillQ (s : State) (x : Ctx) : (s.setCur x).spillQ = s.spillQ := rfl
@[simp] theorem State.setCur_procBase (s : State) (x : Ctx) : (s.setCur x).procBase = s.procBase := rfl
@[simp] theorem State.setCur_ptBase (s : State) (x : Ctx) : (s.setCur x).ptBase = s.ptBase := rfl
@[simp] theorem State.setCur_aliasTab (s : State) (x : Ctx) : (s.setCur x).aliasTab = s.aliasTab := rfl
@[simp] theorem State.setCur_cap (s : State) (x : Ctx) : (s.setCur x).cap = s.cap := rfl
@[simp] theorem State.setCur_clkStep (s : State) (x : Ctx) : (s.setCur x).clkStep = s.clkStep := rfl
@[simp] theorem State.setCur_therm (s : State) (x : Ctx) : (s.setCur x).therm = s.therm := rfl
@[simp] theorem State.setCur_pwrP (s : State) (x : Ctx) : (s.setCur x).pwrP = s.pwrP := rfl
@[simp] theorem State.setCur_pwrLow (s : State) (x : Ctx) : (s.setCur x).pwrLow = s.pwrLow := rfl
@[simp] theorem State.setCur_pwrHigh (s : State) (x : Ctx) : (s.setCur x).pwrHigh = s.pwrHigh := rfl
@[simp] theorem State.setCur_pwrTick (s : State) (x : Ctx) : (s.setCur x).pwrTick = s.pwrTick := rfl
@[simp] theorem State.setCur_thermTick (s : State) (x : Ctx) : (s.setCur x).thermTick = s.thermTick := rfl
@[simp] theorem State.setCur_hostWait (s : State) (x : Ctx) : (s.setCur x).hostWait = s.hostWait := rfl
@[simp] theorem State.setCur_cxlOpen (s : State) (x : Ctx) : (s.setCur x).cxlOpen = s.cxlOpen := rfl
@[simp] theorem State.setCur_cxlDone (s : State) (x : Ctx) : (s.setCur x).cxlDone = s.cxlDone := rfl
@[simp] theorem State.setCur_meas (s : State) (x : Ctx) : (s.setCur x).meas = s.meas := rfl
@[simp] theorem State.setCur_measErr (s : State) (x : Ctx) : (s.setCur x).measErr = s.measErr := rfl
@[simp] theorem State.setCur_measFull (s : State) (x : Ctx) : (s.setCur x).measFull = s.measFull := rfl
@[simp] theorem State.setCur_attest (s : State) (x : Ctx) : (s.setCur x).attest = s.attest := rfl
@[simp] theorem State.setCur_quote (s : State) (x : Ctx) : (s.setCur x).quote = s.quote := rfl
@[simp] theorem State.setCur_qstat (s : State) (x : Ctx) : (s.setCur x).qstat = s.qstat := rfl
@[simp] theorem State.setCur_signed (s : State) (x : Ctx) : (s.setCur x).signed = s.signed := rfl
@[simp] theorem State.setCur_openCount (s : State) (x : Ctx) : (s.setCur x).openCount = s.openCount := rfl
@[simp] theorem State.setCur_dbg (s : State) (x : Ctx) : (s.setCur x).dbg = s.dbg := rfl
@[simp] theorem State.setCur_halted (s : State) (x : Ctx) : (s.setCur x).halted = s.halted := rfl
@[simp] theorem State.setCur_errors (s : State) (x : Ctx) : (s.setCur x).errors = s.errors := rfl
@[simp] theorem State.setCur_cxlioErrs (s : State) (x : Ctx) : (s.setCur x).cxlioErrs = s.cxlioErrs := rfl
@[simp] theorem State.setCur_retired (s : State) (x : Ctx) : (s.setCur x).retired = s.retired := rfl
@[simp] theorem State.setCur_tandemCfg (s : State) (x : Ctx) : (s.setCur x).tandemCfg = s.tandemCfg := rfl
@[simp] theorem State.setCur_hostDown (s : State) (x : Ctx) : (s.setCur x).hostDown = s.hostDown := rfl
@[simp] theorem State.setCur_peerSize (s : State) (x : Ctx) : (s.setCur x).peerSize = s.peerSize := rfl
@[simp] theorem State.setCur_peerOut (s : State) (x : Ctx) : (s.setCur x).peerOut = s.peerOut := rfl
@[simp] theorem State.setCur_peerMsgs (s : State) (x : Ctx) : (s.setCur x).peerMsgs = s.peerMsgs := rfl
@[simp] theorem State.setCur_peerCtrl (s : State) (x : Ctx) : (s.setCur x).peerCtrl = s.peerCtrl := rfl
@[simp] theorem State.setCur_peerColl (s : State) (x : Ctx) : (s.setCur x).peerColl = s.peerColl := rfl
@[simp] theorem State.setCur_peerSends (s : State) (x : Ctx) : (s.setCur x).peerSends = s.peerSends := rfl
@[simp] theorem State.setCur_discardTick (s : State) (x : Ctx) : (s.setCur x).discardTick = s.discardTick := rfl
@[simp] theorem State.setCur_tandemArmed (s : State) (x : Ctx) : (s.setCur x).tandemArmed = s.tandemArmed := rfl

@[simp] theorem State.setCtx_turns (s : State) (c slot : Nat) (x : Ctx) : (s.setCtx c slot x).turns = s.turns := rfl
@[simp] theorem State.setCtx_curCore (s : State) (c slot : Nat) (x : Ctx) : (s.setCtx c slot x).curCore = s.curCore := rfl
@[simp] theorem State.setCtx_curSlot (s : State) (c slot : Nat) (x : Ctx) : (s.setCtx c slot x).curSlot = s.curSlot := rfl
@[simp] theorem State.setCtx_fresh (s : State) (c slot : Nat) (x : Ctx) : (s.setCtx c slot x).fresh = s.fresh := rfl
@[simp] theorem State.setCtx_coresen (s : State) (c slot : Nat) (x : Ctx) : (s.setCtx c slot x).coresen = s.coresen := rfl
@[simp] theorem State.setCtx_tick (s : State) (c slot : Nat) (x : Ctx) : (s.setCtx c slot x).tick = s.tick := rfl
@[simp] theorem State.setCtx_tickWait (s : State) (c slot : Nat) (x : Ctx) : (s.setCtx c slot x).tickWait = s.tickWait := rfl
@[simp] theorem State.setCtx_pad (s : State) (c slot : Nat) (x : Ctx) : (s.setCtx c slot x).pad = s.pad := rfl
@[simp] theorem State.setCtx_padBad (s : State) (c slot : Nat) (x : Ctx) : (s.setCtx c slot x).padBad = s.padBad := rfl
@[simp] theorem State.setCtx_phys (s : State) (c slot : Nat) (x : Ctx) : (s.setCtx c slot x).phys = s.phys := rfl
@[simp] theorem State.setCtx_hbmBad (s : State) (c slot : Nat) (x : Ctx) : (s.setCtx c slot x).hbmBad = s.hbmBad := rfl
@[simp] theorem State.setCtx_tagBad (s : State) (c slot : Nat) (x : Ctx) : (s.setCtx c slot x).tagBad = s.tagBad := rfl
@[simp] theorem State.setCtx_wordGood (s : State) (c slot : Nat) (x : Ctx) : (s.setCtx c slot x).wordGood = s.wordGood := rfl
@[simp] theorem State.setCtx_l2 (s : State) (c slot : Nat) (x : Ctx) : (s.setCtx c slot x).l2 = s.l2 := rfl
@[simp] theorem State.setCtx_pcache (s : State) (c slot : Nat) (x : Ctx) : (s.setCtx c slot x).pcache = s.pcache := rfl
@[simp] theorem State.setCtx_tlb (s : State) (c slot : Nat) (x : Ctx) : (s.setCtx c slot x).tlb = s.tlb := rfl
@[simp] theorem State.setCtx_metas (s : State) (c slot : Nat) (x : Ctx) : (s.setCtx c slot x).metas = s.metas := rfl
@[simp] theorem State.setCtx_vecs (s : State) (c slot : Nat) (x : Ctx) : (s.setCtx c slot x).vecs = s.vecs := rfl
@[simp] theorem State.setCtx_flights (s : State) (c slot : Nat) (x : Ctx) : (s.setCtx c slot x).flights = s.flights := rfl
@[simp] theorem State.setCtx_stamps (s : State) (c slot : Nat) (x : Ctx) : (s.setCtx c slot x).stamps = s.stamps := rfl
@[simp] theorem State.setCtx_hostLines (s : State) (c slot : Nat) (x : Ctx) : (s.setCtx c slot x).hostLines = s.hostLines := rfl
@[simp] theorem State.setCtx_bisnp (s : State) (c slot : Nat) (x : Ctx) : (s.setCtx c slot x).bisnp = s.bisnp := rfl
@[simp] theorem State.setCtx_collected (s : State) (c slot : Nat) (x : Ctx) : (s.setCtx c slot x).collected = s.collected := rfl
@[simp] theorem State.setCtx_devQ (s : State) (c slot : Nat) (x : Ctx) : (s.setCtx c slot x).devQ = s.devQ := rfl
@[simp] theorem State.setCtx_hostData (s : State) (c slot : Nat) (x : Ctx) : (s.setCtx c slot x).hostData = s.hostData := rfl
@[simp] theorem State.setCtx_reins (s : State) (c slot : Nat) (x : Ctx) : (s.setCtx c slot x).reins = s.reins := rfl
@[simp] theorem State.setCtx_stoppedGroups (s : State) (c slot : Nat) (x : Ctx) : (s.setCtx c slot x).stoppedGroups = s.stoppedGroups := rfl
@[simp] theorem State.setCtx_saved (s : State) (c slot : Nat) (x : Ctx) : (s.setCtx c slot x).saved = s.saved := rfl
@[simp] theorem State.setCtx_collSeq (s : State) (c slot : Nat) (x : Ctx) : (s.setCtx c slot x).collSeq = s.collSeq := rfl
@[simp] theorem State.setCtx_ready (s : State) (c slot : Nat) (x : Ctx) : (s.setCtx c slot x).ready = s.ready := rfl
@[simp] theorem State.setCtx_failed (s : State) (c slot : Nat) (x : Ctx) : (s.setCtx c slot x).failed = s.failed := rfl
@[simp] theorem State.setCtx_clients (s : State) (c slot : Nat) (x : Ctx) : (s.setCtx c slot x).clients = s.clients := rfl
@[simp] theorem State.setCtx_apBase (s : State) (c slot : Nat) (x : Ctx) : (s.setCtx c slot x).apBase = s.apBase := rfl
@[simp] theorem State.setCtx_trapEnt (s : State) (c slot : Nat) (x : Ctx) : (s.setCtx c slot x).trapEnt = s.trapEnt := rfl
@[simp] theorem State.setCtx_versions (s : State) (c slot : Nat) (x : Ctx) : (s.setCtx c slot x).versions = s.versions := rfl
@[simp] theorem State.setCtx_ctlRes (s : State) (c slot : Nat) (x : Ctx) : (s.setCtx c slot x).ctlRes = s.ctlRes := rfl
@[simp] theorem State.setCtx_resumeReqs (s : State) (c slot : Nat) (x : Ctx) : (s.setCtx c slot x).resumeReqs = s.resumeReqs := rfl
@[simp] theorem State.setCtx_spillWrote (s : State) (c slot : Nat) (x : Ctx) : (s.setCtx c slot x).spillWrote = s.spillWrote := rfl
@[simp] theorem State.setCtx_fltRing (s : State) (c slot : Nat) (x : Ctx) : (s.setCtx c slot x).fltRing = s.fltRing := rfl
@[simp] theorem State.setCtx_spillQ (s : State) (c slot : Nat) (x : Ctx) : (s.setCtx c slot x).spillQ = s.spillQ := rfl
@[simp] theorem State.setCtx_procBase (s : State) (c slot : Nat) (x : Ctx) : (s.setCtx c slot x).procBase = s.procBase := rfl
@[simp] theorem State.setCtx_ptBase (s : State) (c slot : Nat) (x : Ctx) : (s.setCtx c slot x).ptBase = s.ptBase := rfl
@[simp] theorem State.setCtx_aliasTab (s : State) (c slot : Nat) (x : Ctx) : (s.setCtx c slot x).aliasTab = s.aliasTab := rfl
@[simp] theorem State.setCtx_cap (s : State) (c slot : Nat) (x : Ctx) : (s.setCtx c slot x).cap = s.cap := rfl
@[simp] theorem State.setCtx_clkStep (s : State) (c slot : Nat) (x : Ctx) : (s.setCtx c slot x).clkStep = s.clkStep := rfl
@[simp] theorem State.setCtx_therm (s : State) (c slot : Nat) (x : Ctx) : (s.setCtx c slot x).therm = s.therm := rfl
@[simp] theorem State.setCtx_pwrP (s : State) (c slot : Nat) (x : Ctx) : (s.setCtx c slot x).pwrP = s.pwrP := rfl
@[simp] theorem State.setCtx_pwrLow (s : State) (c slot : Nat) (x : Ctx) : (s.setCtx c slot x).pwrLow = s.pwrLow := rfl
@[simp] theorem State.setCtx_pwrHigh (s : State) (c slot : Nat) (x : Ctx) : (s.setCtx c slot x).pwrHigh = s.pwrHigh := rfl
@[simp] theorem State.setCtx_pwrTick (s : State) (c slot : Nat) (x : Ctx) : (s.setCtx c slot x).pwrTick = s.pwrTick := rfl
@[simp] theorem State.setCtx_thermTick (s : State) (c slot : Nat) (x : Ctx) : (s.setCtx c slot x).thermTick = s.thermTick := rfl
@[simp] theorem State.setCtx_hostWait (s : State) (c slot : Nat) (x : Ctx) : (s.setCtx c slot x).hostWait = s.hostWait := rfl
@[simp] theorem State.setCtx_cxlOpen (s : State) (c slot : Nat) (x : Ctx) : (s.setCtx c slot x).cxlOpen = s.cxlOpen := rfl
@[simp] theorem State.setCtx_cxlDone (s : State) (c slot : Nat) (x : Ctx) : (s.setCtx c slot x).cxlDone = s.cxlDone := rfl
@[simp] theorem State.setCtx_meas (s : State) (c slot : Nat) (x : Ctx) : (s.setCtx c slot x).meas = s.meas := rfl
@[simp] theorem State.setCtx_measErr (s : State) (c slot : Nat) (x : Ctx) : (s.setCtx c slot x).measErr = s.measErr := rfl
@[simp] theorem State.setCtx_measFull (s : State) (c slot : Nat) (x : Ctx) : (s.setCtx c slot x).measFull = s.measFull := rfl
@[simp] theorem State.setCtx_attest (s : State) (c slot : Nat) (x : Ctx) : (s.setCtx c slot x).attest = s.attest := rfl
@[simp] theorem State.setCtx_quote (s : State) (c slot : Nat) (x : Ctx) : (s.setCtx c slot x).quote = s.quote := rfl
@[simp] theorem State.setCtx_qstat (s : State) (c slot : Nat) (x : Ctx) : (s.setCtx c slot x).qstat = s.qstat := rfl
@[simp] theorem State.setCtx_signed (s : State) (c slot : Nat) (x : Ctx) : (s.setCtx c slot x).signed = s.signed := rfl
@[simp] theorem State.setCtx_openCount (s : State) (c slot : Nat) (x : Ctx) : (s.setCtx c slot x).openCount = s.openCount := rfl
@[simp] theorem State.setCtx_dbg (s : State) (c slot : Nat) (x : Ctx) : (s.setCtx c slot x).dbg = s.dbg := rfl
@[simp] theorem State.setCtx_halted (s : State) (c slot : Nat) (x : Ctx) : (s.setCtx c slot x).halted = s.halted := rfl
@[simp] theorem State.setCtx_errors (s : State) (c slot : Nat) (x : Ctx) : (s.setCtx c slot x).errors = s.errors := rfl
@[simp] theorem State.setCtx_cxlioErrs (s : State) (c slot : Nat) (x : Ctx) : (s.setCtx c slot x).cxlioErrs = s.cxlioErrs := rfl
@[simp] theorem State.setCtx_retired (s : State) (c slot : Nat) (x : Ctx) : (s.setCtx c slot x).retired = s.retired := rfl
@[simp] theorem State.setCtx_tandemCfg (s : State) (c slot : Nat) (x : Ctx) : (s.setCtx c slot x).tandemCfg = s.tandemCfg := rfl
@[simp] theorem State.setCtx_hostDown (s : State) (c slot : Nat) (x : Ctx) : (s.setCtx c slot x).hostDown = s.hostDown := rfl
@[simp] theorem State.setCtx_peerSize (s : State) (c slot : Nat) (x : Ctx) : (s.setCtx c slot x).peerSize = s.peerSize := rfl
@[simp] theorem State.setCtx_peerOut (s : State) (c slot : Nat) (x : Ctx) : (s.setCtx c slot x).peerOut = s.peerOut := rfl
@[simp] theorem State.setCtx_peerMsgs (s : State) (c slot : Nat) (x : Ctx) : (s.setCtx c slot x).peerMsgs = s.peerMsgs := rfl
@[simp] theorem State.setCtx_peerCtrl (s : State) (c slot : Nat) (x : Ctx) : (s.setCtx c slot x).peerCtrl = s.peerCtrl := rfl
@[simp] theorem State.setCtx_peerColl (s : State) (c slot : Nat) (x : Ctx) : (s.setCtx c slot x).peerColl = s.peerColl := rfl
@[simp] theorem State.setCtx_peerSends (s : State) (c slot : Nat) (x : Ctx) : (s.setCtx c slot x).peerSends = s.peerSends := rfl
@[simp] theorem State.setCtx_discardTick (s : State) (c slot : Nat) (x : Ctx) : (s.setCtx c slot x).discardTick = s.discardTick := rfl
@[simp] theorem State.setCtx_tandemArmed (s : State) (c slot : Nat) (x : Ctx) : (s.setCtx c slot x).tandemArmed = s.tandemArmed := rfl

@[simp] theorem State.setBank_turns (s : State) (h b : Nat) (x : Bank) : (s.setBank h b x).turns = s.turns := rfl
@[simp] theorem State.setBank_curCore (s : State) (h b : Nat) (x : Bank) : (s.setBank h b x).curCore = s.curCore := rfl
@[simp] theorem State.setBank_curSlot (s : State) (h b : Nat) (x : Bank) : (s.setBank h b x).curSlot = s.curSlot := rfl
@[simp] theorem State.setBank_fresh (s : State) (h b : Nat) (x : Bank) : (s.setBank h b x).fresh = s.fresh := rfl
@[simp] theorem State.setBank_coresen (s : State) (h b : Nat) (x : Bank) : (s.setBank h b x).coresen = s.coresen := rfl
@[simp] theorem State.setBank_tick (s : State) (h b : Nat) (x : Bank) : (s.setBank h b x).tick = s.tick := rfl
@[simp] theorem State.setBank_tickWait (s : State) (h b : Nat) (x : Bank) : (s.setBank h b x).tickWait = s.tickWait := rfl
@[simp] theorem State.setBank_pad (s : State) (h b : Nat) (x : Bank) : (s.setBank h b x).pad = s.pad := rfl
@[simp] theorem State.setBank_padBad (s : State) (h b : Nat) (x : Bank) : (s.setBank h b x).padBad = s.padBad := rfl
@[simp] theorem State.setBank_phys (s : State) (h b : Nat) (x : Bank) : (s.setBank h b x).phys = s.phys := rfl
@[simp] theorem State.setBank_hbmBad (s : State) (h b : Nat) (x : Bank) : (s.setBank h b x).hbmBad = s.hbmBad := rfl
@[simp] theorem State.setBank_tagBad (s : State) (h b : Nat) (x : Bank) : (s.setBank h b x).tagBad = s.tagBad := rfl
@[simp] theorem State.setBank_wordGood (s : State) (h b : Nat) (x : Bank) : (s.setBank h b x).wordGood = s.wordGood := rfl
@[simp] theorem State.setBank_l2 (s : State) (h b : Nat) (x : Bank) : (s.setBank h b x).l2 = s.l2 := rfl
@[simp] theorem State.setBank_pcache (s : State) (h b : Nat) (x : Bank) : (s.setBank h b x).pcache = s.pcache := rfl
@[simp] theorem State.setBank_tlb (s : State) (h b : Nat) (x : Bank) : (s.setBank h b x).tlb = s.tlb := rfl
@[simp] theorem State.setBank_metas (s : State) (h b : Nat) (x : Bank) : (s.setBank h b x).metas = s.metas := rfl
@[simp] theorem State.setBank_vecs (s : State) (h b : Nat) (x : Bank) : (s.setBank h b x).vecs = s.vecs := rfl
@[simp] theorem State.setBank_flights (s : State) (h b : Nat) (x : Bank) : (s.setBank h b x).flights = s.flights := rfl
@[simp] theorem State.setBank_stamps (s : State) (h b : Nat) (x : Bank) : (s.setBank h b x).stamps = s.stamps := rfl
@[simp] theorem State.setBank_hostLines (s : State) (h b : Nat) (x : Bank) : (s.setBank h b x).hostLines = s.hostLines := rfl
@[simp] theorem State.setBank_bisnp (s : State) (h b : Nat) (x : Bank) : (s.setBank h b x).bisnp = s.bisnp := rfl
@[simp] theorem State.setBank_collected (s : State) (h b : Nat) (x : Bank) : (s.setBank h b x).collected = s.collected := rfl
@[simp] theorem State.setBank_devQ (s : State) (h b : Nat) (x : Bank) : (s.setBank h b x).devQ = s.devQ := rfl
@[simp] theorem State.setBank_hostData (s : State) (h b : Nat) (x : Bank) : (s.setBank h b x).hostData = s.hostData := rfl
@[simp] theorem State.setBank_reins (s : State) (h b : Nat) (x : Bank) : (s.setBank h b x).reins = s.reins := rfl
@[simp] theorem State.setBank_stoppedGroups (s : State) (h b : Nat) (x : Bank) : (s.setBank h b x).stoppedGroups = s.stoppedGroups := rfl
@[simp] theorem State.setBank_saved (s : State) (h b : Nat) (x : Bank) : (s.setBank h b x).saved = s.saved := rfl
@[simp] theorem State.setBank_collSeq (s : State) (h b : Nat) (x : Bank) : (s.setBank h b x).collSeq = s.collSeq := rfl
@[simp] theorem State.setBank_ready (s : State) (h b : Nat) (x : Bank) : (s.setBank h b x).ready = s.ready := rfl
@[simp] theorem State.setBank_failed (s : State) (h b : Nat) (x : Bank) : (s.setBank h b x).failed = s.failed := rfl
@[simp] theorem State.setBank_clients (s : State) (h b : Nat) (x : Bank) : (s.setBank h b x).clients = s.clients := rfl
@[simp] theorem State.setBank_apBase (s : State) (h b : Nat) (x : Bank) : (s.setBank h b x).apBase = s.apBase := rfl
@[simp] theorem State.setBank_trapEnt (s : State) (h b : Nat) (x : Bank) : (s.setBank h b x).trapEnt = s.trapEnt := rfl
@[simp] theorem State.setBank_versions (s : State) (h b : Nat) (x : Bank) : (s.setBank h b x).versions = s.versions := rfl
@[simp] theorem State.setBank_ctlRes (s : State) (h b : Nat) (x : Bank) : (s.setBank h b x).ctlRes = s.ctlRes := rfl
@[simp] theorem State.setBank_resumeReqs (s : State) (h b : Nat) (x : Bank) : (s.setBank h b x).resumeReqs = s.resumeReqs := rfl
@[simp] theorem State.setBank_spillWrote (s : State) (h b : Nat) (x : Bank) : (s.setBank h b x).spillWrote = s.spillWrote := rfl
@[simp] theorem State.setBank_fltRing (s : State) (h b : Nat) (x : Bank) : (s.setBank h b x).fltRing = s.fltRing := rfl
@[simp] theorem State.setBank_spillQ (s : State) (h b : Nat) (x : Bank) : (s.setBank h b x).spillQ = s.spillQ := rfl
@[simp] theorem State.setBank_procBase (s : State) (h b : Nat) (x : Bank) : (s.setBank h b x).procBase = s.procBase := rfl
@[simp] theorem State.setBank_ptBase (s : State) (h b : Nat) (x : Bank) : (s.setBank h b x).ptBase = s.ptBase := rfl
@[simp] theorem State.setBank_aliasTab (s : State) (h b : Nat) (x : Bank) : (s.setBank h b x).aliasTab = s.aliasTab := rfl
@[simp] theorem State.setBank_cap (s : State) (h b : Nat) (x : Bank) : (s.setBank h b x).cap = s.cap := rfl
@[simp] theorem State.setBank_clkStep (s : State) (h b : Nat) (x : Bank) : (s.setBank h b x).clkStep = s.clkStep := rfl
@[simp] theorem State.setBank_therm (s : State) (h b : Nat) (x : Bank) : (s.setBank h b x).therm = s.therm := rfl
@[simp] theorem State.setBank_pwrP (s : State) (h b : Nat) (x : Bank) : (s.setBank h b x).pwrP = s.pwrP := rfl
@[simp] theorem State.setBank_pwrLow (s : State) (h b : Nat) (x : Bank) : (s.setBank h b x).pwrLow = s.pwrLow := rfl
@[simp] theorem State.setBank_pwrHigh (s : State) (h b : Nat) (x : Bank) : (s.setBank h b x).pwrHigh = s.pwrHigh := rfl
@[simp] theorem State.setBank_pwrTick (s : State) (h b : Nat) (x : Bank) : (s.setBank h b x).pwrTick = s.pwrTick := rfl
@[simp] theorem State.setBank_thermTick (s : State) (h b : Nat) (x : Bank) : (s.setBank h b x).thermTick = s.thermTick := rfl
@[simp] theorem State.setBank_hostWait (s : State) (h b : Nat) (x : Bank) : (s.setBank h b x).hostWait = s.hostWait := rfl
@[simp] theorem State.setBank_cxlOpen (s : State) (h b : Nat) (x : Bank) : (s.setBank h b x).cxlOpen = s.cxlOpen := rfl
@[simp] theorem State.setBank_cxlDone (s : State) (h b : Nat) (x : Bank) : (s.setBank h b x).cxlDone = s.cxlDone := rfl
@[simp] theorem State.setBank_meas (s : State) (h b : Nat) (x : Bank) : (s.setBank h b x).meas = s.meas := rfl
@[simp] theorem State.setBank_measErr (s : State) (h b : Nat) (x : Bank) : (s.setBank h b x).measErr = s.measErr := rfl
@[simp] theorem State.setBank_measFull (s : State) (h b : Nat) (x : Bank) : (s.setBank h b x).measFull = s.measFull := rfl
@[simp] theorem State.setBank_attest (s : State) (h b : Nat) (x : Bank) : (s.setBank h b x).attest = s.attest := rfl
@[simp] theorem State.setBank_quote (s : State) (h b : Nat) (x : Bank) : (s.setBank h b x).quote = s.quote := rfl
@[simp] theorem State.setBank_qstat (s : State) (h b : Nat) (x : Bank) : (s.setBank h b x).qstat = s.qstat := rfl
@[simp] theorem State.setBank_signed (s : State) (h b : Nat) (x : Bank) : (s.setBank h b x).signed = s.signed := rfl
@[simp] theorem State.setBank_openCount (s : State) (h b : Nat) (x : Bank) : (s.setBank h b x).openCount = s.openCount := rfl
@[simp] theorem State.setBank_dbg (s : State) (h b : Nat) (x : Bank) : (s.setBank h b x).dbg = s.dbg := rfl
@[simp] theorem State.setBank_halted (s : State) (h b : Nat) (x : Bank) : (s.setBank h b x).halted = s.halted := rfl
@[simp] theorem State.setBank_errors (s : State) (h b : Nat) (x : Bank) : (s.setBank h b x).errors = s.errors := rfl
@[simp] theorem State.setBank_cxlioErrs (s : State) (h b : Nat) (x : Bank) : (s.setBank h b x).cxlioErrs = s.cxlioErrs := rfl
@[simp] theorem State.setBank_retired (s : State) (h b : Nat) (x : Bank) : (s.setBank h b x).retired = s.retired := rfl
@[simp] theorem State.setBank_tandemCfg (s : State) (h b : Nat) (x : Bank) : (s.setBank h b x).tandemCfg = s.tandemCfg := rfl
@[simp] theorem State.setBank_hostDown (s : State) (h b : Nat) (x : Bank) : (s.setBank h b x).hostDown = s.hostDown := rfl
@[simp] theorem State.setBank_peerSize (s : State) (h b : Nat) (x : Bank) : (s.setBank h b x).peerSize = s.peerSize := rfl
@[simp] theorem State.setBank_peerOut (s : State) (h b : Nat) (x : Bank) : (s.setBank h b x).peerOut = s.peerOut := rfl
@[simp] theorem State.setBank_peerMsgs (s : State) (h b : Nat) (x : Bank) : (s.setBank h b x).peerMsgs = s.peerMsgs := rfl
@[simp] theorem State.setBank_peerCtrl (s : State) (h b : Nat) (x : Bank) : (s.setBank h b x).peerCtrl = s.peerCtrl := rfl
@[simp] theorem State.setBank_peerColl (s : State) (h b : Nat) (x : Bank) : (s.setBank h b x).peerColl = s.peerColl := rfl
@[simp] theorem State.setBank_peerSends (s : State) (h b : Nat) (x : Bank) : (s.setBank h b x).peerSends = s.peerSends := rfl
@[simp] theorem State.setBank_discardTick (s : State) (h b : Nat) (x : Bank) : (s.setBank h b x).discardTick = s.discardTick := rfl
@[simp] theorem State.setBank_tandemArmed (s : State) (h b : Nat) (x : Bank) : (s.setBank h b x).tandemArmed = s.tandemArmed := rfl

@[simp] theorem State.bumpEv_turns (s : State) (c i n : Nat) : (s.bumpEv c i n).turns = s.turns := rfl
@[simp] theorem State.bumpEv_curCore (s : State) (c i n : Nat) : (s.bumpEv c i n).curCore = s.curCore := rfl
@[simp] theorem State.bumpEv_curSlot (s : State) (c i n : Nat) : (s.bumpEv c i n).curSlot = s.curSlot := rfl
@[simp] theorem State.bumpEv_fresh (s : State) (c i n : Nat) : (s.bumpEv c i n).fresh = s.fresh := rfl
@[simp] theorem State.bumpEv_coresen (s : State) (c i n : Nat) : (s.bumpEv c i n).coresen = s.coresen := rfl
@[simp] theorem State.bumpEv_tick (s : State) (c i n : Nat) : (s.bumpEv c i n).tick = s.tick := rfl
@[simp] theorem State.bumpEv_tickWait (s : State) (c i n : Nat) : (s.bumpEv c i n).tickWait = s.tickWait := rfl
@[simp] theorem State.bumpEv_pad (s : State) (c i n : Nat) : (s.bumpEv c i n).pad = s.pad := rfl
@[simp] theorem State.bumpEv_padBad (s : State) (c i n : Nat) : (s.bumpEv c i n).padBad = s.padBad := rfl
@[simp] theorem State.bumpEv_phys (s : State) (c i n : Nat) : (s.bumpEv c i n).phys = s.phys := rfl
@[simp] theorem State.bumpEv_hbmBad (s : State) (c i n : Nat) : (s.bumpEv c i n).hbmBad = s.hbmBad := rfl
@[simp] theorem State.bumpEv_tagBad (s : State) (c i n : Nat) : (s.bumpEv c i n).tagBad = s.tagBad := rfl
@[simp] theorem State.bumpEv_wordGood (s : State) (c i n : Nat) : (s.bumpEv c i n).wordGood = s.wordGood := rfl
@[simp] theorem State.bumpEv_l2 (s : State) (c i n : Nat) : (s.bumpEv c i n).l2 = s.l2 := rfl
@[simp] theorem State.bumpEv_pcache (s : State) (c i n : Nat) : (s.bumpEv c i n).pcache = s.pcache := rfl
@[simp] theorem State.bumpEv_tlb (s : State) (c i n : Nat) : (s.bumpEv c i n).tlb = s.tlb := rfl
@[simp] theorem State.bumpEv_metas (s : State) (c i n : Nat) : (s.bumpEv c i n).metas = s.metas := rfl
@[simp] theorem State.bumpEv_vecs (s : State) (c i n : Nat) : (s.bumpEv c i n).vecs = s.vecs := rfl
@[simp] theorem State.bumpEv_flights (s : State) (c i n : Nat) : (s.bumpEv c i n).flights = s.flights := rfl
@[simp] theorem State.bumpEv_stamps (s : State) (c i n : Nat) : (s.bumpEv c i n).stamps = s.stamps := rfl
@[simp] theorem State.bumpEv_hostLines (s : State) (c i n : Nat) : (s.bumpEv c i n).hostLines = s.hostLines := rfl
@[simp] theorem State.bumpEv_bisnp (s : State) (c i n : Nat) : (s.bumpEv c i n).bisnp = s.bisnp := rfl
@[simp] theorem State.bumpEv_collected (s : State) (c i n : Nat) : (s.bumpEv c i n).collected = s.collected := rfl
@[simp] theorem State.bumpEv_devQ (s : State) (c i n : Nat) : (s.bumpEv c i n).devQ = s.devQ := rfl
@[simp] theorem State.bumpEv_hostData (s : State) (c i n : Nat) : (s.bumpEv c i n).hostData = s.hostData := rfl
@[simp] theorem State.bumpEv_reins (s : State) (c i n : Nat) : (s.bumpEv c i n).reins = s.reins := rfl
@[simp] theorem State.bumpEv_stoppedGroups (s : State) (c i n : Nat) : (s.bumpEv c i n).stoppedGroups = s.stoppedGroups := rfl
@[simp] theorem State.bumpEv_saved (s : State) (c i n : Nat) : (s.bumpEv c i n).saved = s.saved := rfl
@[simp] theorem State.bumpEv_collSeq (s : State) (c i n : Nat) : (s.bumpEv c i n).collSeq = s.collSeq := rfl
@[simp] theorem State.bumpEv_ready (s : State) (c i n : Nat) : (s.bumpEv c i n).ready = s.ready := rfl
@[simp] theorem State.bumpEv_failed (s : State) (c i n : Nat) : (s.bumpEv c i n).failed = s.failed := rfl
@[simp] theorem State.bumpEv_clients (s : State) (c i n : Nat) : (s.bumpEv c i n).clients = s.clients := rfl
@[simp] theorem State.bumpEv_apBase (s : State) (c i n : Nat) : (s.bumpEv c i n).apBase = s.apBase := rfl
@[simp] theorem State.bumpEv_trapEnt (s : State) (c i n : Nat) : (s.bumpEv c i n).trapEnt = s.trapEnt := rfl
@[simp] theorem State.bumpEv_versions (s : State) (c i n : Nat) : (s.bumpEv c i n).versions = s.versions := rfl
@[simp] theorem State.bumpEv_ctlRes (s : State) (c i n : Nat) : (s.bumpEv c i n).ctlRes = s.ctlRes := rfl
@[simp] theorem State.bumpEv_resumeReqs (s : State) (c i n : Nat) : (s.bumpEv c i n).resumeReqs = s.resumeReqs := rfl
@[simp] theorem State.bumpEv_spillWrote (s : State) (c i n : Nat) : (s.bumpEv c i n).spillWrote = s.spillWrote := rfl
@[simp] theorem State.bumpEv_fltRing (s : State) (c i n : Nat) : (s.bumpEv c i n).fltRing = s.fltRing := rfl
@[simp] theorem State.bumpEv_spillQ (s : State) (c i n : Nat) : (s.bumpEv c i n).spillQ = s.spillQ := rfl
@[simp] theorem State.bumpEv_procBase (s : State) (c i n : Nat) : (s.bumpEv c i n).procBase = s.procBase := rfl
@[simp] theorem State.bumpEv_ptBase (s : State) (c i n : Nat) : (s.bumpEv c i n).ptBase = s.ptBase := rfl
@[simp] theorem State.bumpEv_aliasTab (s : State) (c i n : Nat) : (s.bumpEv c i n).aliasTab = s.aliasTab := rfl
@[simp] theorem State.bumpEv_cap (s : State) (c i n : Nat) : (s.bumpEv c i n).cap = s.cap := rfl
@[simp] theorem State.bumpEv_clkStep (s : State) (c i n : Nat) : (s.bumpEv c i n).clkStep = s.clkStep := rfl
@[simp] theorem State.bumpEv_therm (s : State) (c i n : Nat) : (s.bumpEv c i n).therm = s.therm := rfl
@[simp] theorem State.bumpEv_pwrP (s : State) (c i n : Nat) : (s.bumpEv c i n).pwrP = s.pwrP := rfl
@[simp] theorem State.bumpEv_pwrLow (s : State) (c i n : Nat) : (s.bumpEv c i n).pwrLow = s.pwrLow := rfl
@[simp] theorem State.bumpEv_pwrHigh (s : State) (c i n : Nat) : (s.bumpEv c i n).pwrHigh = s.pwrHigh := rfl
@[simp] theorem State.bumpEv_pwrTick (s : State) (c i n : Nat) : (s.bumpEv c i n).pwrTick = s.pwrTick := rfl
@[simp] theorem State.bumpEv_thermTick (s : State) (c i n : Nat) : (s.bumpEv c i n).thermTick = s.thermTick := rfl
@[simp] theorem State.bumpEv_hostWait (s : State) (c i n : Nat) : (s.bumpEv c i n).hostWait = s.hostWait := rfl
@[simp] theorem State.bumpEv_cxlOpen (s : State) (c i n : Nat) : (s.bumpEv c i n).cxlOpen = s.cxlOpen := rfl
@[simp] theorem State.bumpEv_cxlDone (s : State) (c i n : Nat) : (s.bumpEv c i n).cxlDone = s.cxlDone := rfl
@[simp] theorem State.bumpEv_meas (s : State) (c i n : Nat) : (s.bumpEv c i n).meas = s.meas := rfl
@[simp] theorem State.bumpEv_measErr (s : State) (c i n : Nat) : (s.bumpEv c i n).measErr = s.measErr := rfl
@[simp] theorem State.bumpEv_measFull (s : State) (c i n : Nat) : (s.bumpEv c i n).measFull = s.measFull := rfl
@[simp] theorem State.bumpEv_attest (s : State) (c i n : Nat) : (s.bumpEv c i n).attest = s.attest := rfl
@[simp] theorem State.bumpEv_quote (s : State) (c i n : Nat) : (s.bumpEv c i n).quote = s.quote := rfl
@[simp] theorem State.bumpEv_qstat (s : State) (c i n : Nat) : (s.bumpEv c i n).qstat = s.qstat := rfl
@[simp] theorem State.bumpEv_signed (s : State) (c i n : Nat) : (s.bumpEv c i n).signed = s.signed := rfl
@[simp] theorem State.bumpEv_openCount (s : State) (c i n : Nat) : (s.bumpEv c i n).openCount = s.openCount := rfl
@[simp] theorem State.bumpEv_dbg (s : State) (c i n : Nat) : (s.bumpEv c i n).dbg = s.dbg := rfl
@[simp] theorem State.bumpEv_halted (s : State) (c i n : Nat) : (s.bumpEv c i n).halted = s.halted := rfl
@[simp] theorem State.bumpEv_errors (s : State) (c i n : Nat) : (s.bumpEv c i n).errors = s.errors := rfl
@[simp] theorem State.bumpEv_cxlioErrs (s : State) (c i n : Nat) : (s.bumpEv c i n).cxlioErrs = s.cxlioErrs := rfl
@[simp] theorem State.bumpEv_retired (s : State) (c i n : Nat) : (s.bumpEv c i n).retired = s.retired := rfl
@[simp] theorem State.bumpEv_tandemCfg (s : State) (c i n : Nat) : (s.bumpEv c i n).tandemCfg = s.tandemCfg := rfl
@[simp] theorem State.bumpEv_hostDown (s : State) (c i n : Nat) : (s.bumpEv c i n).hostDown = s.hostDown := rfl
@[simp] theorem State.bumpEv_peerSize (s : State) (c i n : Nat) : (s.bumpEv c i n).peerSize = s.peerSize := rfl
@[simp] theorem State.bumpEv_peerOut (s : State) (c i n : Nat) : (s.bumpEv c i n).peerOut = s.peerOut := rfl
@[simp] theorem State.bumpEv_peerMsgs (s : State) (c i n : Nat) : (s.bumpEv c i n).peerMsgs = s.peerMsgs := rfl
@[simp] theorem State.bumpEv_peerCtrl (s : State) (c i n : Nat) : (s.bumpEv c i n).peerCtrl = s.peerCtrl := rfl
@[simp] theorem State.bumpEv_peerColl (s : State) (c i n : Nat) : (s.bumpEv c i n).peerColl = s.peerColl := rfl
@[simp] theorem State.bumpEv_peerSends (s : State) (c i n : Nat) : (s.bumpEv c i n).peerSends = s.peerSends := rfl
@[simp] theorem State.bumpEv_discardTick (s : State) (c i n : Nat) : (s.bumpEv c i n).discardTick = s.discardTick := rfl
@[simp] theorem State.bumpEv_tandemArmed (s : State) (c i n : Nat) : (s.bumpEv c i n).tandemArmed = s.tandemArmed := rfl

@[simp] theorem State.countRetired_turns (s : State) : (s.countRetired).turns = s.turns := rfl
@[simp] theorem State.countRetired_curCore (s : State) : (s.countRetired).curCore = s.curCore := rfl
@[simp] theorem State.countRetired_curSlot (s : State) : (s.countRetired).curSlot = s.curSlot := rfl
@[simp] theorem State.countRetired_fresh (s : State) : (s.countRetired).fresh = s.fresh := rfl
@[simp] theorem State.countRetired_coresen (s : State) : (s.countRetired).coresen = s.coresen := rfl
@[simp] theorem State.countRetired_tick (s : State) : (s.countRetired).tick = s.tick := rfl
@[simp] theorem State.countRetired_tickWait (s : State) : (s.countRetired).tickWait = s.tickWait := rfl
@[simp] theorem State.countRetired_pad (s : State) : (s.countRetired).pad = s.pad := rfl
@[simp] theorem State.countRetired_padBad (s : State) : (s.countRetired).padBad = s.padBad := rfl
@[simp] theorem State.countRetired_phys (s : State) : (s.countRetired).phys = s.phys := rfl
@[simp] theorem State.countRetired_hbmBad (s : State) : (s.countRetired).hbmBad = s.hbmBad := rfl
@[simp] theorem State.countRetired_tagBad (s : State) : (s.countRetired).tagBad = s.tagBad := rfl
@[simp] theorem State.countRetired_wordGood (s : State) : (s.countRetired).wordGood = s.wordGood := rfl
@[simp] theorem State.countRetired_l2 (s : State) : (s.countRetired).l2 = s.l2 := rfl
@[simp] theorem State.countRetired_pcache (s : State) : (s.countRetired).pcache = s.pcache := rfl
@[simp] theorem State.countRetired_tlb (s : State) : (s.countRetired).tlb = s.tlb := rfl
@[simp] theorem State.countRetired_metas (s : State) : (s.countRetired).metas = s.metas := rfl
@[simp] theorem State.countRetired_vecs (s : State) : (s.countRetired).vecs = s.vecs := rfl
@[simp] theorem State.countRetired_flights (s : State) : (s.countRetired).flights = s.flights := rfl
@[simp] theorem State.countRetired_stamps (s : State) : (s.countRetired).stamps = s.stamps := rfl
@[simp] theorem State.countRetired_hostLines (s : State) : (s.countRetired).hostLines = s.hostLines := rfl
@[simp] theorem State.countRetired_bisnp (s : State) : (s.countRetired).bisnp = s.bisnp := rfl
@[simp] theorem State.countRetired_collected (s : State) : (s.countRetired).collected = s.collected := rfl
@[simp] theorem State.countRetired_devQ (s : State) : (s.countRetired).devQ = s.devQ := rfl
@[simp] theorem State.countRetired_hostData (s : State) : (s.countRetired).hostData = s.hostData := rfl
@[simp] theorem State.countRetired_reins (s : State) : (s.countRetired).reins = s.reins := rfl
@[simp] theorem State.countRetired_stoppedGroups (s : State) : (s.countRetired).stoppedGroups = s.stoppedGroups := rfl
@[simp] theorem State.countRetired_saved (s : State) : (s.countRetired).saved = s.saved := rfl
@[simp] theorem State.countRetired_collSeq (s : State) : (s.countRetired).collSeq = s.collSeq := rfl
@[simp] theorem State.countRetired_ready (s : State) : (s.countRetired).ready = s.ready := rfl
@[simp] theorem State.countRetired_failed (s : State) : (s.countRetired).failed = s.failed := rfl
@[simp] theorem State.countRetired_clients (s : State) : (s.countRetired).clients = s.clients := rfl
@[simp] theorem State.countRetired_apBase (s : State) : (s.countRetired).apBase = s.apBase := rfl
@[simp] theorem State.countRetired_trapEnt (s : State) : (s.countRetired).trapEnt = s.trapEnt := rfl
@[simp] theorem State.countRetired_versions (s : State) : (s.countRetired).versions = s.versions := rfl
@[simp] theorem State.countRetired_ctlRes (s : State) : (s.countRetired).ctlRes = s.ctlRes := rfl
@[simp] theorem State.countRetired_resumeReqs (s : State) : (s.countRetired).resumeReqs = s.resumeReqs := rfl
@[simp] theorem State.countRetired_spillWrote (s : State) : (s.countRetired).spillWrote = s.spillWrote := rfl
@[simp] theorem State.countRetired_fltRing (s : State) : (s.countRetired).fltRing = s.fltRing := rfl
@[simp] theorem State.countRetired_spillQ (s : State) : (s.countRetired).spillQ = s.spillQ := rfl
@[simp] theorem State.countRetired_procBase (s : State) : (s.countRetired).procBase = s.procBase := rfl
@[simp] theorem State.countRetired_ptBase (s : State) : (s.countRetired).ptBase = s.ptBase := rfl
@[simp] theorem State.countRetired_aliasTab (s : State) : (s.countRetired).aliasTab = s.aliasTab := rfl
@[simp] theorem State.countRetired_cap (s : State) : (s.countRetired).cap = s.cap := rfl
@[simp] theorem State.countRetired_clkStep (s : State) : (s.countRetired).clkStep = s.clkStep := rfl
@[simp] theorem State.countRetired_therm (s : State) : (s.countRetired).therm = s.therm := rfl
@[simp] theorem State.countRetired_pwrP (s : State) : (s.countRetired).pwrP = s.pwrP := rfl
@[simp] theorem State.countRetired_pwrLow (s : State) : (s.countRetired).pwrLow = s.pwrLow := rfl
@[simp] theorem State.countRetired_pwrHigh (s : State) : (s.countRetired).pwrHigh = s.pwrHigh := rfl
@[simp] theorem State.countRetired_pwrTick (s : State) : (s.countRetired).pwrTick = s.pwrTick := rfl
@[simp] theorem State.countRetired_thermTick (s : State) : (s.countRetired).thermTick = s.thermTick := rfl
@[simp] theorem State.countRetired_hostWait (s : State) : (s.countRetired).hostWait = s.hostWait := rfl
@[simp] theorem State.countRetired_cxlOpen (s : State) : (s.countRetired).cxlOpen = s.cxlOpen := rfl
@[simp] theorem State.countRetired_cxlDone (s : State) : (s.countRetired).cxlDone = s.cxlDone := rfl
@[simp] theorem State.countRetired_meas (s : State) : (s.countRetired).meas = s.meas := rfl
@[simp] theorem State.countRetired_measErr (s : State) : (s.countRetired).measErr = s.measErr := rfl
@[simp] theorem State.countRetired_measFull (s : State) : (s.countRetired).measFull = s.measFull := rfl
@[simp] theorem State.countRetired_attest (s : State) : (s.countRetired).attest = s.attest := rfl
@[simp] theorem State.countRetired_quote (s : State) : (s.countRetired).quote = s.quote := rfl
@[simp] theorem State.countRetired_qstat (s : State) : (s.countRetired).qstat = s.qstat := rfl
@[simp] theorem State.countRetired_signed (s : State) : (s.countRetired).signed = s.signed := rfl
@[simp] theorem State.countRetired_openCount (s : State) : (s.countRetired).openCount = s.openCount := rfl
@[simp] theorem State.countRetired_dbg (s : State) : (s.countRetired).dbg = s.dbg := rfl
@[simp] theorem State.countRetired_halted (s : State) : (s.countRetired).halted = s.halted := rfl
@[simp] theorem State.countRetired_errors (s : State) : (s.countRetired).errors = s.errors := rfl
@[simp] theorem State.countRetired_cxlioErrs (s : State) : (s.countRetired).cxlioErrs = s.cxlioErrs := rfl
@[simp] theorem State.countRetired_retired (s : State) : (s.countRetired).retired = s.retired := rfl
@[simp] theorem State.countRetired_tandemCfg (s : State) : (s.countRetired).tandemCfg = s.tandemCfg := rfl
@[simp] theorem State.countRetired_hostDown (s : State) : (s.countRetired).hostDown = s.hostDown := rfl
@[simp] theorem State.countRetired_peerSize (s : State) : (s.countRetired).peerSize = s.peerSize := rfl
@[simp] theorem State.countRetired_peerOut (s : State) : (s.countRetired).peerOut = s.peerOut := rfl
@[simp] theorem State.countRetired_peerMsgs (s : State) : (s.countRetired).peerMsgs = s.peerMsgs := rfl
@[simp] theorem State.countRetired_peerCtrl (s : State) : (s.countRetired).peerCtrl = s.peerCtrl := rfl
@[simp] theorem State.countRetired_peerColl (s : State) : (s.countRetired).peerColl = s.peerColl := rfl
@[simp] theorem State.countRetired_peerSends (s : State) : (s.countRetired).peerSends = s.peerSends := rfl
@[simp] theorem State.countRetired_discardTick (s : State) : (s.countRetired).discardTick = s.discardTick := rfl
@[simp] theorem State.countRetired_tandemArmed (s : State) : (s.countRetired).tandemArmed = s.tandemArmed := rfl

@[simp] theorem State.retire_turns (s : State) (words : Nat) : (s.retire words).turns = s.turns := rfl
@[simp] theorem State.retire_curCore (s : State) (words : Nat) : (s.retire words).curCore = s.curCore := rfl
@[simp] theorem State.retire_curSlot (s : State) (words : Nat) : (s.retire words).curSlot = s.curSlot := rfl
@[simp] theorem State.retire_fresh (s : State) (words : Nat) : (s.retire words).fresh = s.fresh := rfl
@[simp] theorem State.retire_coresen (s : State) (words : Nat) : (s.retire words).coresen = s.coresen := rfl
@[simp] theorem State.retire_tick (s : State) (words : Nat) : (s.retire words).tick = s.tick := rfl
@[simp] theorem State.retire_tickWait (s : State) (words : Nat) : (s.retire words).tickWait = s.tickWait := rfl
@[simp] theorem State.retire_pad (s : State) (words : Nat) : (s.retire words).pad = s.pad := rfl
@[simp] theorem State.retire_padBad (s : State) (words : Nat) : (s.retire words).padBad = s.padBad := rfl
@[simp] theorem State.retire_phys (s : State) (words : Nat) : (s.retire words).phys = s.phys := rfl
@[simp] theorem State.retire_hbmBad (s : State) (words : Nat) : (s.retire words).hbmBad = s.hbmBad := rfl
@[simp] theorem State.retire_tagBad (s : State) (words : Nat) : (s.retire words).tagBad = s.tagBad := rfl
@[simp] theorem State.retire_wordGood (s : State) (words : Nat) : (s.retire words).wordGood = s.wordGood := rfl
@[simp] theorem State.retire_l2 (s : State) (words : Nat) : (s.retire words).l2 = s.l2 := rfl
@[simp] theorem State.retire_pcache (s : State) (words : Nat) : (s.retire words).pcache = s.pcache := rfl
@[simp] theorem State.retire_tlb (s : State) (words : Nat) : (s.retire words).tlb = s.tlb := rfl
@[simp] theorem State.retire_metas (s : State) (words : Nat) : (s.retire words).metas = s.metas := rfl
@[simp] theorem State.retire_vecs (s : State) (words : Nat) : (s.retire words).vecs = s.vecs := rfl
@[simp] theorem State.retire_flights (s : State) (words : Nat) : (s.retire words).flights = s.flights := rfl
@[simp] theorem State.retire_stamps (s : State) (words : Nat) : (s.retire words).stamps = s.stamps := rfl
@[simp] theorem State.retire_hostLines (s : State) (words : Nat) : (s.retire words).hostLines = s.hostLines := rfl
@[simp] theorem State.retire_bisnp (s : State) (words : Nat) : (s.retire words).bisnp = s.bisnp := rfl
@[simp] theorem State.retire_collected (s : State) (words : Nat) : (s.retire words).collected = s.collected := rfl
@[simp] theorem State.retire_devQ (s : State) (words : Nat) : (s.retire words).devQ = s.devQ := rfl
@[simp] theorem State.retire_hostData (s : State) (words : Nat) : (s.retire words).hostData = s.hostData := rfl
@[simp] theorem State.retire_reins (s : State) (words : Nat) : (s.retire words).reins = s.reins := rfl
@[simp] theorem State.retire_stoppedGroups (s : State) (words : Nat) : (s.retire words).stoppedGroups = s.stoppedGroups := rfl
@[simp] theorem State.retire_saved (s : State) (words : Nat) : (s.retire words).saved = s.saved := rfl
@[simp] theorem State.retire_collSeq (s : State) (words : Nat) : (s.retire words).collSeq = s.collSeq := rfl
@[simp] theorem State.retire_ready (s : State) (words : Nat) : (s.retire words).ready = s.ready := rfl
@[simp] theorem State.retire_failed (s : State) (words : Nat) : (s.retire words).failed = s.failed := rfl
@[simp] theorem State.retire_clients (s : State) (words : Nat) : (s.retire words).clients = s.clients := rfl
@[simp] theorem State.retire_apBase (s : State) (words : Nat) : (s.retire words).apBase = s.apBase := rfl
@[simp] theorem State.retire_trapEnt (s : State) (words : Nat) : (s.retire words).trapEnt = s.trapEnt := rfl
@[simp] theorem State.retire_versions (s : State) (words : Nat) : (s.retire words).versions = s.versions := rfl
@[simp] theorem State.retire_ctlRes (s : State) (words : Nat) : (s.retire words).ctlRes = s.ctlRes := rfl
@[simp] theorem State.retire_resumeReqs (s : State) (words : Nat) : (s.retire words).resumeReqs = s.resumeReqs := rfl
@[simp] theorem State.retire_spillWrote (s : State) (words : Nat) : (s.retire words).spillWrote = s.spillWrote := rfl
@[simp] theorem State.retire_fltRing (s : State) (words : Nat) : (s.retire words).fltRing = s.fltRing := rfl
@[simp] theorem State.retire_spillQ (s : State) (words : Nat) : (s.retire words).spillQ = s.spillQ := rfl
@[simp] theorem State.retire_procBase (s : State) (words : Nat) : (s.retire words).procBase = s.procBase := rfl
@[simp] theorem State.retire_ptBase (s : State) (words : Nat) : (s.retire words).ptBase = s.ptBase := rfl
@[simp] theorem State.retire_aliasTab (s : State) (words : Nat) : (s.retire words).aliasTab = s.aliasTab := rfl
@[simp] theorem State.retire_cap (s : State) (words : Nat) : (s.retire words).cap = s.cap := rfl
@[simp] theorem State.retire_clkStep (s : State) (words : Nat) : (s.retire words).clkStep = s.clkStep := rfl
@[simp] theorem State.retire_therm (s : State) (words : Nat) : (s.retire words).therm = s.therm := rfl
@[simp] theorem State.retire_pwrP (s : State) (words : Nat) : (s.retire words).pwrP = s.pwrP := rfl
@[simp] theorem State.retire_pwrLow (s : State) (words : Nat) : (s.retire words).pwrLow = s.pwrLow := rfl
@[simp] theorem State.retire_pwrHigh (s : State) (words : Nat) : (s.retire words).pwrHigh = s.pwrHigh := rfl
@[simp] theorem State.retire_pwrTick (s : State) (words : Nat) : (s.retire words).pwrTick = s.pwrTick := rfl
@[simp] theorem State.retire_thermTick (s : State) (words : Nat) : (s.retire words).thermTick = s.thermTick := rfl
@[simp] theorem State.retire_hostWait (s : State) (words : Nat) : (s.retire words).hostWait = s.hostWait := rfl
@[simp] theorem State.retire_cxlOpen (s : State) (words : Nat) : (s.retire words).cxlOpen = s.cxlOpen := rfl
@[simp] theorem State.retire_cxlDone (s : State) (words : Nat) : (s.retire words).cxlDone = s.cxlDone := rfl
@[simp] theorem State.retire_meas (s : State) (words : Nat) : (s.retire words).meas = s.meas := rfl
@[simp] theorem State.retire_measErr (s : State) (words : Nat) : (s.retire words).measErr = s.measErr := rfl
@[simp] theorem State.retire_measFull (s : State) (words : Nat) : (s.retire words).measFull = s.measFull := rfl
@[simp] theorem State.retire_attest (s : State) (words : Nat) : (s.retire words).attest = s.attest := rfl
@[simp] theorem State.retire_quote (s : State) (words : Nat) : (s.retire words).quote = s.quote := rfl
@[simp] theorem State.retire_qstat (s : State) (words : Nat) : (s.retire words).qstat = s.qstat := rfl
@[simp] theorem State.retire_signed (s : State) (words : Nat) : (s.retire words).signed = s.signed := rfl
@[simp] theorem State.retire_openCount (s : State) (words : Nat) : (s.retire words).openCount = s.openCount := rfl
@[simp] theorem State.retire_dbg (s : State) (words : Nat) : (s.retire words).dbg = s.dbg := rfl
@[simp] theorem State.retire_halted (s : State) (words : Nat) : (s.retire words).halted = s.halted := rfl
@[simp] theorem State.retire_errors (s : State) (words : Nat) : (s.retire words).errors = s.errors := rfl
@[simp] theorem State.retire_cxlioErrs (s : State) (words : Nat) : (s.retire words).cxlioErrs = s.cxlioErrs := rfl
@[simp] theorem State.retire_retired (s : State) (words : Nat) : (s.retire words).retired = s.retired := rfl
@[simp] theorem State.retire_tandemCfg (s : State) (words : Nat) : (s.retire words).tandemCfg = s.tandemCfg := rfl
@[simp] theorem State.retire_hostDown (s : State) (words : Nat) : (s.retire words).hostDown = s.hostDown := rfl
@[simp] theorem State.retire_peerSize (s : State) (words : Nat) : (s.retire words).peerSize = s.peerSize := rfl
@[simp] theorem State.retire_peerOut (s : State) (words : Nat) : (s.retire words).peerOut = s.peerOut := rfl
@[simp] theorem State.retire_peerMsgs (s : State) (words : Nat) : (s.retire words).peerMsgs = s.peerMsgs := rfl
@[simp] theorem State.retire_peerCtrl (s : State) (words : Nat) : (s.retire words).peerCtrl = s.peerCtrl := rfl
@[simp] theorem State.retire_peerColl (s : State) (words : Nat) : (s.retire words).peerColl = s.peerColl := rfl
@[simp] theorem State.retire_peerSends (s : State) (words : Nat) : (s.retire words).peerSends = s.peerSends := rfl
@[simp] theorem State.retire_discardTick (s : State) (words : Nat) : (s.retire words).discardTick = s.discardTick := rfl
@[simp] theorem State.retire_tandemArmed (s : State) (words : Nat) : (s.retire words).tandemArmed = s.tandemArmed := rfl

/-! ### Fields of a core that an update of a context leaves -/

@[simp] theorem Core.setCtx_pid (k : Core) (slot : Nat) (x : Ctx) : (k.setCtx slot x).pid = k.pid := by
  unfold Core.setCtx; split <;> rfl
@[simp] theorem Core.setCtx_resident (k : Core) (slot : Nat) (x : Ctx) : (k.setCtx slot x).resident = k.resident := by
  unfold Core.setCtx; split <;> rfl
@[simp] theorem Core.setCtx_map (k : Core) (slot : Nat) (x : Ctx) : (k.setCtx slot x).map = k.map := by
  unfold Core.setCtx; split <;> rfl
@[simp] theorem Core.setCtx_grid (k : Core) (slot : Nat) (x : Ctx) : (k.setCtx slot x).grid = k.grid := by
  unfold Core.setCtx; split <;> rfl
@[simp] theorem Core.setCtx_tiles (k : Core) (slot : Nat) (x : Ctx) : (k.setCtx slot x).tiles = k.tiles := by
  unfold Core.setCtx; split <;> rfl
@[simp] theorem Core.setCtx_m (k : Core) (slot : Nat) (x : Ctx) : (k.setCtx slot x).m = k.m := by
  unfold Core.setCtx; split <;> rfl
@[simp] theorem Core.setCtx_mfull (k : Core) (slot : Nat) (x : Ctx) : (k.setCtx slot x).mfull = k.mfull := by
  unfold Core.setCtx; split <;> rfl
@[simp] theorem Core.setCtx_mfrom (k : Core) (slot : Nat) (x : Ctx) : (k.setCtx slot x).mfrom = k.mfrom := by
  unfold Core.setCtx; split <;> rfl
@[simp] theorem Core.setCtx_handler (k : Core) (slot : Nat) (x : Ctx) : (k.setCtx slot x).handler = k.handler := by
  unfold Core.setCtx; split <;> rfl
@[simp] theorem Core.setCtx_tcs (k : Core) (slot : Nat) (x : Ctx) : (k.setCtx slot x).tcs = k.tcs := by
  unfold Core.setCtx; split <;> rfl
@[simp] theorem Core.setCtx_layouts (k : Core) (slot : Nat) (x : Ctx) : (k.setCtx slot x).layouts = k.layouts := by
  unfold Core.setCtx; split <;> rfl
@[simp] theorem Core.setCtx_deque (k : Core) (slot : Nat) (x : Ctx) : (k.setCtx slot x).deque = k.deque := by
  unfold Core.setCtx; split <;> rfl
@[simp] theorem Core.setCtx_spTasks (k : Core) (slot : Nat) (x : Ctx) : (k.setCtx slot x).spTasks = k.spTasks := by
  unfold Core.setCtx; split <;> rfl
@[simp] theorem Core.setCtx_inbox (k : Core) (slot : Nat) (x : Ctx) : (k.setCtx slot x).inbox = k.inbox := by
  unfold Core.setCtx; split <;> rfl
@[simp] theorem Core.setCtx_spInbox (k : Core) (slot : Nat) (x : Ctx) : (k.setCtx slot x).spInbox = k.spInbox := by
  unfold Core.setCtx; split <;> rfl
@[simp] theorem Core.setCtx_backlog (k : Core) (slot : Nat) (x : Ctx) : (k.setCtx slot x).backlog = k.backlog := by
  unfold Core.setCtx; split <;> rfl
@[simp] theorem Core.setCtx_spBacklog (k : Core) (slot : Nat) (x : Ctx) : (k.setCtx slot x).spBacklog = k.spBacklog := by
  unfold Core.setCtx; split <;> rfl
@[simp] theorem Core.setCtx_launchQ (k : Core) (slot : Nat) (x : Ctx) : (k.setCtx slot x).launchQ = k.launchQ := by
  unfold Core.setCtx; split <;> rfl
@[simp] theorem Core.setCtx_spLaunch (k : Core) (slot : Nat) (x : Ctx) : (k.setCtx slot x).spLaunch = k.spLaunch := by
  unfold Core.setCtx; split <;> rfl
@[simp] theorem Core.setCtx_inbound (k : Core) (slot : Nat) (x : Ctx) : (k.setCtx slot x).inbound = k.inbound := by
  unfold Core.setCtx; split <;> rfl
@[simp] theorem Core.setCtx_parked (k : Core) (slot : Nat) (x : Ctx) : (k.setCtx slot x).parked = k.parked := by
  unfold Core.setCtx; split <;> rfl
@[simp] theorem Core.setCtx_cmds (k : Core) (slot : Nat) (x : Ctx) : (k.setCtx slot x).cmds = k.cmds := by
  unfold Core.setCtx; split <;> rfl
@[simp] theorem Core.setCtx_rr (k : Core) (slot : Nat) (x : Ctx) : (k.setCtx slot x).rr = k.rr := by
  unfold Core.setCtx; split <;> rfl
@[simp] theorem Core.setCtx_cred (k : Core) (slot : Nat) (x : Ctx) : (k.setCtx slot x).cred = k.cred := by
  unfold Core.setCtx; split <;> rfl
@[simp] theorem Core.setCtx_stampBase (k : Core) (slot : Nat) (x : Ctx) : (k.setCtx slot x).stampBase = k.stampBase := by
  unfold Core.setCtx; split <;> rfl
@[simp] theorem Core.setCtx_stamps (k : Core) (slot : Nat) (x : Ctx) : (k.setCtx slot x).stamps = k.stamps := by
  unfold Core.setCtx; split <;> rfl
@[simp] theorem Core.setCtx_sampleAt (k : Core) (slot : Nat) (x : Ctx) : (k.setCtx slot x).sampleAt = k.sampleAt := by
  unfold Core.setCtx; split <;> rfl
@[simp] theorem Core.setCtx_ev (k : Core) (slot : Nat) (x : Ctx) : (k.setCtx slot x).ev = k.ev := by
  unfold Core.setCtx; split <;> rfl
@[simp] theorem Core.setCtx_dirPc (k : Core) (slot : Nat) (x : Ctx) : (k.setCtx slot x).dirPc = k.dirPc := by
  unfold Core.setCtx; split <;> rfl
@[simp] theorem Core.setCtx_dirArea (k : Core) (slot : Nat) (x : Ctx) : (k.setCtx slot x).dirArea = k.dirArea := by
  unfold Core.setCtx; split <;> rfl
@[simp] theorem Core.setCtx_dirReq (k : Core) (slot : Nat) (x : Ctx) : (k.setCtx slot x).dirReq = k.dirReq := by
  unfold Core.setCtx; split <;> rfl
@[simp] theorem Core.setCtx_dirQ (k : Core) (slot : Nat) (x : Ctx) : (k.setCtx slot x).dirQ = k.dirQ := by
  unfold Core.setCtx; split <;> rfl
@[simp] theorem Core.setCtx_bcast (k : Core) (slot : Nat) (x : Ctx) : (k.setCtx slot x).bcast = k.bcast := by
  unfold Core.setCtx; split <;> rfl
@[simp] theorem Core.setCtx_posted (k : Core) (slot : Nat) (x : Ctx) : (k.setCtx slot x).posted = k.posted := by
  unfold Core.setCtx; split <;> rfl
@[simp] theorem Core.setCtx_bps (k : Core) (slot : Nat) (x : Ctx) : (k.setCtx slot x).bps = k.bps := by
  unfold Core.setCtx; split <;> rfl
@[simp] theorem Core.setCtx_ctlStat (k : Core) (slot : Nat) (x : Ctx) : (k.setCtx slot x).ctlStat = k.ctlStat := by
  unfold Core.setCtx; split <;> rfl
@[simp] theorem Core.setCtx_preempt (k : Core) (slot : Nat) (x : Ctx) : (k.setCtx slot x).preempt = k.preempt := by
  unfold Core.setCtx; split <;> rfl
@[simp] theorem Core.setCtx_resumes (k : Core) (slot : Nat) (x : Ctx) : (k.setCtx slot x).resumes = k.resumes := by
  unfold Core.setCtx; split <;> rfl
@[simp] theorem Core.setCtx_switched (k : Core) (slot : Nat) (x : Ctx) : (k.setCtx slot x).switched = k.switched := by
  unfold Core.setCtx; split <;> rfl
@[simp] theorem Core.setCtx_steal (k : Core) (slot : Nat) (x : Ctx) : (k.setCtx slot x).steal = k.steal := by
  unfold Core.setCtx; split <;> rfl
@[simp] theorem Core.setCtx_icache (k : Core) (slot : Nat) (x : Ctx) : (k.setCtx slot x).icache = k.icache := by
  unfold Core.setCtx; split <;> rfl
@[simp] theorem Core.setCtx_ops (k : Core) (slot : Nat) (x : Ctx) : (k.setCtx slot x).ops = k.ops := by
  unfold Core.setCtx; split <;> rfl
@[simp] theorem Core.setCtx_banks (k : Core) (slot : Nat) (x : Ctx) : (k.setCtx slot x).banks = k.banks := by
  unfold Core.setCtx; split <;> rfl

/-! ### Fields of a context that an update of a register family leaves -/

@[simp] theorem Ctx.setS_st (c : Ctx) (n : Nat) (w : Word) : (c.setS n w).st = c.st := by
  unfold Ctx.setS; split <;> rfl
@[simp] theorem Ctx.setS_pc (c : Ctx) (n : Nat) (w : Word) : (c.setS n w).pc = c.pc := by
  unfold Ctx.setS; split <;> rfl
@[simp] theorem Ctx.setS_v (c : Ctx) (n : Nat) (w : Word) : (c.setS n w).v = c.v := by
  unfold Ctx.setS; split <;> rfl
@[simp] theorem Ctx.setS_k (c : Ctx) (n : Nat) (w : Word) : (c.setS n w).k = c.k := by
  unfold Ctx.setS; split <;> rfl
@[simp] theorem Ctx.setS_g (c : Ctx) (n : Nat) (w : Word) : (c.setS n w).g = c.g := by
  unfold Ctx.setS; split <;> rfl
@[simp] theorem Ctx.setS_gres (c : Ctx) (n : Nat) (w : Word) : (c.setS n w).gres = c.gres := by
  unfold Ctx.setS; split <;> rfl
@[simp] theorem Ctx.setS_b (c : Ctx) (n : Nat) (w : Word) : (c.setS n w).b = c.b := by
  unfold Ctx.setS; split <;> rfl
@[simp] theorem Ctx.setS_la (c : Ctx) (n : Nat) (w : Word) : (c.setS n w).la = c.la := by
  unfold Ctx.setS; split <;> rfl
@[simp] theorem Ctx.setS_lb (c : Ctx) (n : Nat) (w : Word) : (c.setS n w).lb = c.lb := by
  unfold Ctx.setS; split <;> rfl
@[simp] theorem Ctx.setS_tv (c : Ctx) (n : Nat) (w : Word) : (c.setS n w).tv = c.tv := by
  unfold Ctx.setS; split <;> rfl
@[simp] theorem Ctx.setS_held (c : Ctx) (n : Nat) (w : Word) : (c.setS n w).held = c.held := by
  unfold Ctx.setS; split <;> rfl
@[simp] theorem Ctx.setS_pend (c : Ctx) (n : Nat) (w : Word) : (c.setS n w).pend = c.pend := by
  unfold Ctx.setS; split <;> rfl
@[simp] theorem Ctx.setS_trapCause (c : Ctx) (n : Nat) (w : Word) : (c.setS n w).trapCause = c.trapCause := by
  unfold Ctx.setS; split <;> rfl
@[simp] theorem Ctx.setS_trapPc (c : Ctx) (n : Nat) (w : Word) : (c.setS n w).trapPc = c.trapPc := by
  unfold Ctx.setS; split <;> rfl
@[simp] theorem Ctx.setS_trapAddr (c : Ctx) (n : Nat) (w : Word) : (c.setS n w).trapAddr = c.trapAddr := by
  unfold Ctx.setS; split <;> rfl
@[simp] theorem Ctx.setS_inHandler (c : Ctx) (n : Nat) (w : Word) : (c.setS n w).inHandler = c.inHandler := by
  unfold Ctx.setS; split <;> rfl
@[simp] theorem Ctx.setS_priv (c : Ctx) (n : Nat) (w : Word) : (c.setS n w).priv = c.priv := by
  unfold Ctx.setS; split <;> rfl
@[simp] theorem Ctx.setS_group (c : Ctx) (n : Nat) (w : Word) : (c.setS n w).group = c.group := by
  unfold Ctx.setS; split <;> rfl
@[simp] theorem Ctx.setS_vcore (c : Ctx) (n : Nat) (w : Word) : (c.setS n w).vcore = c.vcore := by
  unfold Ctx.setS; split <;> rfl
@[simp] theorem Ctx.setS_domain (c : Ctx) (n : Nat) (w : Word) : (c.setS n w).domain = c.domain := by
  unfold Ctx.setS; split <;> rfl
@[simp] theorem Ctx.setS_cls (c : Ctx) (n : Nat) (w : Word) : (c.setS n w).cls = c.cls := by
  unfold Ctx.setS; split <;> rfl
@[simp] theorem Ctx.setS_major (c : Ctx) (n : Nat) (w : Word) : (c.setS n w).major = c.major := by
  unfold Ctx.setS; split <;> rfl
@[simp] theorem Ctx.setS_minor (c : Ctx) (n : Nat) (w : Word) : (c.setS n w).minor = c.minor := by
  unfold Ctx.setS; split <;> rfl
@[simp] theorem Ctx.setS_cell (c : Ctx) (n : Nat) (w : Word) : (c.setS n w).cell = c.cell := by
  unfold Ctx.setS; split <;> rfl
@[simp] theorem Ctx.setS_cellDone (c : Ctx) (n : Nat) (w : Word) : (c.setS n w).cellDone = c.cellDone := by
  unfold Ctx.setS; split <;> rfl
@[simp] theorem Ctx.setS_save (c : Ctx) (n : Nat) (w : Word) : (c.setS n w).save = c.save := by
  unfold Ctx.setS; split <;> rfl
@[simp] theorem Ctx.setS_full (c : Ctx) (n : Nat) (w : Word) : (c.setS n w).full = c.full := by
  unfold Ctx.setS; split <;> rfl
@[simp] theorem Ctx.setS_code (c : Ctx) (n : Nat) (w : Word) : (c.setS n w).code = c.code := by
  unfold Ctx.setS; split <;> rfl
@[simp] theorem Ctx.setS_wait (c : Ctx) (n : Nat) (w : Word) : (c.setS n w).wait = c.wait := by
  unfold Ctx.setS; split <;> rfl
@[simp] theorem Ctx.setS_since (c : Ctx) (n : Nat) (w : Word) : (c.setS n w).since = c.since := by
  unfold Ctx.setS; split <;> rfl
@[simp] theorem Ctx.setS_given (c : Ctx) (n : Nat) (w : Word) : (c.setS n w).given = c.given := by
  unfold Ctx.setS; split <;> rfl
@[simp] theorem Ctx.setS_stall (c : Ctx) (n : Nat) (w : Word) : (c.setS n w).stall = c.stall := by
  unfold Ctx.setS; split <;> rfl
@[simp] theorem Ctx.setS_now (c : Ctx) (n : Nat) (w : Word) : (c.setS n w).now = c.now := by
  unfold Ctx.setS; split <;> rfl
@[simp] theorem Ctx.setS_vw (c : Ctx) (n : Nat) (w : Word) : (c.setS n w).vw = c.vw := by
  unfold Ctx.setS; split <;> rfl
@[simp] theorem Ctx.setS_kw (c : Ctx) (n : Nat) (w : Word) : (c.setS n w).kw = c.kw := by
  unfold Ctx.setS; split <;> rfl
@[simp] theorem Ctx.setS_gw (c : Ctx) (n : Nat) (w : Word) : (c.setS n w).gw = c.gw := by
  unfold Ctx.setS; split <;> rfl
@[simp] theorem Ctx.setK_st (c : Ctx) (n : Nat) (r : List KRun) : (c.setK n r).st = c.st := by
  unfold Ctx.setK; split <;> rfl
@[simp] theorem Ctx.setK_pc (c : Ctx) (n : Nat) (r : List KRun) : (c.setK n r).pc = c.pc := by
  unfold Ctx.setK; split <;> rfl
@[simp] theorem Ctx.setK_s (c : Ctx) (n : Nat) (r : List KRun) : (c.setK n r).s = c.s := by
  unfold Ctx.setK; split <;> rfl
@[simp] theorem Ctx.setK_v (c : Ctx) (n : Nat) (r : List KRun) : (c.setK n r).v = c.v := by
  unfold Ctx.setK; split <;> rfl
@[simp] theorem Ctx.setK_g (c : Ctx) (n : Nat) (r : List KRun) : (c.setK n r).g = c.g := by
  unfold Ctx.setK; split <;> rfl
@[simp] theorem Ctx.setK_gres (c : Ctx) (n : Nat) (r : List KRun) : (c.setK n r).gres = c.gres := by
  unfold Ctx.setK; split <;> rfl
@[simp] theorem Ctx.setK_b (c : Ctx) (n : Nat) (r : List KRun) : (c.setK n r).b = c.b := by
  unfold Ctx.setK; split <;> rfl
@[simp] theorem Ctx.setK_la (c : Ctx) (n : Nat) (r : List KRun) : (c.setK n r).la = c.la := by
  unfold Ctx.setK; split <;> rfl
@[simp] theorem Ctx.setK_lb (c : Ctx) (n : Nat) (r : List KRun) : (c.setK n r).lb = c.lb := by
  unfold Ctx.setK; split <;> rfl
@[simp] theorem Ctx.setK_tv (c : Ctx) (n : Nat) (r : List KRun) : (c.setK n r).tv = c.tv := by
  unfold Ctx.setK; split <;> rfl
@[simp] theorem Ctx.setK_held (c : Ctx) (n : Nat) (r : List KRun) : (c.setK n r).held = c.held := by
  unfold Ctx.setK; split <;> rfl
@[simp] theorem Ctx.setK_pend (c : Ctx) (n : Nat) (r : List KRun) : (c.setK n r).pend = c.pend := by
  unfold Ctx.setK; split <;> rfl
@[simp] theorem Ctx.setK_trapCause (c : Ctx) (n : Nat) (r : List KRun) : (c.setK n r).trapCause = c.trapCause := by
  unfold Ctx.setK; split <;> rfl
@[simp] theorem Ctx.setK_trapPc (c : Ctx) (n : Nat) (r : List KRun) : (c.setK n r).trapPc = c.trapPc := by
  unfold Ctx.setK; split <;> rfl
@[simp] theorem Ctx.setK_trapAddr (c : Ctx) (n : Nat) (r : List KRun) : (c.setK n r).trapAddr = c.trapAddr := by
  unfold Ctx.setK; split <;> rfl
@[simp] theorem Ctx.setK_inHandler (c : Ctx) (n : Nat) (r : List KRun) : (c.setK n r).inHandler = c.inHandler := by
  unfold Ctx.setK; split <;> rfl
@[simp] theorem Ctx.setK_priv (c : Ctx) (n : Nat) (r : List KRun) : (c.setK n r).priv = c.priv := by
  unfold Ctx.setK; split <;> rfl
@[simp] theorem Ctx.setK_group (c : Ctx) (n : Nat) (r : List KRun) : (c.setK n r).group = c.group := by
  unfold Ctx.setK; split <;> rfl
@[simp] theorem Ctx.setK_vcore (c : Ctx) (n : Nat) (r : List KRun) : (c.setK n r).vcore = c.vcore := by
  unfold Ctx.setK; split <;> rfl
@[simp] theorem Ctx.setK_domain (c : Ctx) (n : Nat) (r : List KRun) : (c.setK n r).domain = c.domain := by
  unfold Ctx.setK; split <;> rfl
@[simp] theorem Ctx.setK_cls (c : Ctx) (n : Nat) (r : List KRun) : (c.setK n r).cls = c.cls := by
  unfold Ctx.setK; split <;> rfl
@[simp] theorem Ctx.setK_major (c : Ctx) (n : Nat) (r : List KRun) : (c.setK n r).major = c.major := by
  unfold Ctx.setK; split <;> rfl
@[simp] theorem Ctx.setK_minor (c : Ctx) (n : Nat) (r : List KRun) : (c.setK n r).minor = c.minor := by
  unfold Ctx.setK; split <;> rfl
@[simp] theorem Ctx.setK_cell (c : Ctx) (n : Nat) (r : List KRun) : (c.setK n r).cell = c.cell := by
  unfold Ctx.setK; split <;> rfl
@[simp] theorem Ctx.setK_cellDone (c : Ctx) (n : Nat) (r : List KRun) : (c.setK n r).cellDone = c.cellDone := by
  unfold Ctx.setK; split <;> rfl
@[simp] theorem Ctx.setK_save (c : Ctx) (n : Nat) (r : List KRun) : (c.setK n r).save = c.save := by
  unfold Ctx.setK; split <;> rfl
@[simp] theorem Ctx.setK_full (c : Ctx) (n : Nat) (r : List KRun) : (c.setK n r).full = c.full := by
  unfold Ctx.setK; split <;> rfl
@[simp] theorem Ctx.setK_code (c : Ctx) (n : Nat) (r : List KRun) : (c.setK n r).code = c.code := by
  unfold Ctx.setK; split <;> rfl
@[simp] theorem Ctx.setK_wait (c : Ctx) (n : Nat) (r : List KRun) : (c.setK n r).wait = c.wait := by
  unfold Ctx.setK; split <;> rfl
@[simp] theorem Ctx.setK_since (c : Ctx) (n : Nat) (r : List KRun) : (c.setK n r).since = c.since := by
  unfold Ctx.setK; split <;> rfl
@[simp] theorem Ctx.setK_given (c : Ctx) (n : Nat) (r : List KRun) : (c.setK n r).given = c.given := by
  unfold Ctx.setK; split <;> rfl
@[simp] theorem Ctx.setK_stall (c : Ctx) (n : Nat) (r : List KRun) : (c.setK n r).stall = c.stall := by
  unfold Ctx.setK; split <;> rfl
@[simp] theorem Ctx.setK_now (c : Ctx) (n : Nat) (r : List KRun) : (c.setK n r).now = c.now := by
  unfold Ctx.setK; split <;> rfl
@[simp] theorem Ctx.setK_sw (c : Ctx) (n : Nat) (r : List KRun) : (c.setK n r).sw = c.sw := by
  unfold Ctx.setK; split <;> rfl
@[simp] theorem Ctx.setK_vw (c : Ctx) (n : Nat) (r : List KRun) : (c.setK n r).vw = c.vw := by
  unfold Ctx.setK; split <;> rfl
@[simp] theorem Ctx.setK_gw (c : Ctx) (n : Nat) (r : List KRun) : (c.setK n r).gw = c.gw := by
  unfold Ctx.setK; split <;> rfl
@[simp] theorem Ctx.setV_st (c : Ctx) (n : Nat) (r : List Run) : (c.setV n r).st = c.st := rfl
@[simp] theorem Ctx.setV_pc (c : Ctx) (n : Nat) (r : List Run) : (c.setV n r).pc = c.pc := rfl
@[simp] theorem Ctx.setV_s (c : Ctx) (n : Nat) (r : List Run) : (c.setV n r).s = c.s := rfl
@[simp] theorem Ctx.setV_k (c : Ctx) (n : Nat) (r : List Run) : (c.setV n r).k = c.k := rfl
@[simp] theorem Ctx.setV_g (c : Ctx) (n : Nat) (r : List Run) : (c.setV n r).g = c.g := rfl
@[simp] theorem Ctx.setV_gres (c : Ctx) (n : Nat) (r : List Run) : (c.setV n r).gres = c.gres := rfl
@[simp] theorem Ctx.setV_b (c : Ctx) (n : Nat) (r : List Run) : (c.setV n r).b = c.b := rfl
@[simp] theorem Ctx.setV_la (c : Ctx) (n : Nat) (r : List Run) : (c.setV n r).la = c.la := rfl
@[simp] theorem Ctx.setV_lb (c : Ctx) (n : Nat) (r : List Run) : (c.setV n r).lb = c.lb := rfl
@[simp] theorem Ctx.setV_tv (c : Ctx) (n : Nat) (r : List Run) : (c.setV n r).tv = c.tv := rfl
@[simp] theorem Ctx.setV_held (c : Ctx) (n : Nat) (r : List Run) : (c.setV n r).held = c.held := rfl
@[simp] theorem Ctx.setV_pend (c : Ctx) (n : Nat) (r : List Run) : (c.setV n r).pend = c.pend := rfl
@[simp] theorem Ctx.setV_trapCause (c : Ctx) (n : Nat) (r : List Run) : (c.setV n r).trapCause = c.trapCause := rfl
@[simp] theorem Ctx.setV_trapPc (c : Ctx) (n : Nat) (r : List Run) : (c.setV n r).trapPc = c.trapPc := rfl
@[simp] theorem Ctx.setV_trapAddr (c : Ctx) (n : Nat) (r : List Run) : (c.setV n r).trapAddr = c.trapAddr := rfl
@[simp] theorem Ctx.setV_inHandler (c : Ctx) (n : Nat) (r : List Run) : (c.setV n r).inHandler = c.inHandler := rfl
@[simp] theorem Ctx.setV_priv (c : Ctx) (n : Nat) (r : List Run) : (c.setV n r).priv = c.priv := rfl
@[simp] theorem Ctx.setV_group (c : Ctx) (n : Nat) (r : List Run) : (c.setV n r).group = c.group := rfl
@[simp] theorem Ctx.setV_vcore (c : Ctx) (n : Nat) (r : List Run) : (c.setV n r).vcore = c.vcore := rfl
@[simp] theorem Ctx.setV_domain (c : Ctx) (n : Nat) (r : List Run) : (c.setV n r).domain = c.domain := rfl
@[simp] theorem Ctx.setV_cls (c : Ctx) (n : Nat) (r : List Run) : (c.setV n r).cls = c.cls := rfl
@[simp] theorem Ctx.setV_major (c : Ctx) (n : Nat) (r : List Run) : (c.setV n r).major = c.major := rfl
@[simp] theorem Ctx.setV_minor (c : Ctx) (n : Nat) (r : List Run) : (c.setV n r).minor = c.minor := rfl
@[simp] theorem Ctx.setV_cell (c : Ctx) (n : Nat) (r : List Run) : (c.setV n r).cell = c.cell := rfl
@[simp] theorem Ctx.setV_cellDone (c : Ctx) (n : Nat) (r : List Run) : (c.setV n r).cellDone = c.cellDone := rfl
@[simp] theorem Ctx.setV_save (c : Ctx) (n : Nat) (r : List Run) : (c.setV n r).save = c.save := rfl
@[simp] theorem Ctx.setV_full (c : Ctx) (n : Nat) (r : List Run) : (c.setV n r).full = c.full := rfl
@[simp] theorem Ctx.setV_code (c : Ctx) (n : Nat) (r : List Run) : (c.setV n r).code = c.code := rfl
@[simp] theorem Ctx.setV_wait (c : Ctx) (n : Nat) (r : List Run) : (c.setV n r).wait = c.wait := rfl
@[simp] theorem Ctx.setV_since (c : Ctx) (n : Nat) (r : List Run) : (c.setV n r).since = c.since := rfl
@[simp] theorem Ctx.setV_given (c : Ctx) (n : Nat) (r : List Run) : (c.setV n r).given = c.given := rfl
@[simp] theorem Ctx.setV_stall (c : Ctx) (n : Nat) (r : List Run) : (c.setV n r).stall = c.stall := rfl
@[simp] theorem Ctx.setV_now (c : Ctx) (n : Nat) (r : List Run) : (c.setV n r).now = c.now := rfl
@[simp] theorem Ctx.setV_sw (c : Ctx) (n : Nat) (r : List Run) : (c.setV n r).sw = c.sw := rfl
@[simp] theorem Ctx.setV_kw (c : Ctx) (n : Nat) (r : List Run) : (c.setV n r).kw = c.kw := rfl
@[simp] theorem Ctx.setV_gw (c : Ctx) (n : Nat) (r : List Run) : (c.setV n r).gw = c.gw := rfl
@[simp] theorem Ctx.setG_st (c : Ctx) (n : Nat) (v : Bool) : (c.setG n v).st = c.st := rfl
@[simp] theorem Ctx.setG_pc (c : Ctx) (n : Nat) (v : Bool) : (c.setG n v).pc = c.pc := rfl
@[simp] theorem Ctx.setG_s (c : Ctx) (n : Nat) (v : Bool) : (c.setG n v).s = c.s := rfl
@[simp] theorem Ctx.setG_v (c : Ctx) (n : Nat) (v : Bool) : (c.setG n v).v = c.v := rfl
@[simp] theorem Ctx.setG_k (c : Ctx) (n : Nat) (v : Bool) : (c.setG n v).k = c.k := rfl
@[simp] theorem Ctx.setG_b (c : Ctx) (n : Nat) (v : Bool) : (c.setG n v).b = c.b := rfl
@[simp] theorem Ctx.setG_la (c : Ctx) (n : Nat) (v : Bool) : (c.setG n v).la = c.la := rfl
@[simp] theorem Ctx.setG_lb (c : Ctx) (n : Nat) (v : Bool) : (c.setG n v).lb = c.lb := rfl
@[simp] theorem Ctx.setG_tv (c : Ctx) (n : Nat) (v : Bool) : (c.setG n v).tv = c.tv := rfl
@[simp] theorem Ctx.setG_held (c : Ctx) (n : Nat) (v : Bool) : (c.setG n v).held = c.held := rfl
@[simp] theorem Ctx.setG_pend (c : Ctx) (n : Nat) (v : Bool) : (c.setG n v).pend = c.pend := rfl
@[simp] theorem Ctx.setG_trapCause (c : Ctx) (n : Nat) (v : Bool) : (c.setG n v).trapCause = c.trapCause := rfl
@[simp] theorem Ctx.setG_trapPc (c : Ctx) (n : Nat) (v : Bool) : (c.setG n v).trapPc = c.trapPc := rfl
@[simp] theorem Ctx.setG_trapAddr (c : Ctx) (n : Nat) (v : Bool) : (c.setG n v).trapAddr = c.trapAddr := rfl
@[simp] theorem Ctx.setG_inHandler (c : Ctx) (n : Nat) (v : Bool) : (c.setG n v).inHandler = c.inHandler := rfl
@[simp] theorem Ctx.setG_priv (c : Ctx) (n : Nat) (v : Bool) : (c.setG n v).priv = c.priv := rfl
@[simp] theorem Ctx.setG_group (c : Ctx) (n : Nat) (v : Bool) : (c.setG n v).group = c.group := rfl
@[simp] theorem Ctx.setG_vcore (c : Ctx) (n : Nat) (v : Bool) : (c.setG n v).vcore = c.vcore := rfl
@[simp] theorem Ctx.setG_domain (c : Ctx) (n : Nat) (v : Bool) : (c.setG n v).domain = c.domain := rfl
@[simp] theorem Ctx.setG_cls (c : Ctx) (n : Nat) (v : Bool) : (c.setG n v).cls = c.cls := rfl
@[simp] theorem Ctx.setG_major (c : Ctx) (n : Nat) (v : Bool) : (c.setG n v).major = c.major := rfl
@[simp] theorem Ctx.setG_minor (c : Ctx) (n : Nat) (v : Bool) : (c.setG n v).minor = c.minor := rfl
@[simp] theorem Ctx.setG_cell (c : Ctx) (n : Nat) (v : Bool) : (c.setG n v).cell = c.cell := rfl
@[simp] theorem Ctx.setG_cellDone (c : Ctx) (n : Nat) (v : Bool) : (c.setG n v).cellDone = c.cellDone := rfl
@[simp] theorem Ctx.setG_save (c : Ctx) (n : Nat) (v : Bool) : (c.setG n v).save = c.save := rfl
@[simp] theorem Ctx.setG_full (c : Ctx) (n : Nat) (v : Bool) : (c.setG n v).full = c.full := rfl
@[simp] theorem Ctx.setG_code (c : Ctx) (n : Nat) (v : Bool) : (c.setG n v).code = c.code := rfl
@[simp] theorem Ctx.setG_wait (c : Ctx) (n : Nat) (v : Bool) : (c.setG n v).wait = c.wait := rfl
@[simp] theorem Ctx.setG_since (c : Ctx) (n : Nat) (v : Bool) : (c.setG n v).since = c.since := rfl
@[simp] theorem Ctx.setG_given (c : Ctx) (n : Nat) (v : Bool) : (c.setG n v).given = c.given := rfl
@[simp] theorem Ctx.setG_stall (c : Ctx) (n : Nat) (v : Bool) : (c.setG n v).stall = c.stall := rfl
@[simp] theorem Ctx.setG_now (c : Ctx) (n : Nat) (v : Bool) : (c.setG n v).now = c.now := rfl
@[simp] theorem Ctx.setG_sw (c : Ctx) (n : Nat) (v : Bool) : (c.setG n v).sw = c.sw := rfl
@[simp] theorem Ctx.setG_vw (c : Ctx) (n : Nat) (v : Bool) : (c.setG n v).vw = c.vw := rfl
@[simp] theorem Ctx.setG_kw (c : Ctx) (n : Nat) (v : Bool) : (c.setG n v).kw = c.kw := rfl
@[simp] theorem Ctx.setB_st (c : Ctx) (slot t : Nat) (w : Word) (h : Option Nat) : (c.setB slot t w h).st = c.st := rfl
@[simp] theorem Ctx.setB_pc (c : Ctx) (slot t : Nat) (w : Word) (h : Option Nat) : (c.setB slot t w h).pc = c.pc := rfl
@[simp] theorem Ctx.setB_s (c : Ctx) (slot t : Nat) (w : Word) (h : Option Nat) : (c.setB slot t w h).s = c.s := rfl
@[simp] theorem Ctx.setB_v (c : Ctx) (slot t : Nat) (w : Word) (h : Option Nat) : (c.setB slot t w h).v = c.v := rfl
@[simp] theorem Ctx.setB_k (c : Ctx) (slot t : Nat) (w : Word) (h : Option Nat) : (c.setB slot t w h).k = c.k := rfl
@[simp] theorem Ctx.setB_g (c : Ctx) (slot t : Nat) (w : Word) (h : Option Nat) : (c.setB slot t w h).g = c.g := rfl
@[simp] theorem Ctx.setB_gres (c : Ctx) (slot t : Nat) (w : Word) (h : Option Nat) : (c.setB slot t w h).gres = c.gres := rfl
@[simp] theorem Ctx.setB_la (c : Ctx) (slot t : Nat) (w : Word) (h : Option Nat) : (c.setB slot t w h).la = c.la := rfl
@[simp] theorem Ctx.setB_lb (c : Ctx) (slot t : Nat) (w : Word) (h : Option Nat) : (c.setB slot t w h).lb = c.lb := rfl
@[simp] theorem Ctx.setB_tv (c : Ctx) (slot t : Nat) (w : Word) (h : Option Nat) : (c.setB slot t w h).tv = c.tv := rfl
@[simp] theorem Ctx.setB_held (c : Ctx) (slot t : Nat) (w : Word) (h : Option Nat) : (c.setB slot t w h).held = c.held := rfl
@[simp] theorem Ctx.setB_pend (c : Ctx) (slot t : Nat) (w : Word) (h : Option Nat) : (c.setB slot t w h).pend = c.pend := rfl
@[simp] theorem Ctx.setB_trapCause (c : Ctx) (slot t : Nat) (w : Word) (h : Option Nat) : (c.setB slot t w h).trapCause = c.trapCause := rfl
@[simp] theorem Ctx.setB_trapPc (c : Ctx) (slot t : Nat) (w : Word) (h : Option Nat) : (c.setB slot t w h).trapPc = c.trapPc := rfl
@[simp] theorem Ctx.setB_trapAddr (c : Ctx) (slot t : Nat) (w : Word) (h : Option Nat) : (c.setB slot t w h).trapAddr = c.trapAddr := rfl
@[simp] theorem Ctx.setB_inHandler (c : Ctx) (slot t : Nat) (w : Word) (h : Option Nat) : (c.setB slot t w h).inHandler = c.inHandler := rfl
@[simp] theorem Ctx.setB_priv (c : Ctx) (slot t : Nat) (w : Word) (h : Option Nat) : (c.setB slot t w h).priv = c.priv := rfl
@[simp] theorem Ctx.setB_group (c : Ctx) (slot t : Nat) (w : Word) (h : Option Nat) : (c.setB slot t w h).group = c.group := rfl
@[simp] theorem Ctx.setB_vcore (c : Ctx) (slot t : Nat) (w : Word) (h : Option Nat) : (c.setB slot t w h).vcore = c.vcore := rfl
@[simp] theorem Ctx.setB_domain (c : Ctx) (slot t : Nat) (w : Word) (h : Option Nat) : (c.setB slot t w h).domain = c.domain := rfl
@[simp] theorem Ctx.setB_cls (c : Ctx) (slot t : Nat) (w : Word) (h : Option Nat) : (c.setB slot t w h).cls = c.cls := rfl
@[simp] theorem Ctx.setB_major (c : Ctx) (slot t : Nat) (w : Word) (h : Option Nat) : (c.setB slot t w h).major = c.major := rfl
@[simp] theorem Ctx.setB_minor (c : Ctx) (slot t : Nat) (w : Word) (h : Option Nat) : (c.setB slot t w h).minor = c.minor := rfl
@[simp] theorem Ctx.setB_cell (c : Ctx) (slot t : Nat) (w : Word) (h : Option Nat) : (c.setB slot t w h).cell = c.cell := rfl
@[simp] theorem Ctx.setB_cellDone (c : Ctx) (slot t : Nat) (w : Word) (h : Option Nat) : (c.setB slot t w h).cellDone = c.cellDone := rfl
@[simp] theorem Ctx.setB_save (c : Ctx) (slot t : Nat) (w : Word) (h : Option Nat) : (c.setB slot t w h).save = c.save := rfl
@[simp] theorem Ctx.setB_full (c : Ctx) (slot t : Nat) (w : Word) (h : Option Nat) : (c.setB slot t w h).full = c.full := rfl
@[simp] theorem Ctx.setB_code (c : Ctx) (slot t : Nat) (w : Word) (h : Option Nat) : (c.setB slot t w h).code = c.code := rfl
@[simp] theorem Ctx.setB_wait (c : Ctx) (slot t : Nat) (w : Word) (h : Option Nat) : (c.setB slot t w h).wait = c.wait := rfl
@[simp] theorem Ctx.setB_since (c : Ctx) (slot t : Nat) (w : Word) (h : Option Nat) : (c.setB slot t w h).since = c.since := rfl
@[simp] theorem Ctx.setB_given (c : Ctx) (slot t : Nat) (w : Word) (h : Option Nat) : (c.setB slot t w h).given = c.given := rfl
@[simp] theorem Ctx.setB_stall (c : Ctx) (slot t : Nat) (w : Word) (h : Option Nat) : (c.setB slot t w h).stall = c.stall := rfl
@[simp] theorem Ctx.setB_now (c : Ctx) (slot t : Nat) (w : Word) (h : Option Nat) : (c.setB slot t w h).now = c.now := rfl
@[simp] theorem Ctx.setB_sw (c : Ctx) (slot t : Nat) (w : Word) (h : Option Nat) : (c.setB slot t w h).sw = c.sw := rfl
@[simp] theorem Ctx.setB_vw (c : Ctx) (slot t : Nat) (w : Word) (h : Option Nat) : (c.setB slot t w h).vw = c.vw := rfl
@[simp] theorem Ctx.setB_kw (c : Ctx) (slot t : Nat) (w : Word) (h : Option Nat) : (c.setB slot t w h).kw = c.kw := rfl
@[simp] theorem Ctx.setB_gw (c : Ctx) (slot t : Nat) (w : Word) (h : Option Nat) : (c.setB slot t w h).gw = c.gw := rfl
@[simp] theorem Ctx.latched_st (c : Ctx) (x y : Option Nat) : (c.latched x y).st = c.st := rfl
@[simp] theorem Ctx.latched_pc (c : Ctx) (x y : Option Nat) : (c.latched x y).pc = c.pc := rfl
@[simp] theorem Ctx.latched_s (c : Ctx) (x y : Option Nat) : (c.latched x y).s = c.s := rfl
@[simp] theorem Ctx.latched_v (c : Ctx) (x y : Option Nat) : (c.latched x y).v = c.v := rfl
@[simp] theorem Ctx.latched_k (c : Ctx) (x y : Option Nat) : (c.latched x y).k = c.k := rfl
@[simp] theorem Ctx.latched_g (c : Ctx) (x y : Option Nat) : (c.latched x y).g = c.g := rfl
@[simp] theorem Ctx.latched_gres (c : Ctx) (x y : Option Nat) : (c.latched x y).gres = c.gres := rfl
@[simp] theorem Ctx.latched_b (c : Ctx) (x y : Option Nat) : (c.latched x y).b = c.b := rfl
@[simp] theorem Ctx.latched_tv (c : Ctx) (x y : Option Nat) : (c.latched x y).tv = c.tv := rfl
@[simp] theorem Ctx.latched_held (c : Ctx) (x y : Option Nat) : (c.latched x y).held = c.held := rfl
@[simp] theorem Ctx.latched_pend (c : Ctx) (x y : Option Nat) : (c.latched x y).pend = c.pend := rfl
@[simp] theorem Ctx.latched_trapCause (c : Ctx) (x y : Option Nat) : (c.latched x y).trapCause = c.trapCause := rfl
@[simp] theorem Ctx.latched_trapPc (c : Ctx) (x y : Option Nat) : (c.latched x y).trapPc = c.trapPc := rfl
@[simp] theorem Ctx.latched_trapAddr (c : Ctx) (x y : Option Nat) : (c.latched x y).trapAddr = c.trapAddr := rfl
@[simp] theorem Ctx.latched_inHandler (c : Ctx) (x y : Option Nat) : (c.latched x y).inHandler = c.inHandler := rfl
@[simp] theorem Ctx.latched_priv (c : Ctx) (x y : Option Nat) : (c.latched x y).priv = c.priv := rfl
@[simp] theorem Ctx.latched_group (c : Ctx) (x y : Option Nat) : (c.latched x y).group = c.group := rfl
@[simp] theorem Ctx.latched_vcore (c : Ctx) (x y : Option Nat) : (c.latched x y).vcore = c.vcore := rfl
@[simp] theorem Ctx.latched_domain (c : Ctx) (x y : Option Nat) : (c.latched x y).domain = c.domain := rfl
@[simp] theorem Ctx.latched_cls (c : Ctx) (x y : Option Nat) : (c.latched x y).cls = c.cls := rfl
@[simp] theorem Ctx.latched_major (c : Ctx) (x y : Option Nat) : (c.latched x y).major = c.major := rfl
@[simp] theorem Ctx.latched_minor (c : Ctx) (x y : Option Nat) : (c.latched x y).minor = c.minor := rfl
@[simp] theorem Ctx.latched_cell (c : Ctx) (x y : Option Nat) : (c.latched x y).cell = c.cell := rfl
@[simp] theorem Ctx.latched_cellDone (c : Ctx) (x y : Option Nat) : (c.latched x y).cellDone = c.cellDone := rfl
@[simp] theorem Ctx.latched_save (c : Ctx) (x y : Option Nat) : (c.latched x y).save = c.save := rfl
@[simp] theorem Ctx.latched_full (c : Ctx) (x y : Option Nat) : (c.latched x y).full = c.full := rfl
@[simp] theorem Ctx.latched_code (c : Ctx) (x y : Option Nat) : (c.latched x y).code = c.code := rfl
@[simp] theorem Ctx.latched_wait (c : Ctx) (x y : Option Nat) : (c.latched x y).wait = c.wait := rfl
@[simp] theorem Ctx.latched_since (c : Ctx) (x y : Option Nat) : (c.latched x y).since = c.since := rfl
@[simp] theorem Ctx.latched_given (c : Ctx) (x y : Option Nat) : (c.latched x y).given = c.given := rfl
@[simp] theorem Ctx.latched_stall (c : Ctx) (x y : Option Nat) : (c.latched x y).stall = c.stall := rfl
@[simp] theorem Ctx.latched_now (c : Ctx) (x y : Option Nat) : (c.latched x y).now = c.now := rfl
@[simp] theorem Ctx.latched_sw (c : Ctx) (x y : Option Nat) : (c.latched x y).sw = c.sw := rfl
@[simp] theorem Ctx.latched_vw (c : Ctx) (x y : Option Nat) : (c.latched x y).vw = c.vw := rfl
@[simp] theorem Ctx.latched_kw (c : Ctx) (x y : Option Nat) : (c.latched x y).kw = c.kw := rfl
@[simp] theorem Ctx.latched_gw (c : Ctx) (x y : Option Nat) : (c.latched x y).gw = c.gw := rfl
@[simp] theorem Ctx.place_st (c : Ctx) (n d : Nat) (w : Word) : (c.place n d w).st = c.st := rfl
@[simp] theorem Ctx.place_pc (c : Ctx) (n d : Nat) (w : Word) : (c.place n d w).pc = c.pc := rfl
@[simp] theorem Ctx.place_s (c : Ctx) (n d : Nat) (w : Word) : (c.place n d w).s = c.s := rfl
@[simp] theorem Ctx.place_v (c : Ctx) (n d : Nat) (w : Word) : (c.place n d w).v = c.v := rfl
@[simp] theorem Ctx.place_k (c : Ctx) (n d : Nat) (w : Word) : (c.place n d w).k = c.k := rfl
@[simp] theorem Ctx.place_g (c : Ctx) (n d : Nat) (w : Word) : (c.place n d w).g = c.g := rfl
@[simp] theorem Ctx.place_gres (c : Ctx) (n d : Nat) (w : Word) : (c.place n d w).gres = c.gres := rfl
@[simp] theorem Ctx.place_b (c : Ctx) (n d : Nat) (w : Word) : (c.place n d w).b = c.b := rfl
@[simp] theorem Ctx.place_la (c : Ctx) (n d : Nat) (w : Word) : (c.place n d w).la = c.la := rfl
@[simp] theorem Ctx.place_lb (c : Ctx) (n d : Nat) (w : Word) : (c.place n d w).lb = c.lb := rfl
@[simp] theorem Ctx.place_tv (c : Ctx) (n d : Nat) (w : Word) : (c.place n d w).tv = c.tv := rfl
@[simp] theorem Ctx.place_held (c : Ctx) (n d : Nat) (w : Word) : (c.place n d w).held = c.held := rfl
@[simp] theorem Ctx.place_trapCause (c : Ctx) (n d : Nat) (w : Word) : (c.place n d w).trapCause = c.trapCause := rfl
@[simp] theorem Ctx.place_trapPc (c : Ctx) (n d : Nat) (w : Word) : (c.place n d w).trapPc = c.trapPc := rfl
@[simp] theorem Ctx.place_trapAddr (c : Ctx) (n d : Nat) (w : Word) : (c.place n d w).trapAddr = c.trapAddr := rfl
@[simp] theorem Ctx.place_inHandler (c : Ctx) (n d : Nat) (w : Word) : (c.place n d w).inHandler = c.inHandler := rfl
@[simp] theorem Ctx.place_priv (c : Ctx) (n d : Nat) (w : Word) : (c.place n d w).priv = c.priv := rfl
@[simp] theorem Ctx.place_group (c : Ctx) (n d : Nat) (w : Word) : (c.place n d w).group = c.group := rfl
@[simp] theorem Ctx.place_vcore (c : Ctx) (n d : Nat) (w : Word) : (c.place n d w).vcore = c.vcore := rfl
@[simp] theorem Ctx.place_domain (c : Ctx) (n d : Nat) (w : Word) : (c.place n d w).domain = c.domain := rfl
@[simp] theorem Ctx.place_cls (c : Ctx) (n d : Nat) (w : Word) : (c.place n d w).cls = c.cls := rfl
@[simp] theorem Ctx.place_major (c : Ctx) (n d : Nat) (w : Word) : (c.place n d w).major = c.major := rfl
@[simp] theorem Ctx.place_minor (c : Ctx) (n d : Nat) (w : Word) : (c.place n d w).minor = c.minor := rfl
@[simp] theorem Ctx.place_cell (c : Ctx) (n d : Nat) (w : Word) : (c.place n d w).cell = c.cell := rfl
@[simp] theorem Ctx.place_cellDone (c : Ctx) (n d : Nat) (w : Word) : (c.place n d w).cellDone = c.cellDone := rfl
@[simp] theorem Ctx.place_save (c : Ctx) (n d : Nat) (w : Word) : (c.place n d w).save = c.save := rfl
@[simp] theorem Ctx.place_full (c : Ctx) (n d : Nat) (w : Word) : (c.place n d w).full = c.full := rfl
@[simp] theorem Ctx.place_code (c : Ctx) (n d : Nat) (w : Word) : (c.place n d w).code = c.code := rfl
@[simp] theorem Ctx.place_wait (c : Ctx) (n d : Nat) (w : Word) : (c.place n d w).wait = c.wait := rfl
@[simp] theorem Ctx.place_since (c : Ctx) (n d : Nat) (w : Word) : (c.place n d w).since = c.since := rfl
@[simp] theorem Ctx.place_given (c : Ctx) (n d : Nat) (w : Word) : (c.place n d w).given = c.given := rfl
@[simp] theorem Ctx.place_stall (c : Ctx) (n d : Nat) (w : Word) : (c.place n d w).stall = c.stall := rfl
@[simp] theorem Ctx.place_now (c : Ctx) (n d : Nat) (w : Word) : (c.place n d w).now = c.now := rfl
@[simp] theorem Ctx.place_sw (c : Ctx) (n d : Nat) (w : Word) : (c.place n d w).sw = c.sw := rfl
@[simp] theorem Ctx.place_vw (c : Ctx) (n d : Nat) (w : Word) : (c.place n d w).vw = c.vw := rfl
@[simp] theorem Ctx.place_kw (c : Ctx) (n d : Nat) (w : Word) : (c.place n d w).kw = c.kw := rfl
@[simp] theorem Ctx.place_gw (c : Ctx) (n d : Nat) (w : Word) : (c.place n d w).gw = c.gw := rfl
@[simp] theorem Ctx.placeV_st (c : Ctx) (n d : Nat) (r : List Run) : (c.placeV n d r).st = c.st := rfl
@[simp] theorem Ctx.placeV_pc (c : Ctx) (n d : Nat) (r : List Run) : (c.placeV n d r).pc = c.pc := rfl
@[simp] theorem Ctx.placeV_s (c : Ctx) (n d : Nat) (r : List Run) : (c.placeV n d r).s = c.s := rfl
@[simp] theorem Ctx.placeV_v (c : Ctx) (n d : Nat) (r : List Run) : (c.placeV n d r).v = c.v := rfl
@[simp] theorem Ctx.placeV_k (c : Ctx) (n d : Nat) (r : List Run) : (c.placeV n d r).k = c.k := rfl
@[simp] theorem Ctx.placeV_g (c : Ctx) (n d : Nat) (r : List Run) : (c.placeV n d r).g = c.g := rfl
@[simp] theorem Ctx.placeV_gres (c : Ctx) (n d : Nat) (r : List Run) : (c.placeV n d r).gres = c.gres := rfl
@[simp] theorem Ctx.placeV_b (c : Ctx) (n d : Nat) (r : List Run) : (c.placeV n d r).b = c.b := rfl
@[simp] theorem Ctx.placeV_la (c : Ctx) (n d : Nat) (r : List Run) : (c.placeV n d r).la = c.la := rfl
@[simp] theorem Ctx.placeV_lb (c : Ctx) (n d : Nat) (r : List Run) : (c.placeV n d r).lb = c.lb := rfl
@[simp] theorem Ctx.placeV_tv (c : Ctx) (n d : Nat) (r : List Run) : (c.placeV n d r).tv = c.tv := rfl
@[simp] theorem Ctx.placeV_held (c : Ctx) (n d : Nat) (r : List Run) : (c.placeV n d r).held = c.held := rfl
@[simp] theorem Ctx.placeV_trapCause (c : Ctx) (n d : Nat) (r : List Run) : (c.placeV n d r).trapCause = c.trapCause := rfl
@[simp] theorem Ctx.placeV_trapPc (c : Ctx) (n d : Nat) (r : List Run) : (c.placeV n d r).trapPc = c.trapPc := rfl
@[simp] theorem Ctx.placeV_trapAddr (c : Ctx) (n d : Nat) (r : List Run) : (c.placeV n d r).trapAddr = c.trapAddr := rfl
@[simp] theorem Ctx.placeV_inHandler (c : Ctx) (n d : Nat) (r : List Run) : (c.placeV n d r).inHandler = c.inHandler := rfl
@[simp] theorem Ctx.placeV_priv (c : Ctx) (n d : Nat) (r : List Run) : (c.placeV n d r).priv = c.priv := rfl
@[simp] theorem Ctx.placeV_group (c : Ctx) (n d : Nat) (r : List Run) : (c.placeV n d r).group = c.group := rfl
@[simp] theorem Ctx.placeV_vcore (c : Ctx) (n d : Nat) (r : List Run) : (c.placeV n d r).vcore = c.vcore := rfl
@[simp] theorem Ctx.placeV_domain (c : Ctx) (n d : Nat) (r : List Run) : (c.placeV n d r).domain = c.domain := rfl
@[simp] theorem Ctx.placeV_cls (c : Ctx) (n d : Nat) (r : List Run) : (c.placeV n d r).cls = c.cls := rfl
@[simp] theorem Ctx.placeV_major (c : Ctx) (n d : Nat) (r : List Run) : (c.placeV n d r).major = c.major := rfl
@[simp] theorem Ctx.placeV_minor (c : Ctx) (n d : Nat) (r : List Run) : (c.placeV n d r).minor = c.minor := rfl
@[simp] theorem Ctx.placeV_cell (c : Ctx) (n d : Nat) (r : List Run) : (c.placeV n d r).cell = c.cell := rfl
@[simp] theorem Ctx.placeV_cellDone (c : Ctx) (n d : Nat) (r : List Run) : (c.placeV n d r).cellDone = c.cellDone := rfl
@[simp] theorem Ctx.placeV_save (c : Ctx) (n d : Nat) (r : List Run) : (c.placeV n d r).save = c.save := rfl
@[simp] theorem Ctx.placeV_full (c : Ctx) (n d : Nat) (r : List Run) : (c.placeV n d r).full = c.full := rfl
@[simp] theorem Ctx.placeV_code (c : Ctx) (n d : Nat) (r : List Run) : (c.placeV n d r).code = c.code := rfl
@[simp] theorem Ctx.placeV_wait (c : Ctx) (n d : Nat) (r : List Run) : (c.placeV n d r).wait = c.wait := rfl
@[simp] theorem Ctx.placeV_since (c : Ctx) (n d : Nat) (r : List Run) : (c.placeV n d r).since = c.since := rfl
@[simp] theorem Ctx.placeV_given (c : Ctx) (n d : Nat) (r : List Run) : (c.placeV n d r).given = c.given := rfl
@[simp] theorem Ctx.placeV_stall (c : Ctx) (n d : Nat) (r : List Run) : (c.placeV n d r).stall = c.stall := rfl
@[simp] theorem Ctx.placeV_now (c : Ctx) (n d : Nat) (r : List Run) : (c.placeV n d r).now = c.now := rfl
@[simp] theorem Ctx.placeV_sw (c : Ctx) (n d : Nat) (r : List Run) : (c.placeV n d r).sw = c.sw := rfl
@[simp] theorem Ctx.placeV_vw (c : Ctx) (n d : Nat) (r : List Run) : (c.placeV n d r).vw = c.vw := rfl
@[simp] theorem Ctx.placeV_kw (c : Ctx) (n d : Nat) (r : List Run) : (c.placeV n d r).kw = c.kw := rfl
@[simp] theorem Ctx.placeV_gw (c : Ctx) (n d : Nat) (r : List Run) : (c.placeV n d r).gw = c.gw := rfl

/-! ### Reading back -/

theorem Core.ctx_setCtx (k : Core) (i j : Nat) (x : Ctx) (h : i < 10 ∨ i = 15) :
    (k.setCtx i x).ctx j = if i = j then x else k.ctx j := by
  unfold Core.setCtx Core.ctx
  by_cases e : i = 15
  · subst e
    by_cases e' : j = 15
    · subst e'; simp
    · simp [e', Ne.symm e']
  · have h' : i < 10 := by omega
    simp only [if_neg e]
    by_cases e' : j = 15
    · subst e'; simp [e]
    · simp only [if_neg e', vget_set]
      simp [h']

theorem State.core_setCore (s : State) (c d : Nat) (k : Core) (h : c < 96) :
    (s.setCore c k).core d = if c = d then k else s.core d := by
  unfold State.setCore State.core
  simp only [vget_set, h, and_true]

@[simp] theorem State.core_setCore_same (s : State) (c : Nat) (k : Core) (h : c < 96) : (s.setCore c k).core c = k := by
  simp [State.core_setCore, h]

@[simp] theorem State.me_setMe (s : State) (k : Core) (h : s.curCore < 96) : (s.setMe k).me = k := by
  simp [State.me, State.setMe, h]

theorem State.core_setMe (s : State) (d : Nat) (k : Core) (h : s.curCore < 96) :
    (s.setMe k).core d = if s.curCore = d then k else s.core d := by
  simp [State.setMe, State.core_setCore, h]

@[simp] theorem State.me_setCur (s : State) (x : Ctx) (h : s.curCore < 96) :
    (s.setCur x).me = s.me.setCtx s.curSlot x := by
  simp [State.setCur, h]

@[simp] theorem State.cur_setCur (s : State) (x : Ctx) (h : s.curCore < 96) (h' : s.curSlot < 10 ∨ s.curSlot = 15) :
    (s.setCur x).cur = x := by
  simp only [State.cur, State.me_setCur s x h, State.setCur_curSlot, Core.ctx_setCtx _ _ _ _ h', if_true]

theorem State.core_setCur (s : State) (d : Nat) (x : Ctx) (h : s.curCore < 96) :
    (s.setCur x).core d = if s.curCore = d then s.me.setCtx s.curSlot x else s.core d := by
  simp [State.setCur, State.core_setMe, h]

theorem State.setCore_setCore (s : State) (c : Nat) (k k' : Core) : (s.setCore c k).setCore c k' = s.setCore c k' := by
  unfold State.setCore
  simp only [State.mk.injEq, and_true, true_and]
  ext i hi
  simp only [Vector.getElem_setIfInBounds]
  split <;> rfl

end Sys2Proof.Machine
end

