-- ==== Sys2Proof/Laws/Retire.lean ====
section
/-! SUPPORT. What the retirement of an instruction leaves: the closing windows, the program counter, everything else; and what an
issued instruction answers (R75, R76, R213, R431). -/

namespace Sys2Proof.Machine

theorem Ctx.sreg_setS (c : Ctx) (n r : Nat) (w : Word) (h : r < 48) :
    (c.setS n w).sreg r = if r = 0 then 0 else if n = r then w else c.sreg r := by
  unfold Ctx.setS Ctx.sreg
  by_cases e : r = 0
  · simp [e]
  · by_cases e' : n = 0
    · subst e'; simp [e, Ne.symm e]
    · simp only [if_neg e, if_neg e', vget_set]
      by_cases q : n = r <;> simp [q, h]

theorem Ctx.vreg_setV (c : Ctx) (n r : Nat) (x : List Run) (h : r < 16) :
    (c.setV n x).vreg r = if n = r then x else c.vreg r := by
  unfold Ctx.setV Ctx.vreg
  simp only [vget_set]
  by_cases q : n = r <;> simp [q, h]

theorem Ctx.guard_setG (c : Ctx) (n r : Nat) (v : Bool) (h : r < 16) :
    (c.setG n v).guard r = if n = r then v else c.guard r := by
  unfold Ctx.setG Ctx.guard
  simp only [vget_set]
  by_cases q : n = r <;> simp [q, h]

/-- Placed writes touch the scalar registers and run vectors alone, and their ticks. -/
theorem Ctx.placed_fields (c : Ctx) (p : Pend) :
    c.placed p = { c with s := (c.placed p).s, v := (c.placed p).v, sw := (c.placed p).sw, vw := (c.placed p).vw } := by
  unfold Ctx.placed Ctx.setV Ctx.setS
  split
  · rfl
  · split <;> rfl

theorem Ctx.foldl_placed_fields (ps : List Pend) (c : Ctx) :
    ps.foldl Ctx.placed c = { c with s := (ps.foldl Ctx.placed c).s, v := (ps.foldl Ctx.placed c).v,
                                     sw := (ps.foldl Ctx.placed c).sw, vw := (ps.foldl Ctx.placed c).vw } := by
  induction ps generalizing c with
  | nil => rfl
  | cons p ps ih =>
    rw [List.foldl_cons, ih, Ctx.placed_fields]

theorem Ctx.sreg_placed (c : Ctx) (p : Pend) (r : Nat) (h : r < 48) :
    (c.placed p).sreg r = if r = 0 then 0 else if !p.isVec && p.reg == r then p.word else c.sreg r := by
  unfold Ctx.placed
  by_cases v : p.isVec
  · simp only [v, if_true, Bool.not_true, Bool.false_and, Bool.false_eq_true, if_false]
    by_cases e : r = 0
    · simp [e, Ctx.sreg]
    · simp [e, Ctx.sreg]
  · simp only [v, if_false, Bool.not_false, Bool.true_and, Ctx.sreg_setS _ _ _ _ h, beq_iff_eq, Bool.false_eq_true]

theorem Ctx.vreg_placed (c : Ctx) (p : Pend) (r : Nat) (h : r < 16) :
    (c.placed p).vreg r = if p.isVec && p.reg == r then p.runs else c.vreg r := by
  unfold Ctx.placed
  by_cases v : p.isVec
  · simp only [v, if_true, Ctx.vreg_setV _ _ _ _ h, beq_iff_eq, Bool.true_and]
  · simp only [v, Bool.false_and, Bool.false_eq_true, if_false]
    simp [Ctx.vreg]

/-- A scalar register after a row of placed writes: the last that names it. -/
theorem Ctx.foldl_placed_sreg (ps : List Pend) (c : Ctx) (r : Nat) (h : r < 48) :
    (ps.foldl Ctx.placed c).sreg r =
      if r = 0 then 0 else (((ps.filter fun p => !p.isVec && p.reg == r).getLast?).map (·.word)).getD (c.sreg r) := by
  induction ps generalizing c with
  | nil => simp; intro e; simp [e, Ctx.sreg]
  | cons p ps ih =>
    rw [List.foldl_cons, ih, Ctx.sreg_placed _ _ _ h]
    by_cases e : r = 0
    · simp [e]
    · simp only [if_neg e, List.filter_cons]
      by_cases q : (!p.isVec && p.reg == r) = true
      · simp only [q, if_true, List.getLast?_cons]
        cases (List.filter (fun p => !p.isVec && p.reg == r) ps).getLast? <;> simp
      · simp [q]

/-- A run vector after a row of placed writes. -/
theorem Ctx.foldl_placed_vreg (ps : List Pend) (c : Ctx) (r : Nat) (h : r < 16) :
    (ps.foldl Ctx.placed c).vreg r =
      (((ps.filter fun p => p.isVec && p.reg == r).getLast?).map (·.runs)).getD (c.vreg r) := by
  induction ps generalizing c with
  | nil => simp
  | cons p ps ih =>
    rw [List.foldl_cons, ih, Ctx.vreg_placed _ _ _ h]
    simp only [List.filter_cons]
    by_cases q : (p.isVec && p.reg == r) = true
    · simp only [q, if_true, List.getLast?_cons]
      cases (List.filter (fun p => p.isVec && p.reg == r) ps).getLast? <;> simp
    · simp [q]

theorem Ctx.placed_now (c : Ctx) (p : Pend) : (c.placed p).now = c.now := by rw [Ctx.placed_fields]

theorem Ctx.sw_placed (c : Ctx) (p : Pend) (r : Nat) (h : r < 48) :
    vget (c.placed p).sw r 0 = if r ≠ 0 ∧ (!p.isVec && p.reg == r) = true then c.now else vget c.sw r 0 := by
  unfold Ctx.placed
  by_cases v : p.isVec
  · simp [v, Ctx.setV]
  · simp only [v, Bool.false_eq_true, if_false, Bool.not_false, Bool.true_and, beq_iff_eq, Ctx.setS]
    by_cases e : p.reg = 0
    · simp only [e, if_true]; by_cases q : r = 0 <;> simp [q, Ne.symm]
    · simp only [e, if_false, vget_set]
      by_cases q : p.reg = r
      · subst q; simp [e, h]
      · simp [q]

theorem Ctx.vw_placed (c : Ctx) (p : Pend) (r : Nat) (h : r < 16) :
    vget (c.placed p).vw r 0 = if (p.isVec && p.reg == r) = true then c.now else vget c.vw r 0 := by
  unfold Ctx.placed
  by_cases v : p.isVec
  · simp only [v, if_true, Bool.true_and, beq_iff_eq, Ctx.setV, vget_set]
    by_cases q : p.reg = r <;> simp [q, h]
  · simp only [v, Bool.false_eq_true, if_false, Bool.false_and, Ctx.setS]
    split <;> rfl

/-- When a scalar register was written last, after a row of placed writes. -/
theorem Ctx.foldl_placed_sw (ps : List Pend) (c : Ctx) (r : Nat) (h : r < 48) :
    vget (ps.foldl Ctx.placed c).sw r 0 =
      if r ≠ 0 ∧ (ps.any fun p => !p.isVec && p.reg == r) = true then c.now else vget c.sw r 0 := by
  induction ps generalizing c with
  | nil => simp
  | cons p ps ih =>
    rw [List.foldl_cons, ih, Ctx.sw_placed _ _ _ h, Ctx.placed_now, List.any_cons]
    by_cases e : r = 0
    · simp [e]
    · cases (!p.isVec && p.reg == r) <;> cases (ps.any fun p => !p.isVec && p.reg == r) <;> simp [e]

/-- When a run vector was written last, after a row of placed writes. -/
theorem Ctx.foldl_placed_vw (ps : List Pend) (c : Ctx) (r : Nat) (h : r < 16) :
    vget (ps.foldl Ctx.placed c).vw r 0 =
      if (ps.any fun p => p.isVec && p.reg == r) = true then c.now else vget c.vw r 0 := by
  induction ps generalizing c with
  | nil => simp
  | cons p ps ih =>
    rw [List.foldl_cons, ih, Ctx.vw_placed _ _ _ h, Ctx.placed_now, List.any_cons]
    cases (p.isVec && p.reg == r) <;> cases (ps.any fun p => p.isVec && p.reg == r) <;> simp

/-- The windows that close at the next retirement. -/
theorem Ctx.tickPend_closing (ps : List Pend) :
    ((ps.map fun p => if p.outer then p else { p with count := p.count - 1 }).filter fun p => !p.outer && p.count == 0) =
      (ps.filter fun p => !p.outer && decide (p.count ≤ 1)).map fun p => { p with count := p.count - 1 } := by
  induction ps with
  | nil => rfl
  | cons p ps ih =>
    simp only [List.map_cons, List.filter_cons]
    by_cases o : p.outer
    · simp [o, ih]
    · by_cases n : p.count ≤ 1
      · have : p.count - 1 = 0 := by omega
        simp [o, n, ih, this]
      · have : p.count - 1 ≠ 0 := by omega
        simp [o, n, ih, this]

/-- The windows that stay open. -/
theorem Ctx.tickPend_open (ps : List Pend) :
    ((ps.map fun p => if p.outer then p else { p with count := p.count - 1 }).filter fun p => p.outer || p.count != 0) =
      (ps.filter fun p => !(!p.outer && decide (p.count ≤ 1))).map fun p => if p.outer then p else { p with count := p.count - 1 } := by
  induction ps with
  | nil => rfl
  | cons p ps ih =>
    simp only [List.map_cons, List.filter_cons]
    by_cases o : p.outer
    · simp [o, ih]
    · by_cases n : p.count ≤ 1
      · have : p.count - 1 = 0 := by omega
        simp [o, n, ih, this]
      · have : p.count - 1 ≠ 0 := by omega
        simp [o, n, ih, this]

theorem Ctx.tickPend_sreg (c : Ctx) (r : Nat) (h : r < 48) :
    c.tickPend.sreg r = if r = 0 then 0 else
      (((c.pend.filter fun p => (!p.outer && decide (p.count ≤ 1)) && !p.isVec && p.reg == r).getLast?).map (·.word)).getD
        (c.sreg r) := by
  have e : c.tickPend.sreg r = ((c.pend.map fun p => if p.outer then p else { p with count := p.count - 1 }).filter
      (fun p => !p.outer && p.count == 0) |>.foldl Ctx.placed c).sreg r := rfl
  rw [e, Ctx.tickPend_closing, Ctx.foldl_placed_sreg _ _ _ h, List.filter_map, List.getLast?_map, Option.map_map]
  have f : (fun p : Pend => (!p.isVec && p.reg == r)) ∘ (fun p : Pend => { p with count := p.count - 1 }) =
      fun p : Pend => !p.isVec && p.reg == r := rfl
  rw [f, List.filter_filter]
  simp only [Bool.and_comm, Bool.and_assoc]
  rfl

theorem Ctx.tickPend_vreg (c : Ctx) (r : Nat) (h : r < 16) :
    c.tickPend.vreg r =
      (((c.pend.filter fun p => (!p.outer && decide (p.count ≤ 1)) && p.isVec && p.reg == r).getLast?).map (·.runs)).getD
        (c.vreg r) := by
  have e : c.tickPend.vreg r = ((c.pend.map fun p => if p.outer then p else { p with count := p.count - 1 }).filter
      (fun p => !p.outer && p.count == 0) |>.foldl Ctx.placed c).vreg r := rfl
  rw [e, Ctx.tickPend_closing, Ctx.foldl_placed_vreg _ _ _ h, List.filter_map, List.getLast?_map, Option.map_map]
  have f : (fun p : Pend => (p.isVec && p.reg == r)) ∘ (fun p : Pend => { p with count := p.count - 1 }) =
      fun p : Pend => p.isVec && p.reg == r := rfl
  rw [f, List.filter_filter]
  simp only [Bool.and_comm, Bool.and_assoc, Bool.and_left_comm]
  rfl

theorem Ctx.tickPend_sw (c : Ctx) (r : Nat) (h : r < 48) :
    vget c.tickPend.sw r 0 =
      if r ≠ 0 ∧ (c.pend.any fun p => (!p.outer && decide (p.count ≤ 1)) && (!p.isVec && p.reg == r)) = true then c.now
      else vget c.sw r 0 := by
  have e : c.tickPend.sw = ((c.pend.map fun p => if p.outer then p else { p with count := p.count - 1 }).filter
      (fun p => !p.outer && p.count == 0) |>.foldl Ctx.placed c).sw := rfl
  rw [e, Ctx.tickPend_closing, Ctx.foldl_placed_sw _ _ _ h, List.any_map, List.any_filter]
  rfl

theorem Ctx.tickPend_vw (c : Ctx) (r : Nat) (h : r < 16) :
    vget c.tickPend.vw r 0 =
      if (c.pend.any fun p => (!p.outer && decide (p.count ≤ 1)) && (p.isVec && p.reg == r)) = true then c.now
      else vget c.vw r 0 := by
  have e : c.tickPend.vw = ((c.pend.map fun p => if p.outer then p else { p with count := p.count - 1 }).filter
      (fun p => !p.outer && p.count == 0) |>.foldl Ctx.placed c).vw := rfl
  rw [e, Ctx.tickPend_closing, Ctx.foldl_placed_vw _ _ _ h, List.any_map, List.any_filter]
  rfl

/-- The closing of windows changes the registers they write, and the windows. -/
theorem Ctx.tickPend_fields (c : Ctx) :
    c.tickPend = { c with
      s := c.tickPend.s, v := c.tickPend.v, sw := c.tickPend.sw, vw := c.tickPend.vw,
      pend := (c.pend.filter fun p => !(!p.outer && decide (p.count ≤ 1))).map fun p =>
        if p.outer then p else { p with count := p.count - 1 } } := by
  rw [← Ctx.tickPend_open]
  exact congrArg (fun x : Ctx => { x with
    pend := (c.pend.map fun p : Pend => if p.outer then p else { p with count := p.count - 1 }).filter fun p => p.outer || p.count != 0 })
    (Ctx.foldl_placed_fields _ c)

/-- Retirement of an instruction changes the registers that windows close into, the windows, the program counter, the held
transfer and the inline-code buffer, and nothing else of the context. -/
theorem Ctx.retire_fields (c : Ctx) (words : Nat) :
    c.retire words = { c with
      s := (c.retire words).s, v := (c.retire words).v, sw := (c.retire words).sw, vw := (c.retire words).vw,
      pc := c.tv.getD (c.pc + BitVec.ofNat 64 (4 * words)), tv := none,
      pend := (c.pend.filter fun p => !(!p.outer && decide (p.count ≤ 1))).map fun p =>
        if p.outer then p else { p with count := p.count - 1 },
      code := if inInline c.pc || c.inHandler then c.code else [] } := by
  have q : c.retire words = _ := congrArg (fun x : Ctx => (x.advance words).leaveCode c.pc) (Ctx.tickPend_fields c)
  have e : (c.retire words).s = c.tickPend.s ∧ (c.retire words).v = c.tickPend.v ∧
      (c.retire words).sw = c.tickPend.sw ∧ (c.retire words).vw = c.tickPend.vw := by
    rw [q]
    unfold Ctx.leaveCode Ctx.advance
    refine ⟨?_, ?_, ?_, ?_⟩ <;> split <;> split <;> rfl
  rw [e.1, e.2.1, e.2.2.1, e.2.2.2, q]
  unfold Ctx.leaveCode Ctx.advance
  cases c.tv <;> (simp only [Option.getD_some, Option.getD_none]; split <;> simp_all)

theorem Ctx.retire_s (c : Ctx) (words : Nat) : (c.retire words).s = c.tickPend.s := by
  unfold Ctx.retire Ctx.leaveCode Ctx.advance
  split <;> split <;> rfl

theorem Ctx.retire_v (c : Ctx) (words : Nat) : (c.retire words).v = c.tickPend.v := by
  unfold Ctx.retire Ctx.leaveCode Ctx.advance
  split <;> split <;> rfl

theorem Ctx.retire_sw (c : Ctx) (words : Nat) : (c.retire words).sw = c.tickPend.sw := by
  unfold Ctx.retire Ctx.leaveCode Ctx.advance
  split <;> split <;> rfl

theorem Ctx.retire_vw (c : Ctx) (words : Nat) : (c.retire words).vw = c.tickPend.vw := by
  unfold Ctx.retire Ctx.leaveCode Ctx.advance
  split <;> split <;> rfl

theorem Ctx.retire_sreg (c : Ctx) (words r : Nat) : (c.retire words).sreg r = c.tickPend.sreg r := by
  simp only [Ctx.sreg, Ctx.retire_s]

theorem Ctx.retire_vreg (c : Ctx) (words r : Nat) : (c.retire words).vreg r = c.tickPend.vreg r := by
  simp only [Ctx.vreg, Ctx.retire_v]

/-- What the retirement of the moving context leaves of the device: the context, and one more count of E0. -/
theorem State.retire_eq (s : State) (words : Nat) (h : s.curCore < 96) :
    s.retire words = s.setMe { s.me.setCtx s.curSlot (s.cur.retire words) with
      ev := s.me.ev.setIfInBounds 0 (min (vget s.me.ev 0 0 + 1) 0xFFFFFFFF) } := by
  have q : (s.setCur (s.cur.retire words)).core s.curCore = s.me.setCtx s.curSlot (s.cur.retire words) := by
    simp [State.core_setCur, h]
  unfold State.retire State.countRetired State.bumpEv
  simp only [State.setCur_curCore, q, Core.setCtx_ev]
  unfold State.setCur State.setMe
  rw [State.setCore_setCore]

/-- The context that moved, after its retirement. -/
theorem State.cur_retire (s : State) (words : Nat) (h : s.curCore < 96) (h' : s.curSlot < 10 ∨ s.curSlot = 15) :
    (s.retire words).cur = s.cur.retire words := by
  rw [State.retire_eq s words h]
  unfold State.cur
  simp only [State.me_setMe _ _ h, State.setMe_curSlot]
  have q := Core.ctx_setCtx s.me s.curSlot s.curSlot ((s.me.ctx s.curSlot).retire words) h'
  simp only [if_true] at q
  unfold Core.ctx at q ⊢
  exact q

/-- Another context of the moving core. -/
theorem State.ctx_retire (s : State) (words slot : Nat) (h : s.curCore < 96) (h' : s.curSlot < 10 ∨ s.curSlot = 15)
    (hs : slot ≠ s.curSlot) : (s.retire words).me.ctx slot = s.me.ctx slot := by
  rw [State.retire_eq s words h, State.me_setMe _ _ h]
  have q := Core.ctx_setCtx s.me s.curSlot slot (s.cur.retire words) h'
  simp only [Ne.symm hs, if_false] at q
  unfold Core.ctx at q ⊢
  exact q

/-- Another core. -/
theorem State.core_retire (s : State) (words c : Nat) (h : s.curCore < 96) (hc : c ≠ s.curCore) :
    (s.retire words).core c = s.core c := by
  rw [State.retire_eq s words h, State.core_setMe _ _ _ h]
  simp [Ne.symm hc]

/-! ### Issue -/

/-- An instruction whose checks pass and whose effect is done retires. -/
theorem issue_ok {s t : State} {k : Cls} {words : Nat} {body : State → Out} (hk : k.trap s = none) (hb : body s = .ok t) :
    issue s k words body = .next (t.retire words) := by
  simp [issue, hk, hb]

/-- An instruction whose checks fail takes their fault. -/
theorem issue_trap {s : State} {k : Cls} {words : Nat} {body : State → Out} {t : Trap} (hk : k.trap s = some t) :
    issue s k words body = .next (s.fault t) := by
  simp [issue, hk]

/-- An instruction whose effect faults takes the fault. -/
theorem issue_fault {s u : State} {k : Cls} {words : Nat} {body : State → Out} {t : Trap} (hk : k.trap s = none)
    (hb : body s = .trap t u) : issue s k words body = .next (u.fault t) := by
  simp [issue, hk, hb]

/-- Every issued instruction answers a next state. -/
theorem issue_goes (s : State) (k : Cls) (words : Nat) (body : State → Out) : ∃ t, issue s k words body = .next t := by
  unfold issue
  split
  · exact ⟨_, rfl⟩
  · split <;> exact ⟨_, rfl⟩

theorem issueAs_goes (s : State) (k : Cls) (body : State → Out) : ∃ t, issueAs s k body = .next t := by
  unfold issueAs
  split
  · exact ⟨_, rfl⟩
  · split <;> exact ⟨_, rfl⟩

@[simp] theorem Cls.base_trap (s : State) : Cls.base.trap s = none := by
  simp [Cls.base, Cls.trap]

theorem Cls.since3_trap (s : State) (n : Nat) (h : n ≤ s.cur.minor) : (Cls.since3 n).trap s = none := by
  simp [Cls.since3, Cls.trap, Nat.not_lt.mpr h]

end Sys2Proof.Machine
end

