-- ==== Sys2Proof/Laws/Effects.lean ====
section
/-! SUPPORT. The readings in which the statements say what one retired instruction leaves, for an effect on the moving context
alone. -/

namespace Sys2Proof.Claims

open Sys2Proof.Machine

theorem onlyContext_of_retire (s : State) (c : Ctx) (words : Nat) (h : Stands s) :
    OnlyContext s ((s.setCur c).retire words) := by
  have hc : (s.setCur c).curCore < 96 := by simp [h.1]
  have hme : (s.setCur c).me = s.me.setCtx s.curSlot c := State.me_setCur s c h.1
  refine ⟨rfl, ?_, ?_, ?_, ?_, ?_⟩
  · intro k hk
    rw [State.core_retire _ _ _ hc (by simpa using hk), State.core_setCur _ _ _ h.1, if_neg (Ne.symm hk)]
  · rw [State.retire_eq _ _ hc, State.me_setMe _ _ hc, hme]
    unfold SameCoreBut
    simp
  · intro slot hs
    rw [State.ctx_retire _ _ _ hc (by simpa using h.2) (by simpa using hs), hme, Core.ctx_setCtx _ _ _ _ h.2, if_neg (Ne.symm hs)]
  · rw [State.retire_eq _ _ hc, State.me_setMe _ _ hc, hme]
    simp
  · intro i hi
    rw [State.retire_eq _ _ hc, State.me_setMe _ _ hc, hme]
    simp [vget_set_other _ _ _ _ _ (Ne.symm hi)]

theorem cur_retire_setCur (s : State) (c : Ctx) (words : Nat) (h : Stands s) :
    ((s.setCur c).retire words).cur = c.retire words := by
  rw [State.cur_retire _ _ (by simpa using h.1) (by simpa using h.2), State.cur_setCur _ _ h.1 h.2]

theorem written_of (s : State) (c : Ctx) (words : Nat) (h : Stands s) (own : Bool → Nat → Bool) (hn : c.now = s.cur.now)
    (hs : ∀ r, r < 48 → vget c.sw r 0 = if r ≠ 0 ∧ own false r = true then s.cur.now else vget s.cur.sw r 0)
    (hv : ∀ r, r < 16 → vget c.vw r 0 = if own true r = true then s.cur.now else vget s.cur.vw r 0) :
    Written s ((s.setCur c).retire words) c.pend own := by
  have l (vec : Bool) (r : Nat) : lands vec c.pend r =
      c.pend.any fun p => (!p.outer && decide (p.count ≤ 1)) && ((p.isVec == vec) && p.reg == r) := by
    unfold lands closes
    simp only [Bool.and_assoc]
  unfold Written
  rw [cur_retire_setCur s c words h, Ctx.retire_sw, Ctx.retire_vw]
  refine ⟨fun r hr => ?_, fun r hr => ?_⟩
  · rw [Ctx.tickPend_sw _ _ hr, hs r hr, hn, l]
    simp only [beq_false]
    by_cases e : r = 0
    · simp [e]
    · cases own false r <;> simp [e]
  · rw [Ctx.tickPend_vw _ _ hr, hv r hr, hn, l]
    simp only [beq_true]
    cases own true r <;> simp

/-- An effect on the register families, the latches and the windows of the moving context retires. -/
theorem retired_of (s : State) (c : Ctx) (words : Nat) (h : Stands s) (own : Bool → Nat → Bool)
    (hc : c = { s.cur with s := c.s, v := c.v, k := c.k, g := c.g, gres := c.gres, b := c.b, la := c.la, lb := c.lb, pend := c.pend,
                           sw := c.sw, vw := c.vw, kw := c.kw, gw := c.gw })
    (hs : ∀ r, r < 48 → vget c.sw r 0 = if r ≠ 0 ∧ own false r = true then s.cur.now else vget s.cur.sw r 0)
    (hv : ∀ r, r < 16 → vget c.vw r 0 = if own true r = true then s.cur.now else vget s.cur.vw r 0) :
    Retired s ((s.setCur c).retire words) words c.pend own := by
  refine ⟨onlyContext_of_retire s c words h, ?_, written_of s c words h own (by rw [hc]) hs hv⟩
  rw [cur_retire_setCur s c words h, Ctx.retire_fields]
  have e : c.pc = s.cur.pc ∧ c.tv = s.cur.tv ∧ c.code = s.cur.code ∧ c.inHandler = s.cur.inHandler := by
    rw [hc]; exact ⟨rfl, rfl, rfl, rfl⟩
  have i : (inInline s.cur.pc || s.cur.inHandler) = decide (0xFFFF_FFFF_FFFF_FF00 ≤ s.cur.pc.toNat ∨ s.cur.inHandler = true) := by
    simp [inInline]
  rw [e.1, e.2.1, e.2.2.1, e.2.2.2, i]
  simp only [decide_eq_true_eq]
  have f : c.st = s.cur.st ∧ c.held = s.cur.held ∧ c.trapCause = s.cur.trapCause ∧ c.trapPc = s.cur.trapPc ∧ c.trapAddr = s.cur.trapAddr ∧ c.priv = s.cur.priv ∧ c.group = s.cur.group ∧ c.vcore = s.cur.vcore ∧ c.domain = s.cur.domain ∧ c.cls = s.cur.cls ∧ c.major = s.cur.major ∧ c.minor = s.cur.minor ∧ c.cell = s.cur.cell ∧ c.cellDone = s.cur.cellDone ∧ c.save = s.cur.save ∧ c.full = s.cur.full ∧ c.wait = s.cur.wait ∧ c.since = s.cur.since ∧ c.given = s.cur.given ∧ c.stall = s.cur.stall ∧ c.now = s.cur.now := by
    rw [hc]; exact ⟨rfl, rfl, rfl, rfl, rfl, rfl, rfl, rfl, rfl, rfl, rfl, rfl, rfl, rfl, rfl, rfl, rfl, rfl, rfl, rfl, rfl⟩
  simp only [f]
  rfl

theorem operand_eq (c : Ctx) (n : Nat) : c.src n = operand c n := by
  unfold Ctx.src operand Ctx.sreg
  by_cases h : n = 0
  · subst h; simp
  · simp [h]

theorem latched_la (c : Ctx) (x y : Option Nat) : (c.latched x y).la = latchAfter c c.la x := by
  cases x with
  | none => rfl
  | some n =>
    simp only [Ctx.latched, latchAfter]
    split
    · rfl
    · rename_i h
      rw [← operand_eq]; unfold Ctx.src; simp only [not_or] at h; simp [h]

theorem latched_lb (c : Ctx) (x y : Option Nat) : (c.latched x y).lb = latchAfter c c.lb y := by
  cases y with
  | none => rfl
  | some n =>
    simp only [Ctx.latched, latchAfter]
    split
    · rfl
    · rename_i h
      rw [← operand_eq]; unfold Ctx.src; simp only [not_or] at h; simp [h]

theorem retire_sreg_eq (c : Ctx) (words r : Nat) (h : r < 48) : (c.retire words).sreg r = thenS c.pend r (c.sreg r) := by
  rw [Ctx.retire_sreg, Ctx.tickPend_sreg _ _ h]; rfl

theorem retire_vreg_eq (c : Ctx) (words r : Nat) (h : r < 16) : (c.retire words).vreg r = thenV c.pend r (c.vreg r) := by
  rw [Ctx.retire_vreg, Ctx.tickPend_vreg _ _ h]; rfl

theorem masksSame_of (s : State) (c : Ctx) (words : Nat) (h : Stands s) (hk : c.k = s.cur.k) (hw : c.kw = s.cur.kw) :
    MasksSame s ((s.setCur c).retire words) := by
  unfold MasksSame
  rw [cur_retire_setCur s c words h, Ctx.retire_fields]
  exact ⟨hk, hw⟩

theorem guardsSame_of (s : State) (c : Ctx) (words : Nat) (h : Stands s) (hg : c.g = s.cur.g) (hr : c.gres = s.cur.gres)
    (hw : c.gw = s.cur.gw) : GuardsSame s ((s.setCur c).retire words) := by
  unfold GuardsSame
  rw [cur_retire_setCur s c words h, Ctx.retire_fields]
  exact ⟨hg, hr, hw⟩

/-- The shape of an instruction that reads fields through the latches and writes one scalar register. -/
theorem writesScalar_of (s : State) (words d : Nat) (w : Word) (x y : Option Nat) (h : Stands s) :
    WritesScalar s ((s.setCur ((s.cur.latched x y).setS d w)).retire words) words d w x y := by
  have hp : ((s.cur.latched x y).setS d w).pend = s.cur.pend := by simp
  have q := cur_retire_setCur s ((s.cur.latched x y).setS d w) words h
  refine ⟨?_, ⟨?_, ?_, ?_, ?_⟩, ⟨?_, ?_⟩, ?_⟩
  · rw [← hp]
    refine retired_of s _ words h (ownS d) ?_ ?_ ?_
    · unfold Ctx.setS; split <;> rfl
    · intro r hr
      unfold Ctx.setS ownS
      by_cases e : d = 0
      · subst e; by_cases f : r = 0 <;> simp [f, Ctx.latched]
      · simp only [e, if_false, vget_set]
        by_cases f : d = r
        · subst f; simp [hr, e, Ctx.latched]
        · simp [f, Ne.symm f, Ctx.latched]
    · intro r hr
      unfold Ctx.setS ownS; split <;> simp [Ctx.latched]
  · intro r hr
    rw [q, retire_vreg_eq _ _ _ hr, hp]
    simp [Ctx.vreg]
  · apply masksSame_of _ _ _ h <;> (unfold Ctx.setS; split <;> rfl)
  · apply guardsSame_of _ _ _ h <;> (unfold Ctx.setS; split <;> rfl)
  · rw [q, Ctx.retire_fields]; simp
  · rw [q, Ctx.retire_fields]; simp [latched_la]
  · rw [q, Ctx.retire_fields]; simp [latched_lb]
  · intro r hr
    rw [q, retire_sreg_eq _ _ _ hr, hp, Ctx.sreg_setS _ _ _ _ hr]
    unfold thenS
    by_cases e : r = 0
    · simp [e]
    · simp only [if_neg e]
      by_cases f : d = r
      · simp [f]
      · simp [f, Ne.symm f, Ctx.sreg]

/-- The shape of an instruction whose scalar result is placed by a lookahead field. -/
theorem placesScalar_of (s : State) (words n d : Nat) (w : Word) (x y : Option Nat) (h : Stands s) :
    PlacesScalar s ((s.setCur ((s.cur.latched x y).place n d w)).retire words) words n d w x y := by
  have q := cur_retire_setCur s ((s.cur.latched x y).place n d w) words h
  refine ⟨?_, ⟨?_, ?_, ?_, ?_⟩, ⟨?_, ?_⟩, ?_⟩
  · exact retired_of s ((s.cur.latched x y).place n d w) words h noOwn rfl (fun r _ => by simp [noOwn, Ctx.place, Ctx.latched])
      (fun r _ => by simp [noOwn, Ctx.place, Ctx.latched])
  · intro r hr
    rw [q, retire_vreg_eq _ _ _ hr]; rfl
  · exact masksSame_of s _ words h rfl rfl
  · exact guardsSame_of s _ words h rfl rfl rfl
  · rw [q, Ctx.retire_fields]; simp
  · rw [q, Ctx.retire_fields]; simp [latched_la]
  · rw [q, Ctx.retire_fields]; simp [latched_lb]
  · intro r hr
    rw [q, retire_sreg_eq _ _ _ hr]; rfl

/-- The shape of an instruction that reads fields through the latches and writes one guard. -/
theorem writesGuard_of (s : State) (d : Nat) (v : Bool) (x y : Option Nat) (h : Stands s) :
    WritesGuard s ((s.setCur ((s.cur.latched x y).setG d v)).retire 1) d v x y := by
  have q := cur_retire_setCur s ((s.cur.latched x y).setG d v) 1 h
  refine ⟨?_, ⟨?_, ?_⟩, ?_, ?_, ?_, ?_, ?_⟩
  · exact retired_of s ((s.cur.latched x y).setG d v) 1 h noOwn rfl (fun r _ => by simp [noOwn, Ctx.setG, Ctx.latched])
      (fun r _ => by simp [noOwn, Ctx.setG, Ctx.latched])
  · rw [q, Ctx.retire_fields]; simp [latched_la]
  · rw [q, Ctx.retire_fields]; simp [latched_lb]
  · intro r hr
    rw [q, retire_sreg_eq _ _ _ hr]; rfl
  · intro r hr
    rw [q, retire_vreg_eq _ _ _ hr]; rfl
  · exact masksSame_of s _ 1 h rfl rfl
  · rw [q, Ctx.retire_fields]; simp
  · intro r hr
    have g : (((s.cur.latched x y).setG d v).retire 1).guard r = ((s.cur.latched x y).setG d v).guard r := by
      rw [Ctx.retire_fields]; rfl
    have gr : (((s.cur.latched x y).setG d v).retire 1).gres = ((s.cur.latched x y).setG d v).gres := by rw [Ctx.retire_fields]
    have gw : (((s.cur.latched x y).setG d v).retire 1).gw = ((s.cur.latched x y).setG d v).gw := by rw [Ctx.retire_fields]
    rw [q, g, gr, gw, Ctx.guard_setG _ _ _ _ hr]
    simp only [Ctx.setG, vget_set]
    by_cases e : d = r
    · subst e; simp [hr, Ctx.latched]
    · simp [e, Ne.symm e, Ctx.guard, Ctx.latched]

/-- The shape of an instruction that reads fields through the latches and writes no register. -/
theorem writesNothing_of (s : State) (words : Nat) (x y : Option Nat) (h : Stands s) :
    WritesNothing s ((s.setCur (s.cur.latched x y)).retire words) words x y := by
  have q := cur_retire_setCur s (s.cur.latched x y) words h
  refine ⟨?_, ⟨?_, ?_, ?_, ?_⟩, ⟨?_, ?_⟩, ?_⟩
  · exact retired_of s (s.cur.latched x y) words h noOwn rfl (fun r _ => by simp [noOwn, Ctx.latched])
      (fun r _ => by simp [noOwn, Ctx.latched])
  · intro r hr
    rw [q, retire_vreg_eq _ _ _ hr]; rfl
  · exact masksSame_of s _ words h rfl rfl
  · exact guardsSame_of s _ words h rfl rfl rfl
  · rw [q, Ctx.retire_fields]; simp
  · rw [q, Ctx.retire_fields]; simp [latched_la]
  · rw [q, Ctx.retire_fields]; simp [latched_lb]
  · intro r hr
    rw [q, retire_sreg_eq _ _ _ hr]; rfl

end Sys2Proof.Claims
end

