-- ==== Sys2Proof/Laws/Memory.lean ====
section
/-! SUPPORT. The laws of memory: a read after a write, every other address, and that every operation keeps the canonical form, so
that equal memories are equal data (log 1). -/

namespace Sys2Proof.Machine

/-- Every listed address is at least `lo`. -/
def Mem.from (lo : Nat) : Mem → Prop
  | [] => True
  | (a, _) :: _ => lo ≤ a

theorem wf_cons {a : Nat} {b : Byte} {r : Mem} : Memory.wf ((a, b) :: r) = true ↔ b ≠ 0 ∧ Mem.from (a + 1) r ∧ Memory.wf r = true := by
  cases r with
  | nil => simp [Memory.wf, Mem.from]
  | cons c r => obtain ⟨a', b'⟩ := c; simp [Memory.wf, Mem.from, Nat.succ_le_iff, and_assoc]

theorem from_mono {lo lo' : Nat} {m : Mem} (h : Mem.from lo m) (le : lo' ≤ lo) : Mem.from lo' m := by
  cases m with
  | nil => trivial
  | cons c r => exact Nat.le_trans le h

/-- Below the first listed address everything reads 0. -/
theorem memGet_below {lo x : Nat} {m : Mem} (h : Mem.from lo m) (hx : x < lo) : memGet m x = 0 := by
  cases m with
  | nil => rfl
  | cons c r =>
    obtain ⟨a, b⟩ := c
    have : lo ≤ a := h
    simp [memGet, Nat.ne_of_gt (Nat.lt_of_lt_of_le hx this), Nat.lt_of_lt_of_le hx this]

/-- A byte reads as it was written, and every other byte as before. -/
theorem memGet_memSet {m : Mem} (h : Memory.wf m = true) (x y : Nat) (v : Byte) :
    memGet (memSet m x v) y = if y = x then v else memGet m y := by
  induction m with
  | nil =>
    by_cases hv : v = 0
    · simp [memSet, hv, memGet]
    · simp only [memSet, hv, if_false, memGet]
      by_cases e : x = y
      · simp [e]
      · simp [e, Ne.symm e]
  | cons c r ih =>
    obtain ⟨a, b⟩ := c
    obtain ⟨-, hr, hw⟩ := wf_cons.1 h
    have below : ∀ z, z ≤ a → memGet r z = 0 := fun z hz => memGet_below hr (Nat.lt_succ_of_le hz)
    by_cases e : a = x
    · subst e
      by_cases hv : v = 0
      · simp only [memSet, if_true, hv, memGet]
        by_cases ey : y = a
        · simp [ey, below a (Nat.le_refl _)]
        · simp only [ey, Ne.symm ey, if_false]
          split
          · exact below y (Nat.le_of_lt ‹_›)
          · rfl
      · simp only [memSet, if_true, hv, if_false, memGet]
        by_cases ey : y = a
        · simp [ey]
        · simp [ey, Ne.symm ey]
    · by_cases lt : x < a
      · by_cases hv : v = 0
        · simp only [memSet, e, if_false, lt, if_true, hv, memGet]
          by_cases ey : y = x
          · subst ey; simp [e, lt]
          · simp [ey]
        · simp only [memSet, e, if_false, lt, if_true, hv, memGet]
          by_cases ey : y = x
          · simp [ey]
          · simp only [ey, Ne.symm ey, if_false]
            by_cases ly : y < x
            · have : y < a := Nat.lt_trans ly lt
              simp [ly, this, Nat.ne_of_gt this]
            · simp [ly]
      · simp only [memSet, e, if_false, lt, memGet, ih hw]
        by_cases ey : y = x
        · subst ey; simp [e, lt]
        · simp [ey]

theorem from_memSet {lo x : Nat} {v : Byte} {m : Mem} (h : Mem.from lo m) (hw : Memory.wf m = true) (hx : lo ≤ x) :
    Mem.from lo (memSet m x v) := by
  cases m with
  | nil => unfold memSet; split <;> trivial
  | cons c r =>
    obtain ⟨a, b⟩ := c
    obtain ⟨-, hr, -⟩ := wf_cons.1 hw
    have ha : lo ≤ a := h
    unfold memSet
    split
    · split
      · exact from_mono hr (Nat.le_succ_of_le ha)
      · exact ha
    · split
      · split
        · exact h
        · exact hx
      · exact ha

/-- Writing a byte keeps the canonical form. -/
theorem memSet_wf {m : Mem} (h : Memory.wf m = true) (x : Nat) (v : Byte) : Memory.wf (memSet m x v) = true := by
  induction m with
  | nil =>
    by_cases hv : v = 0
    · simp [memSet, hv, Memory.wf]
    · simp only [memSet, hv, if_false, Memory.wf, Bool.and_true, bne_iff_ne]; simpa using hv
  | cons c r ih =>
    obtain ⟨a, b⟩ := c
    obtain ⟨hb, hr, hw⟩ := wf_cons.1 h
    by_cases e : a = x
    · by_cases hv : v = 0
      · simp only [memSet, e, if_true, hv]; exact hw
      · simp only [memSet, e, if_true, hv, if_false]; subst e; exact wf_cons.2 ⟨hv, hr, hw⟩
    · by_cases lt : x < a
      · by_cases hv : v = 0
        · simp only [memSet, e, if_false, lt, if_true, hv]; exact h
        · simp only [memSet, e, if_false, lt, if_true, hv]; exact wf_cons.2 ⟨hv, Nat.succ_le_of_lt lt, h⟩
      · simp only [memSet, e, if_false, lt]
        have hx : a + 1 ≤ x := Nat.lt_of_le_of_ne (Nat.le_of_not_lt lt) e
        exact wf_cons.2 ⟨hb, from_memSet hr hw hx, ih hw⟩

/-- Writing bytes keeps the canonical form. -/
theorem memWrite_wf {m : Mem} (h : Memory.wf m = true) (a : Nat) (bs : List Byte) : Memory.wf (memWrite m a bs) = true := by
  induction bs generalizing m a with
  | nil => exact h
  | cons b bs ih => exact ih (memSet_wf h a b) (a + 1)

/-- Bytes read as they were written, and every byte outside them as before. -/
theorem memGet_memWrite {m : Mem} (h : Memory.wf m = true) (a y : Nat) (bs : List Byte) :
    memGet (memWrite m a bs) y = if a ≤ y ∧ y < a + bs.length then bs.getD (y - a) 0 else memGet m y := by
  induction bs generalizing m a with
  | nil => exact (if_neg (by simp only [List.length_nil]; omega)).symm
  | cons b bs ih =>
    simp only [memWrite, ih (memSet_wf h a b), memGet_memSet h, List.length_cons]
    by_cases e : y = a
    · subst e
      have : ¬ (y + 1 ≤ y) := by omega
      simp [this]
    · by_cases hy : a + 1 ≤ y ∧ y < a + 1 + bs.length
      · have : a ≤ y ∧ y < a + (bs.length + 1) := by omega
        have e2 : y - a = (y - (a + 1)) + 1 := by omega
        simp [hy, this, e2]
      · have : ¬ (a ≤ y ∧ y < a + (bs.length + 1)) := by omega
        rw [if_neg hy, if_neg e, if_neg this]

theorem filter_wf {m : Mem} (h : Memory.wf m = true) (p : Host.Cell → Bool) : Memory.wf (m.filter p) = true := by
  suffices ∀ m : Mem, Memory.wf m = true → Memory.wf (m.filter p) = true ∧ ∀ lo, Mem.from lo m → Mem.from lo (m.filter p) from (this m h).1
  intro m
  induction m with
  | nil => intro _; exact ⟨rfl, fun _ _ => trivial⟩
  | cons c r ih =>
    intro hm
    obtain ⟨a, b⟩ := c
    obtain ⟨hb, hr, hw⟩ := wf_cons.1 hm
    obtain ⟨h1, h2⟩ := ih hw
    by_cases hp : p (a, b) = true
    · rw [List.filter_cons_of_pos hp]
      exact ⟨wf_cons.2 ⟨hb, h2 _ hr, h1⟩, fun lo hlo => hlo⟩
    · rw [List.filter_cons_of_neg hp]
      exact ⟨h1, fun lo hlo => h2 lo (from_mono hr (Nat.le_succ_of_le hlo))⟩

/-- Clearing a range keeps the canonical form. -/
theorem memClear_wf {m : Mem} (h : Memory.wf m = true) (lo hi : Nat) : Memory.wf (memClear m lo hi) = true := filter_wf h _

/-- A memory of which cells are dropped reads 0 where they were, and elsewhere as before. -/
theorem memGet_filter {m : Mem} (h : Memory.wf m = true) (p : Nat → Bool) (y : Nat) :
    memGet (m.filter fun c => p c.1) y = if p y then memGet m y else 0 := by
  induction m with
  | nil => simp [memGet]
  | cons c r ih =>
    obtain ⟨a, b⟩ := c
    obtain ⟨-, hr, hw⟩ := wf_cons.1 h
    by_cases hp : p a = true
    · rw [List.filter_cons_of_pos (by simpa using hp)]
      simp only [memGet, ih hw]
      by_cases e : a = y
      · subst e; simp [hp]
      · by_cases lt : y < a
        · simp [e, lt]
        · simp [e, lt]
    · rw [List.filter_cons_of_neg (by simpa using hp), ih hw]
      by_cases e : a = y
      · subst e; simp [hp]
      · by_cases lt : y < a
        · have := memGet_below hr (Nat.lt_succ_of_lt lt); simp [memGet, e, lt, this]
        · simp [memGet, e, lt]

/-- A cleared range reads 0, and everything else as before. -/
theorem memGet_memClear {m : Mem} (h : Memory.wf m = true) (lo hi y : Nat) :
    memGet (memClear m lo hi) y = if lo ≤ y ∧ y < hi then 0 else memGet m y := by
  rw [memClear, memGet_filter h (fun a => decide (a < lo) || decide (hi ≤ a))]
  by_cases c : lo ≤ y ∧ y < hi
  · have : ¬ (y < lo) ∧ ¬ (hi ≤ y) := by omega
    simp [c, this.1, this.2]
  · have : y < lo ∨ hi ≤ y := by omega
    simp [c, this]

/-- Two memories in canonical form that read alike are equal. -/
theorem mem_ext {m n : Mem} (hm : Memory.wf m = true) (hn : Memory.wf n = true) (h : ∀ x, memGet m x = memGet n x) : m = n := by
  induction m generalizing n with
  | nil =>
    cases n with
    | nil => rfl
    | cons c r =>
      obtain ⟨a, b⟩ := c
      have := h a
      simp [memGet] at this
      exact absurd this.symm (wf_cons.1 hn).1
  | cons c r ih =>
    obtain ⟨a, b⟩ := c
    obtain ⟨hb, hr, hw⟩ := wf_cons.1 hm
    cases n with
    | nil => have := h a; simp [memGet] at this; exact absurd this hb
    | cons d q =>
      obtain ⟨a', b'⟩ := d
      obtain ⟨hb', hq, hv⟩ := wf_cons.1 hn
      have key : a = a' := by
        rcases Nat.lt_trichotomy a a' with l | e | l
        · have := h a; simp [memGet, Nat.ne_of_gt l, l] at this; exact absurd this hb
        · exact e
        · have := h a'; simp [memGet, Nat.ne_of_gt l, l] at this; exact absurd this.symm hb'
      subst key
      have e1 : b = b' := by simpa [memGet] using h a
      subst e1
      rw [ih hw hv fun x => ?_]
      have hx := h x
      by_cases e : a = x
      · subst e; rw [memGet_below hr (Nat.lt_succ_self _), memGet_below hq (Nat.lt_succ_self _)]
      · by_cases lt : x < a
        · rw [memGet_below hr (Nat.lt_succ_of_lt lt), memGet_below hq (Nat.lt_succ_of_lt lt)]
        · simpa [memGet, e, lt] using hx

theorem reset_memOk : State.reset.MemOk := ⟨rfl, rfl⟩

end Sys2Proof.Machine
end

