-- ==== Sys2Proof/Laws/PerInstr.lean ====
section
/-! SUPPORT. One lemma per constructor of Instr about its encoding: a well-formed instruction has a row of the encodings, that
row rebuilds it from its operand values, and every operand value fits its field (R171 to R183). -/

set_option linter.unusedSimpArgs false
set_option linter.unusedVariables false

namespace Sys2Proof.Laws

/-- Whether the operand values, in order, fit the operand fields of a form, one each. -/
def fits : List Fld → List Nat → Bool
  | [], [] => true
  | [], _ :: _ => false
  | ⟨_, wd, .par⟩ :: fs, v :: vs => decide (v < 2 ^ wd) && fits fs vs
  | ⟨_, _, .par⟩ :: _, [] => false
  | ⟨_, _, .key _⟩ :: fs, vs => fits fs vs
  | ⟨_, _, .fixed _⟩ :: fs, vs => fits fs vs
  | ⟨_, _, .zero⟩ :: fs, vs => fits fs vs

/-- What the family states of an instruction: well formed, it has a row, which rebuilds it from operand values that fit. -/
def Shape.Statement (i : Instr) : Prop :=
  ∀ h, i.faults h = [] → i.isStep = false →
    ∃ r, opRows[i.rowIdx]? = some r ∧ r.make (fun n => i.vals.getD n 0) = i ∧ fits r.fields i.vals = true

theorem fits_par (lo wd v : Nat) (fs : List Fld) (vs : List Nat) :
    fits (pf lo wd :: fs) (v :: vs) = (decide (v < 2 ^ wd) && fits fs vs) := rfl
theorem fits_key (lo wd k : Nat) (fs : List Fld) (vs : List Nat) : fits (kf lo wd k :: fs) vs = fits fs vs := by
  cases vs <;> rfl
theorem fits_rf (lo wd : Nat) (fs : List Fld) (vs : List Nat) : fits (rf lo wd :: fs) vs = fits fs vs := by
  cases vs <;> rfl
theorem fits_cf (lo wd k : Nat) (fs : List Fld) (vs : List Nat) : fits (cf lo wd k :: fs) vs = fits fs vs := by
  cases vs <;> rfl
theorem fits_zf (lo wd : Nat) (fs : List Fld) (vs : List Nat) : fits (zf lo wd :: fs) vs = fits fs vs := by
  cases vs <;> rfl
theorem fits_nil : fits [] [] = true := rfl

theorem bit_bitN (b : Bool) : bit (bitN b) = b := by cases b <;> rfl
theorem bitN_lt (b : Bool) : bitN b < 2 := by cases b <;> decide

/-- The limit of a register field in a helper and in a control context. -/
def lim (h : Bool) (a b : Nat) : Nat := if h then a else b
theorem lim_le (h : Bool) (a b : Nat) (x : a ≤ b) : lim h a b ≤ b := by cases h <;> simp [lim, x]

theorem chk_nil (b : Bool) (r lo : Nat) : chk b r lo = [] ↔ b = false := by cases b <;> simp [chk]
theorem ckN_nil (n v lo : Nat) : ckN n v lo = [] ↔ v < n := by simp [ckN, chk_nil]
theorem ckSd_nil (h : Bool) (r lo : Nat) : ckSd h r lo = [] ↔ r < lim h 16 48 := by simp [ckSd, chk_nil, lim]
theorem ckSs_nil (h : Bool) (r lo : Nat) : ckSs h r lo = [] ↔ r < lim h 16 48 ∨ r = 48 ∨ r = 49 := by
  simp [ckSs, chk_nil, lim]; omega
theorem ckV_nil (h : Bool) (r lo : Nat) : ckV h r lo = [] ↔ r < lim h 4 16 := by simp [ckV, chk_nil, lim]
theorem ckK_nil (h : Bool) (r lo : Nat) : ckK h r lo = [] ↔ r < lim h 4 8 := by simp [ckK, chk_nil, lim]
theorem ckG_nil (h : Bool) (r lo : Nat) : ckG h r lo = [] ↔ r < lim h 8 16 := by simp [ckG, chk_nil, lim]
theorem ckT_nil (r lo : Nat) : ckT r lo = [] ↔ r < 16 := by simp [ckT, chk_nil]
theorem ckRnd_nil (r lo : Nat) : ckRnd r lo = [] ↔ r < 6 := by simp [ckRnd, chk_nil]

/-- The codes of word 2 fit their fields. -/
def extFits (x : Ext) : Prop := x.ahead < 16 ∧ x.scope < 5 ∧ x.ord < 4 ∧ x.wait < 4 ∧ x.gslot < 16

theorem bare_fits {h : Bool} {x : Ext} (e : x.bare h = []) : extFits x := by
  simp only [Ext.bare, Ext.guardFaults, List.append_eq_nil_iff, chk_nil, ckN_nil, bne_eq_false_iff_eq] at e
  simp only [extFits]; omega
theorem access_fits {h : Bool} {x : Ext} (e : x.access h = []) : extFits x := by
  simp only [Ext.access, Ext.guardFaults, List.append_eq_nil_iff, chk_nil, ckN_nil] at e
  simp only [extFits]; omega
theorem load_fits {h : Bool} {x : Ext} (e : x.load h = []) : extFits x :=
  access_fits (List.append_eq_nil_iff.1 e).1
theorem store_fits {h : Bool} {x : Ext} (e : x.store h = []) : extFits x :=
  access_fits (List.append_eq_nil_iff.1 (List.append_eq_nil_iff.1 e).1).1
theorem atom_fits {h : Bool} {x : Ext} (e : x.atom h = []) : extFits x := access_fits e
theorem tload_fits {h : Bool} {x : Ext} (e : x.tload h = []) : extFits x := load_fits (List.append_eq_nil_iff.1 e).1
theorem tstore_fits {h : Bool} {x : Ext} (e : x.tstore h = []) : extFits x := store_fits e
theorem tile_fits {h : Bool} {x : Ext} (e : x.tile h = []) : extFits x := bare_fits e
theorem noguard_fits {h : Bool} {x : Ext} (e : x.noguard h = []) : extFits x := bare_fits (List.append_eq_nil_iff.1 e).1
theorem cmd_fits {h : Bool} {x : Ext} (e : x.cmd h = []) : extFits x := bare_fits e

/-- A prefix that fits its word, or is absent. -/
def pfxFits (p : Pfx) : Prop :=
  p.mask < 8 ∧ p.round < 8 ∧ p.fourth < 64 ∧ (p.present = false → p = Pfx.none)

theorem pfx_fits {h : Bool} {p : Pfx} (e : p.faults h = []) : pfxFits p := by
  simp only [Pfx.faults, List.append_eq_nil_iff, chk_nil, ckN_nil, ckK_nil, ckRnd_nil] at e
  have l := lim_le h 4 8 (by decide)
  have a := e.1.1.1.1
  refine ⟨by omega, by omega, by omega, fun n => ?_⟩
  simpa [Pfx.absentOk, n] using a
theorem plain_fits {h : Bool} {p : Pfx} (e : p.plain h = []) : pfxFits p :=
  pfx_fits (List.append_eq_nil_iff.1 (List.append_eq_nil_iff.1 e).1).1
theorem rounding_fits {h : Bool} {p : Pfx} (e : p.rounding h = []) : pfxFits p := pfx_fits (List.append_eq_nil_iff.1 e).1
theorem fma_fits {h : Bool} {p : Pfx} (e : p.fma h = []) : pfxFits p := pfx_fits (List.append_eq_nil_iff.1 e).1
theorem k0_fits {h : Bool} {p : Pfx} (e : p.k0 h = []) : pfxFits p :=
  plain_fits (List.append_eq_nil_iff.1 (List.append_eq_nil_iff.1 e).1).1
theorem red_fits {h : Bool} {p : Pfx} (e : p.red h = []) : pfxFits p := plain_fits (List.append_eq_nil_iff.1 e).1
theorem scalar_fits {h : Bool} {p : Pfx} (e : p.scalar h = []) : pfxFits p := k0_fits (List.append_eq_nil_iff.1 e).1

theorem ckSpace_fits {sp cs a b : Nat} (e : ckSpace sp cs a b = []) : sp < 3 ∧ cs < 2 := by
  simp only [ckSpace, List.append_eq_nil_iff, chk_nil, Bool.or_eq_false_iff, decide_eq_false_iff_not] at e
  omega
theorem addr_fits {m : Addr} (e : m.faults = []) : m.space < 3 ∧ m.csel < 2 := ckSpace_fits e


theorem Shape.add (d : Nat) (a : Nat) (b : Nat) : Shape.Statement (.add d a b) := by
  intro h hf _
  have hf : ckSd h d 20 ++ ckSs h a 14 ++ ckSs h b 8 = [] := hf
  simp only [List.append_eq_nil_iff] at hf
  have e0 := (ckSd_nil ..).1 hf.1.1
  have e1 := (ckSs_nil ..).1 hf.1.2
  have e2 := (ckSs_nil ..).1 hf.2
  have l1648 := lim_le h 16 48 (by decide)
  refine ⟨_, rfl, rfl, ?_⟩
  show fits [kf 0 2 0, kf 2 6 0x1, kf 26 6 0, pf 20 6, pf 14 6, pf 8 6] [d, a, b] = true
  simp only [fits_par, fits_key, fits_rf, fits_cf, fits_zf, fits_nil, Bool.and_eq_true, decide_eq_true_eq, Bool.and_true]
  omega

theorem Shape.sub (d : Nat) (a : Nat) (b : Nat) : Shape.Statement (.sub d a b) := by
  intro h hf _
  have hf : ckSd h d 20 ++ ckSs h a 14 ++ ckSs h b 8 = [] := hf
  simp only [List.append_eq_nil_iff] at hf
  have e0 := (ckSd_nil ..).1 hf.1.1
  have e1 := (ckSs_nil ..).1 hf.1.2
  have e2 := (ckSs_nil ..).1 hf.2
  have l1648 := lim_le h 16 48 (by decide)
  refine ⟨_, rfl, rfl, ?_⟩
  show fits [kf 0 2 0, kf 2 6 0x1, kf 26 6 1, pf 20 6, pf 14 6, pf 8 6] [d, a, b] = true
  simp only [fits_par, fits_key, fits_rf, fits_cf, fits_zf, fits_nil, Bool.and_eq_true, decide_eq_true_eq, Bool.and_true]
  omega

theorem Shape.and (d : Nat) (a : Nat) (b : Nat) : Shape.Statement (.and d a b) := by
  intro h hf _
  have hf : ckSd h d 20 ++ ckSs h a 14 ++ ckSs h b 8 = [] := hf
  simp only [List.append_eq_nil_iff] at hf
  have e0 := (ckSd_nil ..).1 hf.1.1
  have e1 := (ckSs_nil ..).1 hf.1.2
  have e2 := (ckSs_nil ..).1 hf.2
  have l1648 := lim_le h 16 48 (by decide)
  refine ⟨_, rfl, rfl, ?_⟩
  show fits [kf 0 2 0, kf 2 6 0x1, kf 26 6 2, pf 20 6, pf 14 6, pf 8 6] [d, a, b] = true
  simp only [fits_par, fits_key, fits_rf, fits_cf, fits_zf, fits_nil, Bool.and_eq_true, decide_eq_true_eq, Bool.and_true]
  omega

theorem Shape.or (d : Nat) (a : Nat) (b : Nat) : Shape.Statement (.or d a b) := by
  intro h hf _
  have hf : ckSd h d 20 ++ ckSs h a 14 ++ ckSs h b 8 = [] := hf
  simp only [List.append_eq_nil_iff] at hf
  have e0 := (ckSd_nil ..).1 hf.1.1
  have e1 := (ckSs_nil ..).1 hf.1.2
  have e2 := (ckSs_nil ..).1 hf.2
  have l1648 := lim_le h 16 48 (by decide)
  refine ⟨_, rfl, rfl, ?_⟩
  show fits [kf 0 2 0, kf 2 6 0x1, kf 26 6 3, pf 20 6, pf 14 6, pf 8 6] [d, a, b] = true
  simp only [fits_par, fits_key, fits_rf, fits_cf, fits_zf, fits_nil, Bool.and_eq_true, decide_eq_true_eq, Bool.and_true]
  omega

theorem Shape.xor (d : Nat) (a : Nat) (b : Nat) : Shape.Statement (.xor d a b) := by
  intro h hf _
  have hf : ckSd h d 20 ++ ckSs h a 14 ++ ckSs h b 8 = [] := hf
  simp only [List.append_eq_nil_iff] at hf
  have e0 := (ckSd_nil ..).1 hf.1.1
  have e1 := (ckSs_nil ..).1 hf.1.2
  have e2 := (ckSs_nil ..).1 hf.2
  have l1648 := lim_le h 16 48 (by decide)
  refine ⟨_, rfl, rfl, ?_⟩
  show fits [kf 0 2 0, kf 2 6 0x1, kf 26 6 4, pf 20 6, pf 14 6, pf 8 6] [d, a, b] = true
  simp only [fits_par, fits_key, fits_rf, fits_cf, fits_zf, fits_nil, Bool.and_eq_true, decide_eq_true_eq, Bool.and_true]
  omega

theorem Shape.andn (d : Nat) (a : Nat) (b : Nat) : Shape.Statement (.andn d a b) := by
  intro h hf _
  have hf : ckSd h d 20 ++ ckSs h a 14 ++ ckSs h b 8 = [] := hf
  simp only [List.append_eq_nil_iff] at hf
  have e0 := (ckSd_nil ..).1 hf.1.1
  have e1 := (ckSs_nil ..).1 hf.1.2
  have e2 := (ckSs_nil ..).1 hf.2
  have l1648 := lim_le h 16 48 (by decide)
  refine ⟨_, rfl, rfl, ?_⟩
  show fits [kf 0 2 0, kf 2 6 0x1, kf 26 6 5, pf 20 6, pf 14 6, pf 8 6] [d, a, b] = true
  simp only [fits_par, fits_key, fits_rf, fits_cf, fits_zf, fits_nil, Bool.and_eq_true, decide_eq_true_eq, Bool.and_true]
  omega

theorem Shape.sll (d : Nat) (a : Nat) (b : Nat) : Shape.Statement (.sll d a b) := by
  intro h hf _
  have hf : ckSd h d 20 ++ ckSs h a 14 ++ ckSs h b 8 = [] := hf
  simp only [List.append_eq_nil_iff] at hf
  have e0 := (ckSd_nil ..).1 hf.1.1
  have e1 := (ckSs_nil ..).1 hf.1.2
  have e2 := (ckSs_nil ..).1 hf.2
  have l1648 := lim_le h 16 48 (by decide)
  refine ⟨_, rfl, rfl, ?_⟩
  show fits [kf 0 2 0, kf 2 6 0x1, kf 26 6 6, pf 20 6, pf 14 6, pf 8 6] [d, a, b] = true
  simp only [fits_par, fits_key, fits_rf, fits_cf, fits_zf, fits_nil, Bool.and_eq_true, decide_eq_true_eq, Bool.and_true]
  omega

theorem Shape.srl (d : Nat) (a : Nat) (b : Nat) : Shape.Statement (.srl d a b) := by
  intro h hf _
  have hf : ckSd h d 20 ++ ckSs h a 14 ++ ckSs h b 8 = [] := hf
  simp only [List.append_eq_nil_iff] at hf
  have e0 := (ckSd_nil ..).1 hf.1.1
  have e1 := (ckSs_nil ..).1 hf.1.2
  have e2 := (ckSs_nil ..).1 hf.2
  have l1648 := lim_le h 16 48 (by decide)
  refine ⟨_, rfl, rfl, ?_⟩
  show fits [kf 0 2 0, kf 2 6 0x1, kf 26 6 7, pf 20 6, pf 14 6, pf 8 6] [d, a, b] = true
  simp only [fits_par, fits_key, fits_rf, fits_cf, fits_zf, fits_nil, Bool.and_eq_true, decide_eq_true_eq, Bool.and_true]
  omega

theorem Shape.sra (d : Nat) (a : Nat) (b : Nat) : Shape.Statement (.sra d a b) := by
  intro h hf _
  have hf : ckSd h d 20 ++ ckSs h a 14 ++ ckSs h b 8 = [] := hf
  simp only [List.append_eq_nil_iff] at hf
  have e0 := (ckSd_nil ..).1 hf.1.1
  have e1 := (ckSs_nil ..).1 hf.1.2
  have e2 := (ckSs_nil ..).1 hf.2
  have l1648 := lim_le h 16 48 (by decide)
  refine ⟨_, rfl, rfl, ?_⟩
  show fits [kf 0 2 0, kf 2 6 0x1, kf 26 6 8, pf 20 6, pf 14 6, pf 8 6] [d, a, b] = true
  simp only [fits_par, fits_key, fits_rf, fits_cf, fits_zf, fits_nil, Bool.and_eq_true, decide_eq_true_eq, Bool.and_true]
  omega

theorem Shape.ror (d : Nat) (a : Nat) (b : Nat) : Shape.Statement (.ror d a b) := by
  intro h hf _
  have hf : ckSd h d 20 ++ ckSs h a 14 ++ ckSs h b 8 = [] := hf
  simp only [List.append_eq_nil_iff] at hf
  have e0 := (ckSd_nil ..).1 hf.1.1
  have e1 := (ckSs_nil ..).1 hf.1.2
  have e2 := (ckSs_nil ..).1 hf.2
  have l1648 := lim_le h 16 48 (by decide)
  refine ⟨_, rfl, rfl, ?_⟩
  show fits [kf 0 2 0, kf 2 6 0x1, kf 26 6 9, pf 20 6, pf 14 6, pf 8 6] [d, a, b] = true
  simp only [fits_par, fits_key, fits_rf, fits_cf, fits_zf, fits_nil, Bool.and_eq_true, decide_eq_true_eq, Bool.and_true]
  omega

theorem Shape.mul (d : Nat) (a : Nat) (b : Nat) : Shape.Statement (.mul d a b) := by
  intro h hf _
  have hf : ckSd h d 20 ++ ckSs h a 14 ++ ckSs h b 8 = [] := hf
  simp only [List.append_eq_nil_iff] at hf
  have e0 := (ckSd_nil ..).1 hf.1.1
  have e1 := (ckSs_nil ..).1 hf.1.2
  have e2 := (ckSs_nil ..).1 hf.2
  have l1648 := lim_le h 16 48 (by decide)
  refine ⟨_, rfl, rfl, ?_⟩
  show fits [kf 0 2 0, kf 2 6 0x1, kf 26 6 10, pf 20 6, pf 14 6, pf 8 6] [d, a, b] = true
  simp only [fits_par, fits_key, fits_rf, fits_cf, fits_zf, fits_nil, Bool.and_eq_true, decide_eq_true_eq, Bool.and_true]
  omega

theorem Shape.mulhI64 (d : Nat) (a : Nat) (b : Nat) : Shape.Statement (.mulhI64 d a b) := by
  intro h hf _
  have hf : ckSd h d 20 ++ ckSs h a 14 ++ ckSs h b 8 = [] := hf
  simp only [List.append_eq_nil_iff] at hf
  have e0 := (ckSd_nil ..).1 hf.1.1
  have e1 := (ckSs_nil ..).1 hf.1.2
  have e2 := (ckSs_nil ..).1 hf.2
  have l1648 := lim_le h 16 48 (by decide)
  refine ⟨_, rfl, rfl, ?_⟩
  show fits [kf 0 2 0, kf 2 6 0x1, kf 26 6 11, pf 20 6, pf 14 6, pf 8 6] [d, a, b] = true
  simp only [fits_par, fits_key, fits_rf, fits_cf, fits_zf, fits_nil, Bool.and_eq_true, decide_eq_true_eq, Bool.and_true]
  omega

theorem Shape.mulhN64 (d : Nat) (a : Nat) (b : Nat) : Shape.Statement (.mulhN64 d a b) := by
  intro h hf _
  have hf : ckSd h d 20 ++ ckSs h a 14 ++ ckSs h b 8 = [] := hf
  simp only [List.append_eq_nil_iff] at hf
  have e0 := (ckSd_nil ..).1 hf.1.1
  have e1 := (ckSs_nil ..).1 hf.1.2
  have e2 := (ckSs_nil ..).1 hf.2
  have l1648 := lim_le h 16 48 (by decide)
  refine ⟨_, rfl, rfl, ?_⟩
  show fits [kf 0 2 0, kf 2 6 0x1, kf 26 6 12, pf 20 6, pf 14 6, pf 8 6] [d, a, b] = true
  simp only [fits_par, fits_key, fits_rf, fits_cf, fits_zf, fits_nil, Bool.and_eq_true, decide_eq_true_eq, Bool.and_true]
  omega

theorem Shape.minI64 (d : Nat) (a : Nat) (b : Nat) : Shape.Statement (.minI64 d a b) := by
  intro h hf _
  have hf : ckSd h d 20 ++ ckSs h a 14 ++ ckSs h b 8 = [] := hf
  simp only [List.append_eq_nil_iff] at hf
  have e0 := (ckSd_nil ..).1 hf.1.1
  have e1 := (ckSs_nil ..).1 hf.1.2
  have e2 := (ckSs_nil ..).1 hf.2
  have l1648 := lim_le h 16 48 (by decide)
  refine ⟨_, rfl, rfl, ?_⟩
  show fits [kf 0 2 0, kf 2 6 0x1, kf 26 6 13, pf 20 6, pf 14 6, pf 8 6] [d, a, b] = true
  simp only [fits_par, fits_key, fits_rf, fits_cf, fits_zf, fits_nil, Bool.and_eq_true, decide_eq_true_eq, Bool.and_true]
  omega

theorem Shape.minN64 (d : Nat) (a : Nat) (b : Nat) : Shape.Statement (.minN64 d a b) := by
  intro h hf _
  have hf : ckSd h d 20 ++ ckSs h a 14 ++ ckSs h b 8 = [] := hf
  simp only [List.append_eq_nil_iff] at hf
  have e0 := (ckSd_nil ..).1 hf.1.1
  have e1 := (ckSs_nil ..).1 hf.1.2
  have e2 := (ckSs_nil ..).1 hf.2
  have l1648 := lim_le h 16 48 (by decide)
  refine ⟨_, rfl, rfl, ?_⟩
  show fits [kf 0 2 0, kf 2 6 0x1, kf 26 6 14, pf 20 6, pf 14 6, pf 8 6] [d, a, b] = true
  simp only [fits_par, fits_key, fits_rf, fits_cf, fits_zf, fits_nil, Bool.and_eq_true, decide_eq_true_eq, Bool.and_true]
  omega

theorem Shape.maxI64 (d : Nat) (a : Nat) (b : Nat) : Shape.Statement (.maxI64 d a b) := by
  intro h hf _
  have hf : ckSd h d 20 ++ ckSs h a 14 ++ ckSs h b 8 = [] := hf
  simp only [List.append_eq_nil_iff] at hf
  have e0 := (ckSd_nil ..).1 hf.1.1
  have e1 := (ckSs_nil ..).1 hf.1.2
  have e2 := (ckSs_nil ..).1 hf.2
  have l1648 := lim_le h 16 48 (by decide)
  refine ⟨_, rfl, rfl, ?_⟩
  show fits [kf 0 2 0, kf 2 6 0x1, kf 26 6 15, pf 20 6, pf 14 6, pf 8 6] [d, a, b] = true
  simp only [fits_par, fits_key, fits_rf, fits_cf, fits_zf, fits_nil, Bool.and_eq_true, decide_eq_true_eq, Bool.and_true]
  omega

theorem Shape.maxN64 (d : Nat) (a : Nat) (b : Nat) : Shape.Statement (.maxN64 d a b) := by
  intro h hf _
  have hf : ckSd h d 20 ++ ckSs h a 14 ++ ckSs h b 8 = [] := hf
  simp only [List.append_eq_nil_iff] at hf
  have e0 := (ckSd_nil ..).1 hf.1.1
  have e1 := (ckSs_nil ..).1 hf.1.2
  have e2 := (ckSs_nil ..).1 hf.2
  have l1648 := lim_le h 16 48 (by decide)
  refine ⟨_, rfl, rfl, ?_⟩
  show fits [kf 0 2 0, kf 2 6 0x1, kf 26 6 16, pf 20 6, pf 14 6, pf 8 6] [d, a, b] = true
  simp only [fits_par, fits_key, fits_rf, fits_cf, fits_zf, fits_nil, Bool.and_eq_true, decide_eq_true_eq, Bool.and_true]
  omega

theorem Shape.clmulN64 (d : Nat) (a : Nat) (b : Nat) : Shape.Statement (.clmulN64 d a b) := by
  intro h hf _
  have hf : ckSd h d 20 ++ ckSs h a 14 ++ ckSs h b 8 = [] := hf
  simp only [List.append_eq_nil_iff] at hf
  have e0 := (ckSd_nil ..).1 hf.1.1
  have e1 := (ckSs_nil ..).1 hf.1.2
  have e2 := (ckSs_nil ..).1 hf.2
  have l1648 := lim_le h 16 48 (by decide)
  refine ⟨_, rfl, rfl, ?_⟩
  show fits [kf 0 2 0, kf 2 6 0x1, kf 26 6 17, pf 20 6, pf 14 6, pf 8 6] [d, a, b] = true
  simp only [fits_par, fits_key, fits_rf, fits_cf, fits_zf, fits_nil, Bool.and_eq_true, decide_eq_true_eq, Bool.and_true]
  omega

theorem Shape.clmulhN64 (d : Nat) (a : Nat) (b : Nat) : Shape.Statement (.clmulhN64 d a b) := by
  intro h hf _
  have hf : ckSd h d 20 ++ ckSs h a 14 ++ ckSs h b 8 = [] := hf
  simp only [List.append_eq_nil_iff] at hf
  have e0 := (ckSd_nil ..).1 hf.1.1
  have e1 := (ckSs_nil ..).1 hf.1.2
  have e2 := (ckSs_nil ..).1 hf.2
  have l1648 := lim_le h 16 48 (by decide)
  refine ⟨_, rfl, rfl, ?_⟩
  show fits [kf 0 2 0, kf 2 6 0x1, kf 26 6 18, pf 20 6, pf 14 6, pf 8 6] [d, a, b] = true
  simp only [fits_par, fits_key, fits_rf, fits_cf, fits_zf, fits_nil, Bool.and_eq_true, decide_eq_true_eq, Bool.and_true]
  omega

theorem Shape.popcN64 (d : Nat) (a : Nat) : Shape.Statement (.popcN64 d a) := by
  intro h hf _
  have hf : ckSd h d 20 ++ ckSs h a 14 = [] := hf
  simp only [List.append_eq_nil_iff] at hf
  have e0 := (ckSd_nil ..).1 hf.1
  have e1 := (ckSs_nil ..).1 hf.2
  have l1648 := lim_le h 16 48 (by decide)
  refine ⟨_, rfl, rfl, ?_⟩
  show fits [kf 0 2 0, kf 2 6 0x1, kf 26 6 19, pf 20 6, pf 14 6, rf 8 6] [d, a] = true
  simp only [fits_par, fits_key, fits_rf, fits_cf, fits_zf, fits_nil, Bool.and_eq_true, decide_eq_true_eq, Bool.and_true]
  omega

theorem Shape.clzN64 (d : Nat) (a : Nat) : Shape.Statement (.clzN64 d a) := by
  intro h hf _
  have hf : ckSd h d 20 ++ ckSs h a 14 = [] := hf
  simp only [List.append_eq_nil_iff] at hf
  have e0 := (ckSd_nil ..).1 hf.1
  have e1 := (ckSs_nil ..).1 hf.2
  have l1648 := lim_le h 16 48 (by decide)
  refine ⟨_, rfl, rfl, ?_⟩
  show fits [kf 0 2 0, kf 2 6 0x1, kf 26 6 20, pf 20 6, pf 14 6, rf 8 6] [d, a] = true
  simp only [fits_par, fits_key, fits_rf, fits_cf, fits_zf, fits_nil, Bool.and_eq_true, decide_eq_true_eq, Bool.and_true]
  omega

theorem Shape.ctzN64 (d : Nat) (a : Nat) : Shape.Statement (.ctzN64 d a) := by
  intro h hf _
  have hf : ckSd h d 20 ++ ckSs h a 14 = [] := hf
  simp only [List.append_eq_nil_iff] at hf
  have e0 := (ckSd_nil ..).1 hf.1
  have e1 := (ckSs_nil ..).1 hf.2
  have l1648 := lim_le h 16 48 (by decide)
  refine ⟨_, rfl, rfl, ?_⟩
  show fits [kf 0 2 0, kf 2 6 0x1, kf 26 6 21, pf 20 6, pf 14 6, rf 8 6] [d, a] = true
  simp only [fits_par, fits_key, fits_rf, fits_cf, fits_zf, fits_nil, Bool.and_eq_true, decide_eq_true_eq, Bool.and_true]
  omega

theorem Shape.bswapN64 (d : Nat) (a : Nat) : Shape.Statement (.bswapN64 d a) := by
  intro h hf _
  have hf : ckSd h d 20 ++ ckSs h a 14 = [] := hf
  simp only [List.append_eq_nil_iff] at hf
  have e0 := (ckSd_nil ..).1 hf.1
  have e1 := (ckSs_nil ..).1 hf.2
  have l1648 := lim_le h 16 48 (by decide)
  refine ⟨_, rfl, rfl, ?_⟩
  show fits [kf 0 2 0, kf 2 6 0x1, kf 26 6 22, pf 20 6, pf 14 6, rf 8 6] [d, a] = true
  simp only [fits_par, fits_key, fits_rf, fits_cf, fits_zf, fits_nil, Bool.and_eq_true, decide_eq_true_eq, Bool.and_true]
  omega

theorem Shape.extI64 (d : Nat) (a : Nat) (b : Nat) : Shape.Statement (.extI64 d a b) := by
  intro h hf _
  have hf : ckSd h d 20 ++ ckSs h a 14 ++ ckSs h b 8 = [] := hf
  simp only [List.append_eq_nil_iff] at hf
  have e0 := (ckSd_nil ..).1 hf.1.1
  have e1 := (ckSs_nil ..).1 hf.1.2
  have e2 := (ckSs_nil ..).1 hf.2
  have l1648 := lim_le h 16 48 (by decide)
  refine ⟨_, rfl, rfl, ?_⟩
  show fits [kf 0 2 0, kf 2 6 0x1, kf 26 6 23, pf 20 6, pf 14 6, pf 8 6] [d, a, b] = true
  simp only [fits_par, fits_key, fits_rf, fits_cf, fits_zf, fits_nil, Bool.and_eq_true, decide_eq_true_eq, Bool.and_true]
  omega

theorem Shape.extN64 (d : Nat) (a : Nat) (b : Nat) : Shape.Statement (.extN64 d a b) := by
  intro h hf _
  have hf : ckSd h d 20 ++ ckSs h a 14 ++ ckSs h b 8 = [] := hf
  simp only [List.append_eq_nil_iff] at hf
  have e0 := (ckSd_nil ..).1 hf.1.1
  have e1 := (ckSs_nil ..).1 hf.1.2
  have e2 := (ckSs_nil ..).1 hf.2
  have l1648 := lim_le h 16 48 (by decide)
  refine ⟨_, rfl, rfl, ?_⟩
  show fits [kf 0 2 0, kf 2 6 0x1, kf 26 6 24, pf 20 6, pf 14 6, pf 8 6] [d, a, b] = true
  simp only [fits_par, fits_key, fits_rf, fits_cf, fits_zf, fits_nil, Bool.and_eq_true, decide_eq_true_eq, Bool.and_true]
  omega

theorem Shape.insN64 (d : Nat) (a : Nat) (b : Nat) : Shape.Statement (.insN64 d a b) := by
  intro h hf _
  have hf : ckSd h d 20 ++ ckSs h a 14 ++ ckSs h b 8 = [] := hf
  simp only [List.append_eq_nil_iff] at hf
  have e0 := (ckSd_nil ..).1 hf.1.1
  have e1 := (ckSs_nil ..).1 hf.1.2
  have e2 := (ckSs_nil ..).1 hf.2
  have l1648 := lim_le h 16 48 (by decide)
  refine ⟨_, rfl, rfl, ?_⟩
  show fits [kf 0 2 0, kf 2 6 0x1, kf 26 6 25, pf 20 6, pf 14 6, pf 8 6] [d, a, b] = true
  simp only [fits_par, fits_key, fits_rf, fits_cf, fits_zf, fits_nil, Bool.and_eq_true, decide_eq_true_eq, Bool.and_true]
  omega

theorem Shape.sxtI8 (d : Nat) (a : Nat) : Shape.Statement (.sxtI8 d a) := by
  intro h hf _
  have hf : ckSd h d 20 ++ ckSs h a 14 = [] := hf
  simp only [List.append_eq_nil_iff] at hf
  have e0 := (ckSd_nil ..).1 hf.1
  have e1 := (ckSs_nil ..).1 hf.2
  have l1648 := lim_le h 16 48 (by decide)
  refine ⟨_, rfl, rfl, ?_⟩
  show fits [kf 0 2 0, kf 2 6 0x1, kf 26 6 26, pf 20 6, pf 14 6, rf 8 6] [d, a] = true
  simp only [fits_par, fits_key, fits_rf, fits_cf, fits_zf, fits_nil, Bool.and_eq_true, decide_eq_true_eq, Bool.and_true]
  omega

theorem Shape.sxtI16 (d : Nat) (a : Nat) : Shape.Statement (.sxtI16 d a) := by
  intro h hf _
  have hf : ckSd h d 20 ++ ckSs h a 14 = [] := hf
  simp only [List.append_eq_nil_iff] at hf
  have e0 := (ckSd_nil ..).1 hf.1
  have e1 := (ckSs_nil ..).1 hf.2
  have l1648 := lim_le h 16 48 (by decide)
  refine ⟨_, rfl, rfl, ?_⟩
  show fits [kf 0 2 0, kf 2 6 0x1, kf 26 6 27, pf 20 6, pf 14 6, rf 8 6] [d, a] = true
  simp only [fits_par, fits_key, fits_rf, fits_cf, fits_zf, fits_nil, Bool.and_eq_true, decide_eq_true_eq, Bool.and_true]
  omega

theorem Shape.sxtI32 (d : Nat) (a : Nat) : Shape.Statement (.sxtI32 d a) := by
  intro h hf _
  have hf : ckSd h d 20 ++ ckSs h a 14 = [] := hf
  simp only [List.append_eq_nil_iff] at hf
  have e0 := (ckSd_nil ..).1 hf.1
  have e1 := (ckSs_nil ..).1 hf.2
  have l1648 := lim_le h 16 48 (by decide)
  refine ⟨_, rfl, rfl, ?_⟩
  show fits [kf 0 2 0, kf 2 6 0x1, kf 26 6 28, pf 20 6, pf 14 6, rf 8 6] [d, a] = true
  simp only [fits_par, fits_key, fits_rf, fits_cf, fits_zf, fits_nil, Bool.and_eq_true, decide_eq_true_eq, Bool.and_true]
  omega

theorem Shape.zxtN8 (d : Nat) (a : Nat) : Shape.Statement (.zxtN8 d a) := by
  intro h hf _
  have hf : ckSd h d 20 ++ ckSs h a 14 = [] := hf
  simp only [List.append_eq_nil_iff] at hf
  have e0 := (ckSd_nil ..).1 hf.1
  have e1 := (ckSs_nil ..).1 hf.2
  have l1648 := lim_le h 16 48 (by decide)
  refine ⟨_, rfl, rfl, ?_⟩
  show fits [kf 0 2 0, kf 2 6 0x1, kf 26 6 29, pf 20 6, pf 14 6, rf 8 6] [d, a] = true
  simp only [fits_par, fits_key, fits_rf, fits_cf, fits_zf, fits_nil, Bool.and_eq_true, decide_eq_true_eq, Bool.and_true]
  omega

theorem Shape.zxtN16 (d : Nat) (a : Nat) : Shape.Statement (.zxtN16 d a) := by
  intro h hf _
  have hf : ckSd h d 20 ++ ckSs h a 14 = [] := hf
  simp only [List.append_eq_nil_iff] at hf
  have e0 := (ckSd_nil ..).1 hf.1
  have e1 := (ckSs_nil ..).1 hf.2
  have l1648 := lim_le h 16 48 (by decide)
  refine ⟨_, rfl, rfl, ?_⟩
  show fits [kf 0 2 0, kf 2 6 0x1, kf 26 6 30, pf 20 6, pf 14 6, rf 8 6] [d, a] = true
  simp only [fits_par, fits_key, fits_rf, fits_cf, fits_zf, fits_nil, Bool.and_eq_true, decide_eq_true_eq, Bool.and_true]
  omega

theorem Shape.zxtN32 (d : Nat) (a : Nat) : Shape.Statement (.zxtN32 d a) := by
  intro h hf _
  have hf : ckSd h d 20 ++ ckSs h a 14 = [] := hf
  simp only [List.append_eq_nil_iff] at hf
  have e0 := (ckSd_nil ..).1 hf.1
  have e1 := (ckSs_nil ..).1 hf.2
  have l1648 := lim_le h 16 48 (by decide)
  refine ⟨_, rfl, rfl, ?_⟩
  show fits [kf 0 2 0, kf 2 6 0x1, kf 26 6 31, pf 20 6, pf 14 6, rf 8 6] [d, a] = true
  simp only [fits_par, fits_key, fits_rf, fits_cf, fits_zf, fits_nil, Bool.and_eq_true, decide_eq_true_eq, Bool.and_true]
  omega

theorem Shape.addi (imm : BitVec 12) (a : Nat) (d : Nat) : Shape.Statement (.addi imm a d) := by
  intro h hf _
  have hf : ckSs h a 14 ++ ckSd h d 8 = [] := hf
  simp only [List.append_eq_nil_iff] at hf
  have e0 := (ckSs_nil ..).1 hf.1
  have e1 := (ckSd_nil ..).1 hf.2
  have l1648 := lim_le h 16 48 (by decide)
  refine ⟨_, rfl, by
    show Instr.addi (BitVec.ofNat 12 (imm.toNat)) (a) (d) = _
    simp only [bit_bitN, BitVec.ofNat_toNat, BitVec.setWidth_eq], ?_⟩
  show fits [kf 0 2 0, kf 2 6 2, pf 8 6, pf 14 6, pf 20 12] [d, a, imm.toNat] = true
  have t_imm := imm.isLt
  simp only [fits_par, fits_key, fits_rf, fits_cf, fits_zf, fits_nil, Bool.and_eq_true, decide_eq_true_eq, Bool.and_true]
  omega

theorem Shape.addiLit32 (lit : BitVec 32) (a : Nat) (d : Nat) : Shape.Statement (.addiLit32 lit a d) := by
  intro h hf _
  have hf : ckSs h a 14 ++ ckSd h d 8 = [] := hf
  simp only [List.append_eq_nil_iff] at hf
  have e0 := (ckSs_nil ..).1 hf.1
  have e1 := (ckSd_nil ..).1 hf.2
  have l1648 := lim_le h 16 48 (by decide)
  refine ⟨_, rfl, by
    show Instr.addiLit32 (BitVec.ofNat 32 (lit.toNat)) (a) (d) = _
    simp only [bit_bitN, BitVec.ofNat_toNat, BitVec.setWidth_eq], ?_⟩
  show fits [kf 0 2 1, kf 2 6 2, pf 8 6, pf 14 6, zf 20 12, pf 32 32] [d, a, lit.toNat] = true
  have t_lit := lit.isLt
  simp only [fits_par, fits_key, fits_rf, fits_cf, fits_zf, fits_nil, Bool.and_eq_true, decide_eq_true_eq, Bool.and_true]
  omega

theorem Shape.addiLit64 (lit : BitVec 64) (a : Nat) (d : Nat) : Shape.Statement (.addiLit64 lit a d) := by
  intro h hf _
  have hf : ckSs h a 14 ++ ckSd h d 8 = [] := hf
  simp only [List.append_eq_nil_iff] at hf
  have e0 := (ckSs_nil ..).1 hf.1
  have e1 := (ckSd_nil ..).1 hf.2
  have l1648 := lim_le h 16 48 (by decide)
  refine ⟨_, rfl, by
    show Instr.addiLit64 (BitVec.ofNat 64 (lit.toNat)) (a) (d) = _
    simp only [bit_bitN, BitVec.ofNat_toNat, BitVec.setWidth_eq], ?_⟩
  show fits [kf 0 2 2, kf 2 6 2, pf 8 6, pf 14 6, zf 20 12, pf 32 64] [d, a, lit.toNat] = true
  have t_lit := lit.isLt
  simp only [fits_par, fits_key, fits_rf, fits_cf, fits_zf, fits_nil, Bool.and_eq_true, decide_eq_true_eq, Bool.and_true]
  omega

theorem Shape.andi (imm : BitVec 12) (a : Nat) (d : Nat) : Shape.Statement (.andi imm a d) := by
  intro h hf _
  have hf : ckSs h a 14 ++ ckSd h d 8 = [] := hf
  simp only [List.append_eq_nil_iff] at hf
  have e0 := (ckSs_nil ..).1 hf.1
  have e1 := (ckSd_nil ..).1 hf.2
  have l1648 := lim_le h 16 48 (by decide)
  refine ⟨_, rfl, by
    show Instr.andi (BitVec.ofNat 12 (imm.toNat)) (a) (d) = _
    simp only [bit_bitN, BitVec.ofNat_toNat, BitVec.setWidth_eq], ?_⟩
  show fits [kf 0 2 0, kf 2 6 3, pf 8 6, pf 14 6, pf 20 12] [d, a, imm.toNat] = true
  have t_imm := imm.isLt
  simp only [fits_par, fits_key, fits_rf, fits_cf, fits_zf, fits_nil, Bool.and_eq_true, decide_eq_true_eq, Bool.and_true]
  omega

theorem Shape.andiLit32 (lit : BitVec 32) (a : Nat) (d : Nat) : Shape.Statement (.andiLit32 lit a d) := by
  intro h hf _
  have hf : ckSs h a 14 ++ ckSd h d 8 = [] := hf
  simp only [List.append_eq_nil_iff] at hf
  have e0 := (ckSs_nil ..).1 hf.1
  have e1 := (ckSd_nil ..).1 hf.2
  have l1648 := lim_le h 16 48 (by decide)
  refine ⟨_, rfl, by
    show Instr.andiLit32 (BitVec.ofNat 32 (lit.toNat)) (a) (d) = _
    simp only [bit_bitN, BitVec.ofNat_toNat, BitVec.setWidth_eq], ?_⟩
  show fits [kf 0 2 1, kf 2 6 3, pf 8 6, pf 14 6, zf 20 12, pf 32 32] [d, a, lit.toNat] = true
  have t_lit := lit.isLt
  simp only [fits_par, fits_key, fits_rf, fits_cf, fits_zf, fits_nil, Bool.and_eq_true, decide_eq_true_eq, Bool.and_true]
  omega

theorem Shape.andiLit64 (lit : BitVec 64) (a : Nat) (d : Nat) : Shape.Statement (.andiLit64 lit a d) := by
  intro h hf _
  have hf : ckSs h a 14 ++ ckSd h d 8 = [] := hf
  simp only [List.append_eq_nil_iff] at hf
  have e0 := (ckSs_nil ..).1 hf.1
  have e1 := (ckSd_nil ..).1 hf.2
  have l1648 := lim_le h 16 48 (by decide)
  refine ⟨_, rfl, by
    show Instr.andiLit64 (BitVec.ofNat 64 (lit.toNat)) (a) (d) = _
    simp only [bit_bitN, BitVec.ofNat_toNat, BitVec.setWidth_eq], ?_⟩
  show fits [kf 0 2 2, kf 2 6 3, pf 8 6, pf 14 6, zf 20 12, pf 32 64] [d, a, lit.toNat] = true
  have t_lit := lit.isLt
  simp only [fits_par, fits_key, fits_rf, fits_cf, fits_zf, fits_nil, Bool.and_eq_true, decide_eq_true_eq, Bool.and_true]
  omega

theorem Shape.ori (imm : BitVec 12) (a : Nat) (d : Nat) : Shape.Statement (.ori imm a d) := by
  intro h hf _
  have hf : ckSs h a 14 ++ ckSd h d 8 = [] := hf
  simp only [List.append_eq_nil_iff] at hf
  have e0 := (ckSs_nil ..).1 hf.1
  have e1 := (ckSd_nil ..).1 hf.2
  have l1648 := lim_le h 16 48 (by decide)
  refine ⟨_, rfl, by
    show Instr.ori (BitVec.ofNat 12 (imm.toNat)) (a) (d) = _
    simp only [bit_bitN, BitVec.ofNat_toNat, BitVec.setWidth_eq], ?_⟩
  show fits [kf 0 2 0, kf 2 6 4, pf 8 6, pf 14 6, pf 20 12] [d, a, imm.toNat] = true
  have t_imm := imm.isLt
  simp only [fits_par, fits_key, fits_rf, fits_cf, fits_zf, fits_nil, Bool.and_eq_true, decide_eq_true_eq, Bool.and_true]
  omega

theorem Shape.oriLit32 (lit : BitVec 32) (a : Nat) (d : Nat) : Shape.Statement (.oriLit32 lit a d) := by
  intro h hf _
  have hf : ckSs h a 14 ++ ckSd h d 8 = [] := hf
  simp only [List.append_eq_nil_iff] at hf
  have e0 := (ckSs_nil ..).1 hf.1
  have e1 := (ckSd_nil ..).1 hf.2
  have l1648 := lim_le h 16 48 (by decide)
  refine ⟨_, rfl, by
    show Instr.oriLit32 (BitVec.ofNat 32 (lit.toNat)) (a) (d) = _
    simp only [bit_bitN, BitVec.ofNat_toNat, BitVec.setWidth_eq], ?_⟩
  show fits [kf 0 2 1, kf 2 6 4, pf 8 6, pf 14 6, zf 20 12, pf 32 32] [d, a, lit.toNat] = true
  have t_lit := lit.isLt
  simp only [fits_par, fits_key, fits_rf, fits_cf, fits_zf, fits_nil, Bool.and_eq_true, decide_eq_true_eq, Bool.and_true]
  omega

theorem Shape.oriLit64 (lit : BitVec 64) (a : Nat) (d : Nat) : Shape.Statement (.oriLit64 lit a d) := by
  intro h hf _
  have hf : ckSs h a 14 ++ ckSd h d 8 = [] := hf
  simp only [List.append_eq_nil_iff] at hf
  have e0 := (ckSs_nil ..).1 hf.1
  have e1 := (ckSd_nil ..).1 hf.2
  have l1648 := lim_le h 16 48 (by decide)
  refine ⟨_, rfl, by
    show Instr.oriLit64 (BitVec.ofNat 64 (lit.toNat)) (a) (d) = _
    simp only [bit_bitN, BitVec.ofNat_toNat, BitVec.setWidth_eq], ?_⟩
  show fits [kf 0 2 2, kf 2 6 4, pf 8 6, pf 14 6, zf 20 12, pf 32 64] [d, a, lit.toNat] = true
  have t_lit := lit.isLt
  simp only [fits_par, fits_key, fits_rf, fits_cf, fits_zf, fits_nil, Bool.and_eq_true, decide_eq_true_eq, Bool.and_true]
  omega

theorem Shape.xori (imm : BitVec 12) (a : Nat) (d : Nat) : Shape.Statement (.xori imm a d) := by
  intro h hf _
  have hf : ckSs h a 14 ++ ckSd h d 8 = [] := hf
  simp only [List.append_eq_nil_iff] at hf
  have e0 := (ckSs_nil ..).1 hf.1
  have e1 := (ckSd_nil ..).1 hf.2
  have l1648 := lim_le h 16 48 (by decide)
  refine ⟨_, rfl, by
    show Instr.xori (BitVec.ofNat 12 (imm.toNat)) (a) (d) = _
    simp only [bit_bitN, BitVec.ofNat_toNat, BitVec.setWidth_eq], ?_⟩
  show fits [kf 0 2 0, kf 2 6 5, pf 8 6, pf 14 6, pf 20 12] [d, a, imm.toNat] = true
  have t_imm := imm.isLt
  simp only [fits_par, fits_key, fits_rf, fits_cf, fits_zf, fits_nil, Bool.and_eq_true, decide_eq_true_eq, Bool.and_true]
  omega

theorem Shape.xoriLit32 (lit : BitVec 32) (a : Nat) (d : Nat) : Shape.Statement (.xoriLit32 lit a d) := by
  intro h hf _
  have hf : ckSs h a 14 ++ ckSd h d 8 = [] := hf
  simp only [List.append_eq_nil_iff] at hf
  have e0 := (ckSs_nil ..).1 hf.1
  have e1 := (ckSd_nil ..).1 hf.2
  have l1648 := lim_le h 16 48 (by decide)
  refine ⟨_, rfl, by
    show Instr.xoriLit32 (BitVec.ofNat 32 (lit.toNat)) (a) (d) = _
    simp only [bit_bitN, BitVec.ofNat_toNat, BitVec.setWidth_eq], ?_⟩
  show fits [kf 0 2 1, kf 2 6 5, pf 8 6, pf 14 6, zf 20 12, pf 32 32] [d, a, lit.toNat] = true
  have t_lit := lit.isLt
  simp only [fits_par, fits_key, fits_rf, fits_cf, fits_zf, fits_nil, Bool.and_eq_true, decide_eq_true_eq, Bool.and_true]
  omega

theorem Shape.xoriLit64 (lit : BitVec 64) (a : Nat) (d : Nat) : Shape.Statement (.xoriLit64 lit a d) := by
  intro h hf _
  have hf : ckSs h a 14 ++ ckSd h d 8 = [] := hf
  simp only [List.append_eq_nil_iff] at hf
  have e0 := (ckSs_nil ..).1 hf.1
  have e1 := (ckSd_nil ..).1 hf.2
  have l1648 := lim_le h 16 48 (by decide)
  refine ⟨_, rfl, by
    show Instr.xoriLit64 (BitVec.ofNat 64 (lit.toNat)) (a) (d) = _
    simp only [bit_bitN, BitVec.ofNat_toNat, BitVec.setWidth_eq], ?_⟩
  show fits [kf 0 2 2, kf 2 6 5, pf 8 6, pf 14 6, zf 20 12, pf 32 64] [d, a, lit.toNat] = true
  have t_lit := lit.isLt
  simp only [fits_par, fits_key, fits_rf, fits_cf, fits_zf, fits_nil, Bool.and_eq_true, decide_eq_true_eq, Bool.and_true]
  omega

theorem Shape.slli (n : Nat) (a : Nat) (d : Nat) : Shape.Statement (.slli n a d) := by
  intro h hf _
  have hf : ckN 64 n 20 ++ ckSs h a 14 ++ ckSd h d 8 = [] := hf
  simp only [List.append_eq_nil_iff] at hf
  have e0 := (ckN_nil ..).1 hf.1.1
  have e1 := (ckSs_nil ..).1 hf.1.2
  have e2 := (ckSd_nil ..).1 hf.2
  have l1648 := lim_le h 16 48 (by decide)
  refine ⟨_, rfl, rfl, ?_⟩
  show fits [kf 0 2 0, kf 2 6 0x6, kf 26 6 0, pf 8 6, pf 14 6, pf 20 6] [d, a, n] = true
  simp only [fits_par, fits_key, fits_rf, fits_cf, fits_zf, fits_nil, Bool.and_eq_true, decide_eq_true_eq, Bool.and_true]
  omega

theorem Shape.srli (n : Nat) (a : Nat) (d : Nat) : Shape.Statement (.srli n a d) := by
  intro h hf _
  have hf : ckN 64 n 20 ++ ckSs h a 14 ++ ckSd h d 8 = [] := hf
  simp only [List.append_eq_nil_iff] at hf
  have e0 := (ckN_nil ..).1 hf.1.1
  have e1 := (ckSs_nil ..).1 hf.1.2
  have e2 := (ckSd_nil ..).1 hf.2
  have l1648 := lim_le h 16 48 (by decide)
  refine ⟨_, rfl, rfl, ?_⟩
  show fits [kf 0 2 0, kf 2 6 0x6, kf 26 6 1, pf 8 6, pf 14 6, pf 20 6] [d, a, n] = true
  simp only [fits_par, fits_key, fits_rf, fits_cf, fits_zf, fits_nil, Bool.and_eq_true, decide_eq_true_eq, Bool.and_true]
  omega

theorem Shape.srai (n : Nat) (a : Nat) (d : Nat) : Shape.Statement (.srai n a d) := by
  intro h hf _
  have hf : ckN 64 n 20 ++ ckSs h a 14 ++ ckSd h d 8 = [] := hf
  simp only [List.append_eq_nil_iff] at hf
  have e0 := (ckN_nil ..).1 hf.1.1
  have e1 := (ckSs_nil ..).1 hf.1.2
  have e2 := (ckSd_nil ..).1 hf.2
  have l1648 := lim_le h 16 48 (by decide)
  refine ⟨_, rfl, rfl, ?_⟩
  show fits [kf 0 2 0, kf 2 6 0x6, kf 26 6 2, pf 8 6, pf 14 6, pf 20 6] [d, a, n] = true
  simp only [fits_par, fits_key, fits_rf, fits_cf, fits_zf, fits_nil, Bool.and_eq_true, decide_eq_true_eq, Bool.and_true]
  omega

theorem Shape.rori (n : Nat) (a : Nat) (d : Nat) : Shape.Statement (.rori n a d) := by
  intro h hf _
  have hf : ckN 64 n 20 ++ ckSs h a 14 ++ ckSd h d 8 = [] := hf
  simp only [List.append_eq_nil_iff] at hf
  have e0 := (ckN_nil ..).1 hf.1.1
  have e1 := (ckSs_nil ..).1 hf.1.2
  have e2 := (ckSd_nil ..).1 hf.2
  have l1648 := lim_le h 16 48 (by decide)
  refine ⟨_, rfl, rfl, ?_⟩
  show fits [kf 0 2 0, kf 2 6 0x6, kf 26 6 3, pf 8 6, pf 14 6, pf 20 6] [d, a, n] = true
  simp only [fits_par, fits_key, fits_rf, fits_cf, fits_zf, fits_nil, Bool.and_eq_true, decide_eq_true_eq, Bool.and_true]
  omega

theorem Shape.lui (imm : BitVec 20) (d : Nat) : Shape.Statement (.lui imm d) := by
  intro h hf _
  have hf : ckN 16 d 8 = [] := hf
  have e0 := (ckN_nil ..).1 hf
  refine ⟨_, rfl, by
    show Instr.lui (BitVec.ofNat 20 (imm.toNat)) (d) = _
    simp only [bit_bitN, BitVec.ofNat_toNat, BitVec.setWidth_eq], ?_⟩
  show fits [kf 0 2 0, kf 2 6 7, pf 8 4, pf 12 20] [d, imm.toNat] = true
  have t_imm := imm.isLt
  simp only [fits_par, fits_key, fits_rf, fits_cf, fits_zf, fits_nil, Bool.and_eq_true, decide_eq_true_eq, Bool.and_true]
  omega

theorem Shape.auipc (imm : BitVec 20) (d : Nat) : Shape.Statement (.auipc imm d) := by
  intro h hf _
  have hf : ckN 16 d 8 = [] := hf
  have e0 := (ckN_nil ..).1 hf
  refine ⟨_, rfl, by
    show Instr.auipc (BitVec.ofNat 20 (imm.toNat)) (d) = _
    simp only [bit_bitN, BitVec.ofNat_toNat, BitVec.setWidth_eq], ?_⟩
  show fits [kf 0 2 0, kf 2 6 8, pf 8 4, pf 12 20] [d, imm.toNat] = true
  have t_imm := imm.isLt
  simp only [fits_par, fits_key, fits_rf, fits_cf, fits_zf, fits_nil, Bool.and_eq_true, decide_eq_true_eq, Bool.and_true]
  omega

theorem Shape.divI64 (ahead : Nat) (d : Nat) (a : Nat) (b : Nat) : Shape.Statement (.divI64 ahead d a b) := by
  intro h hf _
  have hf : ckN 16 ahead 28 ++ ckSd h d 20 ++ ckSs h a 14 ++ ckSs h b 8 = [] := hf
  simp only [List.append_eq_nil_iff] at hf
  have e0 := (ckN_nil ..).1 hf.1.1.1
  have e1 := (ckSd_nil ..).1 hf.1.1.2
  have e2 := (ckSs_nil ..).1 hf.1.2
  have e3 := (ckSs_nil ..).1 hf.2
  have l1648 := lim_le h 16 48 (by decide)
  refine ⟨_, rfl, rfl, ?_⟩
  show fits [kf 0 2 0, kf 2 6 10, pf 8 6, pf 14 6, pf 20 6, kf 26 2 0, pf 28 4] [b, a, d, ahead] = true
  simp only [fits_par, fits_key, fits_rf, fits_cf, fits_zf, fits_nil, Bool.and_eq_true, decide_eq_true_eq, Bool.and_true]
  omega

theorem Shape.divN64 (ahead : Nat) (d : Nat) (a : Nat) (b : Nat) : Shape.Statement (.divN64 ahead d a b) := by
  intro h hf _
  have hf : ckN 16 ahead 28 ++ ckSd h d 20 ++ ckSs h a 14 ++ ckSs h b 8 = [] := hf
  simp only [List.append_eq_nil_iff] at hf
  have e0 := (ckN_nil ..).1 hf.1.1.1
  have e1 := (ckSd_nil ..).1 hf.1.1.2
  have e2 := (ckSs_nil ..).1 hf.1.2
  have e3 := (ckSs_nil ..).1 hf.2
  have l1648 := lim_le h 16 48 (by decide)
  refine ⟨_, rfl, rfl, ?_⟩
  show fits [kf 0 2 0, kf 2 6 10, pf 8 6, pf 14 6, pf 20 6, kf 26 2 1, pf 28 4] [b, a, d, ahead] = true
  simp only [fits_par, fits_key, fits_rf, fits_cf, fits_zf, fits_nil, Bool.and_eq_true, decide_eq_true_eq, Bool.and_true]
  omega

theorem Shape.remI64 (ahead : Nat) (d : Nat) (a : Nat) (b : Nat) : Shape.Statement (.remI64 ahead d a b) := by
  intro h hf _
  have hf : ckN 16 ahead 28 ++ ckSd h d 20 ++ ckSs h a 14 ++ ckSs h b 8 = [] := hf
  simp only [List.append_eq_nil_iff] at hf
  have e0 := (ckN_nil ..).1 hf.1.1.1
  have e1 := (ckSd_nil ..).1 hf.1.1.2
  have e2 := (ckSs_nil ..).1 hf.1.2
  have e3 := (ckSs_nil ..).1 hf.2
  have l1648 := lim_le h 16 48 (by decide)
  refine ⟨_, rfl, rfl, ?_⟩
  show fits [kf 0 2 0, kf 2 6 10, pf 8 6, pf 14 6, pf 20 6, kf 26 2 2, pf 28 4] [b, a, d, ahead] = true
  simp only [fits_par, fits_key, fits_rf, fits_cf, fits_zf, fits_nil, Bool.and_eq_true, decide_eq_true_eq, Bool.and_true]
  omega

theorem Shape.remN64 (ahead : Nat) (d : Nat) (a : Nat) (b : Nat) : Shape.Statement (.remN64 ahead d a b) := by
  intro h hf _
  have hf : ckN 16 ahead 28 ++ ckSd h d 20 ++ ckSs h a 14 ++ ckSs h b 8 = [] := hf
  simp only [List.append_eq_nil_iff] at hf
  have e0 := (ckN_nil ..).1 hf.1.1.1
  have e1 := (ckSd_nil ..).1 hf.1.1.2
  have e2 := (ckSs_nil ..).1 hf.1.2
  have e3 := (ckSs_nil ..).1 hf.2
  have l1648 := lim_le h 16 48 (by decide)
  refine ⟨_, rfl, rfl, ?_⟩
  show fits [kf 0 2 0, kf 2 6 10, pf 8 6, pf 14 6, pf 20 6, kf 26 2 3, pf 28 4] [b, a, d, ahead] = true
  simp only [fits_par, fits_key, fits_rf, fits_cf, fits_zf, fits_nil, Bool.and_eq_true, decide_eq_true_eq, Bool.and_true]
  omega

theorem Shape.faddF32 (d : Nat) (a : Nat) (b : Nat) : Shape.Statement (.faddF32 d a b) := by
  intro h hf _
  have hf : ckSd h d 20 ++ ckSs h a 14 ++ ckSs h b 8 = [] := hf
  simp only [List.append_eq_nil_iff] at hf
  have e0 := (ckSd_nil ..).1 hf.1.1
  have e1 := (ckSs_nil ..).1 hf.1.2
  have e2 := (ckSs_nil ..).1 hf.2
  have l1648 := lim_le h 16 48 (by decide)
  refine ⟨_, rfl, rfl, ?_⟩
  show fits [kf 0 2 0, kf 2 6 0x9, kf 26 6 0, pf 20 6, pf 14 6, pf 8 6] [d, a, b] = true
  simp only [fits_par, fits_key, fits_rf, fits_cf, fits_zf, fits_nil, Bool.and_eq_true, decide_eq_true_eq, Bool.and_true]
  omega

theorem Shape.fsubF32 (d : Nat) (a : Nat) (b : Nat) : Shape.Statement (.fsubF32 d a b) := by
  intro h hf _
  have hf : ckSd h d 20 ++ ckSs h a 14 ++ ckSs h b 8 = [] := hf
  simp only [List.append_eq_nil_iff] at hf
  have e0 := (ckSd_nil ..).1 hf.1.1
  have e1 := (ckSs_nil ..).1 hf.1.2
  have e2 := (ckSs_nil ..).1 hf.2
  have l1648 := lim_le h 16 48 (by decide)
  refine ⟨_, rfl, rfl, ?_⟩
  show fits [kf 0 2 0, kf 2 6 0x9, kf 26 6 1, pf 20 6, pf 14 6, pf 8 6] [d, a, b] = true
  simp only [fits_par, fits_key, fits_rf, fits_cf, fits_zf, fits_nil, Bool.and_eq_true, decide_eq_true_eq, Bool.and_true]
  omega

theorem Shape.fmulF32 (d : Nat) (a : Nat) (b : Nat) : Shape.Statement (.fmulF32 d a b) := by
  intro h hf _
  have hf : ckSd h d 20 ++ ckSs h a 14 ++ ckSs h b 8 = [] := hf
  simp only [List.append_eq_nil_iff] at hf
  have e0 := (ckSd_nil ..).1 hf.1.1
  have e1 := (ckSs_nil ..).1 hf.1.2
  have e2 := (ckSs_nil ..).1 hf.2
  have l1648 := lim_le h 16 48 (by decide)
  refine ⟨_, rfl, rfl, ?_⟩
  show fits [kf 0 2 0, kf 2 6 0x9, kf 26 6 2, pf 20 6, pf 14 6, pf 8 6] [d, a, b] = true
  simp only [fits_par, fits_key, fits_rf, fits_cf, fits_zf, fits_nil, Bool.and_eq_true, decide_eq_true_eq, Bool.and_true]
  omega

theorem Shape.fmaF32 (d : Nat) (a : Nat) (b : Nat) : Shape.Statement (.fmaF32 d a b) := by
  intro h hf _
  have hf : ckSd h d 20 ++ ckSs h a 14 ++ ckSs h b 8 = [] := hf
  simp only [List.append_eq_nil_iff] at hf
  have e0 := (ckSd_nil ..).1 hf.1.1
  have e1 := (ckSs_nil ..).1 hf.1.2
  have e2 := (ckSs_nil ..).1 hf.2
  have l1648 := lim_le h 16 48 (by decide)
  refine ⟨_, rfl, rfl, ?_⟩
  show fits [kf 0 2 0, kf 2 6 0x9, kf 26 6 3, pf 20 6, pf 14 6, pf 8 6] [d, a, b] = true
  simp only [fits_par, fits_key, fits_rf, fits_cf, fits_zf, fits_nil, Bool.and_eq_true, decide_eq_true_eq, Bool.and_true]
  omega

theorem Shape.fminF32 (d : Nat) (a : Nat) (b : Nat) : Shape.Statement (.fminF32 d a b) := by
  intro h hf _
  have hf : ckSd h d 20 ++ ckSs h a 14 ++ ckSs h b 8 = [] := hf
  simp only [List.append_eq_nil_iff] at hf
  have e0 := (ckSd_nil ..).1 hf.1.1
  have e1 := (ckSs_nil ..).1 hf.1.2
  have e2 := (ckSs_nil ..).1 hf.2
  have l1648 := lim_le h 16 48 (by decide)
  refine ⟨_, rfl, rfl, ?_⟩
  show fits [kf 0 2 0, kf 2 6 0x9, kf 26 6 4, pf 20 6, pf 14 6, pf 8 6] [d, a, b] = true
  simp only [fits_par, fits_key, fits_rf, fits_cf, fits_zf, fits_nil, Bool.and_eq_true, decide_eq_true_eq, Bool.and_true]
  omega

theorem Shape.fmaxF32 (d : Nat) (a : Nat) (b : Nat) : Shape.Statement (.fmaxF32 d a b) := by
  intro h hf _
  have hf : ckSd h d 20 ++ ckSs h a 14 ++ ckSs h b 8 = [] := hf
  simp only [List.append_eq_nil_iff] at hf
  have e0 := (ckSd_nil ..).1 hf.1.1
  have e1 := (ckSs_nil ..).1 hf.1.2
  have e2 := (ckSs_nil ..).1 hf.2
  have l1648 := lim_le h 16 48 (by decide)
  refine ⟨_, rfl, rfl, ?_⟩
  show fits [kf 0 2 0, kf 2 6 0x9, kf 26 6 5, pf 20 6, pf 14 6, pf 8 6] [d, a, b] = true
  simp only [fits_par, fits_key, fits_rf, fits_cf, fits_zf, fits_nil, Bool.and_eq_true, decide_eq_true_eq, Bool.and_true]
  omega

theorem Shape.fabsF32 (d : Nat) (a : Nat) : Shape.Statement (.fabsF32 d a) := by
  intro h hf _
  have hf : ckSd h d 20 ++ ckSs h a 14 = [] := hf
  simp only [List.append_eq_nil_iff] at hf
  have e0 := (ckSd_nil ..).1 hf.1
  have e1 := (ckSs_nil ..).1 hf.2
  have l1648 := lim_le h 16 48 (by decide)
  refine ⟨_, rfl, rfl, ?_⟩
  show fits [kf 0 2 0, kf 2 6 0x9, kf 26 6 6, pf 20 6, pf 14 6, rf 8 6] [d, a] = true
  simp only [fits_par, fits_key, fits_rf, fits_cf, fits_zf, fits_nil, Bool.and_eq_true, decide_eq_true_eq, Bool.and_true]
  omega

theorem Shape.fnegF32 (d : Nat) (a : Nat) : Shape.Statement (.fnegF32 d a) := by
  intro h hf _
  have hf : ckSd h d 20 ++ ckSs h a 14 = [] := hf
  simp only [List.append_eq_nil_iff] at hf
  have e0 := (ckSd_nil ..).1 hf.1
  have e1 := (ckSs_nil ..).1 hf.2
  have l1648 := lim_le h 16 48 (by decide)
  refine ⟨_, rfl, rfl, ?_⟩
  show fits [kf 0 2 0, kf 2 6 0x9, kf 26 6 7, pf 20 6, pf 14 6, rf 8 6] [d, a] = true
  simp only [fits_par, fits_key, fits_rf, fits_cf, fits_zf, fits_nil, Bool.and_eq_true, decide_eq_true_eq, Bool.and_true]
  omega

theorem Shape.fcvtF32I64 (d : Nat) (a : Nat) : Shape.Statement (.fcvtF32I64 d a) := by
  intro h hf _
  have hf : ckSd h d 20 ++ ckSs h a 14 = [] := hf
  simp only [List.append_eq_nil_iff] at hf
  have e0 := (ckSd_nil ..).1 hf.1
  have e1 := (ckSs_nil ..).1 hf.2
  have l1648 := lim_le h 16 48 (by decide)
  refine ⟨_, rfl, rfl, ?_⟩
  show fits [kf 0 2 0, kf 2 6 0x9, kf 26 6 8, pf 20 6, pf 14 6, rf 8 6] [d, a] = true
  simp only [fits_par, fits_key, fits_rf, fits_cf, fits_zf, fits_nil, Bool.and_eq_true, decide_eq_true_eq, Bool.and_true]
  omega

theorem Shape.fcvtF32N64 (d : Nat) (a : Nat) : Shape.Statement (.fcvtF32N64 d a) := by
  intro h hf _
  have hf : ckSd h d 20 ++ ckSs h a 14 = [] := hf
  simp only [List.append_eq_nil_iff] at hf
  have e0 := (ckSd_nil ..).1 hf.1
  have e1 := (ckSs_nil ..).1 hf.2
  have l1648 := lim_le h 16 48 (by decide)
  refine ⟨_, rfl, rfl, ?_⟩
  show fits [kf 0 2 0, kf 2 6 0x9, kf 26 6 9, pf 20 6, pf 14 6, rf 8 6] [d, a] = true
  simp only [fits_par, fits_key, fits_rf, fits_cf, fits_zf, fits_nil, Bool.and_eq_true, decide_eq_true_eq, Bool.and_true]
  omega

theorem Shape.fcvtI64F32 (d : Nat) (a : Nat) : Shape.Statement (.fcvtI64F32 d a) := by
  intro h hf _
  have hf : ckSd h d 20 ++ ckSs h a 14 = [] := hf
  simp only [List.append_eq_nil_iff] at hf
  have e0 := (ckSd_nil ..).1 hf.1
  have e1 := (ckSs_nil ..).1 hf.2
  have l1648 := lim_le h 16 48 (by decide)
  refine ⟨_, rfl, rfl, ?_⟩
  show fits [kf 0 2 0, kf 2 6 0x9, kf 26 6 10, pf 20 6, pf 14 6, rf 8 6] [d, a] = true
  simp only [fits_par, fits_key, fits_rf, fits_cf, fits_zf, fits_nil, Bool.and_eq_true, decide_eq_true_eq, Bool.and_true]
  omega

theorem Shape.fcvtN64F32 (d : Nat) (a : Nat) : Shape.Statement (.fcvtN64F32 d a) := by
  intro h hf _
  have hf : ckSd h d 20 ++ ckSs h a 14 = [] := hf
  simp only [List.append_eq_nil_iff] at hf
  have e0 := (ckSd_nil ..).1 hf.1
  have e1 := (ckSs_nil ..).1 hf.2
  have l1648 := lim_le h 16 48 (by decide)
  refine ⟨_, rfl, rfl, ?_⟩
  show fits [kf 0 2 0, kf 2 6 0x9, kf 26 6 11, pf 20 6, pf 14 6, rf 8 6] [d, a] = true
  simp only [fits_par, fits_key, fits_rf, fits_cf, fits_zf, fits_nil, Bool.and_eq_true, decide_eq_true_eq, Bool.and_true]
  omega

theorem Shape.fcvtzI64F32 (d : Nat) (a : Nat) : Shape.Statement (.fcvtzI64F32 d a) := by
  intro h hf _
  have hf : ckSd h d 20 ++ ckSs h a 14 = [] := hf
  simp only [List.append_eq_nil_iff] at hf
  have e0 := (ckSd_nil ..).1 hf.1
  have e1 := (ckSs_nil ..).1 hf.2
  have l1648 := lim_le h 16 48 (by decide)
  refine ⟨_, rfl, rfl, ?_⟩
  show fits [kf 0 2 0, kf 2 6 0x9, kf 26 6 12, pf 20 6, pf 14 6, rf 8 6] [d, a] = true
  simp only [fits_par, fits_key, fits_rf, fits_cf, fits_zf, fits_nil, Bool.and_eq_true, decide_eq_true_eq, Bool.and_true]
  omega

theorem Shape.fcvtzN64F32 (d : Nat) (a : Nat) : Shape.Statement (.fcvtzN64F32 d a) := by
  intro h hf _
  have hf : ckSd h d 20 ++ ckSs h a 14 = [] := hf
  simp only [List.append_eq_nil_iff] at hf
  have e0 := (ckSd_nil ..).1 hf.1
  have e1 := (ckSs_nil ..).1 hf.2
  have l1648 := lim_le h 16 48 (by decide)
  refine ⟨_, rfl, rfl, ?_⟩
  show fits [kf 0 2 0, kf 2 6 0x9, kf 26 6 13, pf 20 6, pf 14 6, rf 8 6] [d, a] = true
  simp only [fits_par, fits_key, fits_rf, fits_cf, fits_zf, fits_nil, Bool.and_eq_true, decide_eq_true_eq, Bool.and_true]
  omega

theorem Shape.fcvtB16F32 (d : Nat) (a : Nat) : Shape.Statement (.fcvtB16F32 d a) := by
  intro h hf _
  have hf : ckSd h d 20 ++ ckSs h a 14 = [] := hf
  simp only [List.append_eq_nil_iff] at hf
  have e0 := (ckSd_nil ..).1 hf.1
  have e1 := (ckSs_nil ..).1 hf.2
  have l1648 := lim_le h 16 48 (by decide)
  refine ⟨_, rfl, rfl, ?_⟩
  show fits [kf 0 2 0, kf 2 6 0x9, kf 26 6 14, pf 20 6, pf 14 6, rf 8 6] [d, a] = true
  simp only [fits_par, fits_key, fits_rf, fits_cf, fits_zf, fits_nil, Bool.and_eq_true, decide_eq_true_eq, Bool.and_true]
  omega

theorem Shape.fcvtF32B16 (d : Nat) (a : Nat) : Shape.Statement (.fcvtF32B16 d a) := by
  intro h hf _
  have hf : ckSd h d 20 ++ ckSs h a 14 = [] := hf
  simp only [List.append_eq_nil_iff] at hf
  have e0 := (ckSd_nil ..).1 hf.1
  have e1 := (ckSs_nil ..).1 hf.2
  have l1648 := lim_le h 16 48 (by decide)
  refine ⟨_, rfl, rfl, ?_⟩
  show fits [kf 0 2 0, kf 2 6 0x9, kf 26 6 15, pf 20 6, pf 14 6, rf 8 6] [d, a] = true
  simp only [fits_par, fits_key, fits_rf, fits_cf, fits_zf, fits_nil, Bool.and_eq_true, decide_eq_true_eq, Bool.and_true]
  omega

theorem Shape.fcvtH16F32 (d : Nat) (a : Nat) : Shape.Statement (.fcvtH16F32 d a) := by
  intro h hf _
  have hf : ckSd h d 20 ++ ckSs h a 14 = [] := hf
  simp only [List.append_eq_nil_iff] at hf
  have e0 := (ckSd_nil ..).1 hf.1
  have e1 := (ckSs_nil ..).1 hf.2
  have l1648 := lim_le h 16 48 (by decide)
  refine ⟨_, rfl, rfl, ?_⟩
  show fits [kf 0 2 0, kf 2 6 0x9, kf 26 6 16, pf 20 6, pf 14 6, rf 8 6] [d, a] = true
  simp only [fits_par, fits_key, fits_rf, fits_cf, fits_zf, fits_nil, Bool.and_eq_true, decide_eq_true_eq, Bool.and_true]
  omega

theorem Shape.fcvtF32H16 (d : Nat) (a : Nat) : Shape.Statement (.fcvtF32H16 d a) := by
  intro h hf _
  have hf : ckSd h d 20 ++ ckSs h a 14 = [] := hf
  simp only [List.append_eq_nil_iff] at hf
  have e0 := (ckSd_nil ..).1 hf.1
  have e1 := (ckSs_nil ..).1 hf.2
  have l1648 := lim_le h 16 48 (by decide)
  refine ⟨_, rfl, rfl, ?_⟩
  show fits [kf 0 2 0, kf 2 6 0x9, kf 26 6 17, pf 20 6, pf 14 6, rf 8 6] [d, a] = true
  simp only [fits_par, fits_key, fits_rf, fits_cf, fits_zf, fits_nil, Bool.and_eq_true, decide_eq_true_eq, Bool.and_true]
  omega

theorem Shape.fdivF32 (ahead : Nat) (d : Nat) (a : Nat) (b : Nat) : Shape.Statement (.fdivF32 ahead d a b) := by
  intro h hf _
  have hf : ckN 16 ahead 28 ++ ckSd h d 20 ++ ckSs h a 14 ++ ckSs h b 8 = [] := hf
  simp only [List.append_eq_nil_iff] at hf
  have e0 := (ckN_nil ..).1 hf.1.1.1
  have e1 := (ckSd_nil ..).1 hf.1.1.2
  have e2 := (ckSs_nil ..).1 hf.1.2
  have e3 := (ckSs_nil ..).1 hf.2
  have l1648 := lim_le h 16 48 (by decide)
  refine ⟨_, rfl, rfl, ?_⟩
  show fits [kf 0 2 0, kf 2 6 11, pf 8 6, pf 14 6, pf 20 6, kf 26 2 0, pf 28 4] [b, a, d, ahead] = true
  simp only [fits_par, fits_key, fits_rf, fits_cf, fits_zf, fits_nil, Bool.and_eq_true, decide_eq_true_eq, Bool.and_true]
  omega

theorem Shape.fsqrtF32 (ahead : Nat) (d : Nat) (a : Nat) : Shape.Statement (.fsqrtF32 ahead d a) := by
  intro h hf _
  have hf : ckN 16 ahead 28 ++ ckSd h d 20 ++ ckSs h a 14 = [] := hf
  simp only [List.append_eq_nil_iff] at hf
  have e0 := (ckN_nil ..).1 hf.1.1
  have e1 := (ckSd_nil ..).1 hf.1.2
  have e2 := (ckSs_nil ..).1 hf.2
  have l1648 := lim_le h 16 48 (by decide)
  refine ⟨_, rfl, rfl, ?_⟩
  show fits [kf 0 2 0, kf 2 6 11, rf 8 6, pf 14 6, pf 20 6, kf 26 2 1, pf 28 4] [a, d, ahead] = true
  simp only [fits_par, fits_key, fits_rf, fits_cf, fits_zf, fits_nil, Bool.and_eq_true, decide_eq_true_eq, Bool.and_true]
  omega

theorem Shape.cmpEq (g : Nat) (a : Nat) (b : Nat) : Shape.Statement (.cmpEq g a b) := by
  intro h hf _
  have hf : ckG h g 20 ++ ckSs h a 14 ++ ckSs h b 8 = [] := hf
  simp only [List.append_eq_nil_iff] at hf
  have e0 := (ckG_nil ..).1 hf.1.1
  have e1 := (ckSs_nil ..).1 hf.1.2
  have e2 := (ckSs_nil ..).1 hf.2
  have l1648 := lim_le h 16 48 (by decide)
  have l816 := lim_le h 8 16 (by decide)
  refine ⟨_, rfl, rfl, ?_⟩
  show fits [kf 0 2 0, kf 2 6 0xc, kf 26 6 0, pf 20 6, pf 14 6, pf 8 6] [g, a, b] = true
  simp only [fits_par, fits_key, fits_rf, fits_cf, fits_zf, fits_nil, Bool.and_eq_true, decide_eq_true_eq, Bool.and_true]
  omega

theorem Shape.cmpNe (g : Nat) (a : Nat) (b : Nat) : Shape.Statement (.cmpNe g a b) := by
  intro h hf _
  have hf : ckG h g 20 ++ ckSs h a 14 ++ ckSs h b 8 = [] := hf
  simp only [List.append_eq_nil_iff] at hf
  have e0 := (ckG_nil ..).1 hf.1.1
  have e1 := (ckSs_nil ..).1 hf.1.2
  have e2 := (ckSs_nil ..).1 hf.2
  have l1648 := lim_le h 16 48 (by decide)
  have l816 := lim_le h 8 16 (by decide)
  refine ⟨_, rfl, rfl, ?_⟩
  show fits [kf 0 2 0, kf 2 6 0xc, kf 26 6 1, pf 20 6, pf 14 6, pf 8 6] [g, a, b] = true
  simp only [fits_par, fits_key, fits_rf, fits_cf, fits_zf, fits_nil, Bool.and_eq_true, decide_eq_true_eq, Bool.and_true]
  omega

theorem Shape.cmpLtI64 (g : Nat) (a : Nat) (b : Nat) : Shape.Statement (.cmpLtI64 g a b) := by
  intro h hf _
  have hf : ckG h g 20 ++ ckSs h a 14 ++ ckSs h b 8 = [] := hf
  simp only [List.append_eq_nil_iff] at hf
  have e0 := (ckG_nil ..).1 hf.1.1
  have e1 := (ckSs_nil ..).1 hf.1.2
  have e2 := (ckSs_nil ..).1 hf.2
  have l1648 := lim_le h 16 48 (by decide)
  have l816 := lim_le h 8 16 (by decide)
  refine ⟨_, rfl, rfl, ?_⟩
  show fits [kf 0 2 0, kf 2 6 0xc, kf 26 6 2, pf 20 6, pf 14 6, pf 8 6] [g, a, b] = true
  simp only [fits_par, fits_key, fits_rf, fits_cf, fits_zf, fits_nil, Bool.and_eq_true, decide_eq_true_eq, Bool.and_true]
  omega

theorem Shape.cmpLtN64 (g : Nat) (a : Nat) (b : Nat) : Shape.Statement (.cmpLtN64 g a b) := by
  intro h hf _
  have hf : ckG h g 20 ++ ckSs h a 14 ++ ckSs h b 8 = [] := hf
  simp only [List.append_eq_nil_iff] at hf
  have e0 := (ckG_nil ..).1 hf.1.1
  have e1 := (ckSs_nil ..).1 hf.1.2
  have e2 := (ckSs_nil ..).1 hf.2
  have l1648 := lim_le h 16 48 (by decide)
  have l816 := lim_le h 8 16 (by decide)
  refine ⟨_, rfl, rfl, ?_⟩
  show fits [kf 0 2 0, kf 2 6 0xc, kf 26 6 3, pf 20 6, pf 14 6, pf 8 6] [g, a, b] = true
  simp only [fits_par, fits_key, fits_rf, fits_cf, fits_zf, fits_nil, Bool.and_eq_true, decide_eq_true_eq, Bool.and_true]
  omega

theorem Shape.cmpGeI64 (g : Nat) (a : Nat) (b : Nat) : Shape.Statement (.cmpGeI64 g a b) := by
  intro h hf _
  have hf : ckG h g 20 ++ ckSs h a 14 ++ ckSs h b 8 = [] := hf
  simp only [List.append_eq_nil_iff] at hf
  have e0 := (ckG_nil ..).1 hf.1.1
  have e1 := (ckSs_nil ..).1 hf.1.2
  have e2 := (ckSs_nil ..).1 hf.2
  have l1648 := lim_le h 16 48 (by decide)
  have l816 := lim_le h 8 16 (by decide)
  refine ⟨_, rfl, rfl, ?_⟩
  show fits [kf 0 2 0, kf 2 6 0xc, kf 26 6 4, pf 20 6, pf 14 6, pf 8 6] [g, a, b] = true
  simp only [fits_par, fits_key, fits_rf, fits_cf, fits_zf, fits_nil, Bool.and_eq_true, decide_eq_true_eq, Bool.and_true]
  omega

theorem Shape.cmpGeN64 (g : Nat) (a : Nat) (b : Nat) : Shape.Statement (.cmpGeN64 g a b) := by
  intro h hf _
  have hf : ckG h g 20 ++ ckSs h a 14 ++ ckSs h b 8 = [] := hf
  simp only [List.append_eq_nil_iff] at hf
  have e0 := (ckG_nil ..).1 hf.1.1
  have e1 := (ckSs_nil ..).1 hf.1.2
  have e2 := (ckSs_nil ..).1 hf.2
  have l1648 := lim_le h 16 48 (by decide)
  have l816 := lim_le h 8 16 (by decide)
  refine ⟨_, rfl, rfl, ?_⟩
  show fits [kf 0 2 0, kf 2 6 0xc, kf 26 6 5, pf 20 6, pf 14 6, pf 8 6] [g, a, b] = true
  simp only [fits_par, fits_key, fits_rf, fits_cf, fits_zf, fits_nil, Bool.and_eq_true, decide_eq_true_eq, Bool.and_true]
  omega

theorem Shape.cmpTst (g : Nat) (a : Nat) (b : Nat) : Shape.Statement (.cmpTst g a b) := by
  intro h hf _
  have hf : ckG h g 20 ++ ckSs h a 14 ++ ckSs h b 8 = [] := hf
  simp only [List.append_eq_nil_iff] at hf
  have e0 := (ckG_nil ..).1 hf.1.1
  have e1 := (ckSs_nil ..).1 hf.1.2
  have e2 := (ckSs_nil ..).1 hf.2
  have l1648 := lim_le h 16 48 (by decide)
  have l816 := lim_le h 8 16 (by decide)
  refine ⟨_, rfl, rfl, ?_⟩
  show fits [kf 0 2 0, kf 2 6 0xc, kf 26 6 6, pf 20 6, pf 14 6, pf 8 6] [g, a, b] = true
  simp only [fits_par, fits_key, fits_rf, fits_cf, fits_zf, fits_nil, Bool.and_eq_true, decide_eq_true_eq, Bool.and_true]
  omega

theorem Shape.cmpNtst (g : Nat) (a : Nat) (b : Nat) : Shape.Statement (.cmpNtst g a b) := by
  intro h hf _
  have hf : ckG h g 20 ++ ckSs h a 14 ++ ckSs h b 8 = [] := hf
  simp only [List.append_eq_nil_iff] at hf
  have e0 := (ckG_nil ..).1 hf.1.1
  have e1 := (ckSs_nil ..).1 hf.1.2
  have e2 := (ckSs_nil ..).1 hf.2
  have l1648 := lim_le h 16 48 (by decide)
  have l816 := lim_le h 8 16 (by decide)
  refine ⟨_, rfl, rfl, ?_⟩
  show fits [kf 0 2 0, kf 2 6 0xc, kf 26 6 7, pf 20 6, pf 14 6, pf 8 6] [g, a, b] = true
  simp only [fits_par, fits_key, fits_rf, fits_cf, fits_zf, fits_nil, Bool.and_eq_true, decide_eq_true_eq, Bool.and_true]
  omega

theorem Shape.gand (d : Nat) (a : Nat) (b : Nat) : Shape.Statement (.gand d a b) := by
  intro h hf _
  have hf : ckG h d 20 ++ ckG h a 14 ++ ckG h b 8 = [] := hf
  simp only [List.append_eq_nil_iff] at hf
  have e0 := (ckG_nil ..).1 hf.1.1
  have e1 := (ckG_nil ..).1 hf.1.2
  have e2 := (ckG_nil ..).1 hf.2
  have l816 := lim_le h 8 16 (by decide)
  refine ⟨_, rfl, rfl, ?_⟩
  show fits [kf 0 2 0, kf 2 6 0xc, kf 26 6 16, pf 20 6, pf 14 6, pf 8 6] [d, a, b] = true
  simp only [fits_par, fits_key, fits_rf, fits_cf, fits_zf, fits_nil, Bool.and_eq_true, decide_eq_true_eq, Bool.and_true]
  omega

theorem Shape.gor (d : Nat) (a : Nat) (b : Nat) : Shape.Statement (.gor d a b) := by
  intro h hf _
  have hf : ckG h d 20 ++ ckG h a 14 ++ ckG h b 8 = [] := hf
  simp only [List.append_eq_nil_iff] at hf
  have e0 := (ckG_nil ..).1 hf.1.1
  have e1 := (ckG_nil ..).1 hf.1.2
  have e2 := (ckG_nil ..).1 hf.2
  have l816 := lim_le h 8 16 (by decide)
  refine ⟨_, rfl, rfl, ?_⟩
  show fits [kf 0 2 0, kf 2 6 0xc, kf 26 6 17, pf 20 6, pf 14 6, pf 8 6] [d, a, b] = true
  simp only [fits_par, fits_key, fits_rf, fits_cf, fits_zf, fits_nil, Bool.and_eq_true, decide_eq_true_eq, Bool.and_true]
  omega

theorem Shape.gxor (d : Nat) (a : Nat) (b : Nat) : Shape.Statement (.gxor d a b) := by
  intro h hf _
  have hf : ckG h d 20 ++ ckG h a 14 ++ ckG h b 8 = [] := hf
  simp only [List.append_eq_nil_iff] at hf
  have e0 := (ckG_nil ..).1 hf.1.1
  have e1 := (ckG_nil ..).1 hf.1.2
  have e2 := (ckG_nil ..).1 hf.2
  have l816 := lim_le h 8 16 (by decide)
  refine ⟨_, rfl, rfl, ?_⟩
  show fits [kf 0 2 0, kf 2 6 0xc, kf 26 6 18, pf 20 6, pf 14 6, pf 8 6] [d, a, b] = true
  simp only [fits_par, fits_key, fits_rf, fits_cf, fits_zf, fits_nil, Bool.and_eq_true, decide_eq_true_eq, Bool.and_true]
  omega

theorem Shape.gandn (d : Nat) (a : Nat) (b : Nat) : Shape.Statement (.gandn d a b) := by
  intro h hf _
  have hf : ckG h d 20 ++ ckG h a 14 ++ ckG h b 8 = [] := hf
  simp only [List.append_eq_nil_iff] at hf
  have e0 := (ckG_nil ..).1 hf.1.1
  have e1 := (ckG_nil ..).1 hf.1.2
  have e2 := (ckG_nil ..).1 hf.2
  have l816 := lim_le h 8 16 (by decide)
  refine ⟨_, rfl, rfl, ?_⟩
  show fits [kf 0 2 0, kf 2 6 0xc, kf 26 6 19, pf 20 6, pf 14 6, pf 8 6] [d, a, b] = true
  simp only [fits_par, fits_key, fits_rf, fits_cf, fits_zf, fits_nil, Bool.and_eq_true, decide_eq_true_eq, Bool.and_true]
  omega

theorem Shape.gnot (d : Nat) (a : Nat) : Shape.Statement (.gnot d a) := by
  intro h hf _
  have hf : ckG h d 20 ++ ckG h a 14 = [] := hf
  simp only [List.append_eq_nil_iff] at hf
  have e0 := (ckG_nil ..).1 hf.1
  have e1 := (ckG_nil ..).1 hf.2
  have l816 := lim_le h 8 16 (by decide)
  refine ⟨_, rfl, rfl, ?_⟩
  show fits [kf 0 2 0, kf 2 6 0xc, kf 26 6 20, pf 20 6, pf 14 6, rf 8 6] [d, a] = true
  simp only [fits_par, fits_key, fits_rf, fits_cf, fits_zf, fits_nil, Bool.and_eq_true, decide_eq_true_eq, Bool.and_true]
  omega

theorem Shape.gset (d : Nat) (v : Nat) : Shape.Statement (.gset d v) := by
  intro h hf _
  have hf : ckG h d 20 ++ ckN 2 v 8 = [] := hf
  simp only [List.append_eq_nil_iff] at hf
  have e0 := (ckG_nil ..).1 hf.1
  have e1 := (ckN_nil ..).1 hf.2
  have l816 := lim_le h 8 16 (by decide)
  refine ⟨_, rfl, rfl, ?_⟩
  show fits [kf 0 2 0, kf 2 6 0xc, kf 26 6 21, pf 20 6, rf 14 6, pf 8 6] [d, v] = true
  simp only [fits_par, fits_key, fits_rf, fits_cf, fits_zf, fits_nil, Bool.and_eq_true, decide_eq_true_eq, Bool.and_true]
  omega

theorem Shape.fcmpgEqF32 (g : Nat) (a : Nat) (b : Nat) : Shape.Statement (.fcmpgEqF32 g a b) := by
  intro h hf _
  have hf : ckG h g 20 ++ ckSs h a 14 ++ ckSs h b 8 = [] := hf
  simp only [List.append_eq_nil_iff] at hf
  have e0 := (ckG_nil ..).1 hf.1.1
  have e1 := (ckSs_nil ..).1 hf.1.2
  have e2 := (ckSs_nil ..).1 hf.2
  have l1648 := lim_le h 16 48 (by decide)
  have l816 := lim_le h 8 16 (by decide)
  refine ⟨_, rfl, rfl, ?_⟩
  show fits [kf 0 2 0, kf 2 6 0xd, kf 26 6 0, pf 20 6, pf 14 6, pf 8 6] [g, a, b] = true
  simp only [fits_par, fits_key, fits_rf, fits_cf, fits_zf, fits_nil, Bool.and_eq_true, decide_eq_true_eq, Bool.and_true]
  omega

theorem Shape.fcmpgNeF32 (g : Nat) (a : Nat) (b : Nat) : Shape.Statement (.fcmpgNeF32 g a b) := by
  intro h hf _
  have hf : ckG h g 20 ++ ckSs h a 14 ++ ckSs h b 8 = [] := hf
  simp only [List.append_eq_nil_iff] at hf
  have e0 := (ckG_nil ..).1 hf.1.1
  have e1 := (ckSs_nil ..).1 hf.1.2
  have e2 := (ckSs_nil ..).1 hf.2
  have l1648 := lim_le h 16 48 (by decide)
  have l816 := lim_le h 8 16 (by decide)
  refine ⟨_, rfl, rfl, ?_⟩
  show fits [kf 0 2 0, kf 2 6 0xd, kf 26 6 1, pf 20 6, pf 14 6, pf 8 6] [g, a, b] = true
  simp only [fits_par, fits_key, fits_rf, fits_cf, fits_zf, fits_nil, Bool.and_eq_true, decide_eq_true_eq, Bool.and_true]
  omega

theorem Shape.fcmpgLtF32 (g : Nat) (a : Nat) (b : Nat) : Shape.Statement (.fcmpgLtF32 g a b) := by
  intro h hf _
  have hf : ckG h g 20 ++ ckSs h a 14 ++ ckSs h b 8 = [] := hf
  simp only [List.append_eq_nil_iff] at hf
  have e0 := (ckG_nil ..).1 hf.1.1
  have e1 := (ckSs_nil ..).1 hf.1.2
  have e2 := (ckSs_nil ..).1 hf.2
  have l1648 := lim_le h 16 48 (by decide)
  have l816 := lim_le h 8 16 (by decide)
  refine ⟨_, rfl, rfl, ?_⟩
  show fits [kf 0 2 0, kf 2 6 0xd, kf 26 6 2, pf 20 6, pf 14 6, pf 8 6] [g, a, b] = true
  simp only [fits_par, fits_key, fits_rf, fits_cf, fits_zf, fits_nil, Bool.and_eq_true, decide_eq_true_eq, Bool.and_true]
  omega

theorem Shape.fcmpgLeF32 (g : Nat) (a : Nat) (b : Nat) : Shape.Statement (.fcmpgLeF32 g a b) := by
  intro h hf _
  have hf : ckG h g 20 ++ ckSs h a 14 ++ ckSs h b 8 = [] := hf
  simp only [List.append_eq_nil_iff] at hf
  have e0 := (ckG_nil ..).1 hf.1.1
  have e1 := (ckSs_nil ..).1 hf.1.2
  have e2 := (ckSs_nil ..).1 hf.2
  have l1648 := lim_le h 16 48 (by decide)
  have l816 := lim_le h 8 16 (by decide)
  refine ⟨_, rfl, rfl, ?_⟩
  show fits [kf 0 2 0, kf 2 6 0xd, kf 26 6 3, pf 20 6, pf 14 6, pf 8 6] [g, a, b] = true
  simp only [fits_par, fits_key, fits_rf, fits_cf, fits_zf, fits_nil, Bool.and_eq_true, decide_eq_true_eq, Bool.and_true]
  omega

theorem Shape.fcmpgUnF32 (g : Nat) (a : Nat) (b : Nat) : Shape.Statement (.fcmpgUnF32 g a b) := by
  intro h hf _
  have hf : ckG h g 20 ++ ckSs h a 14 ++ ckSs h b 8 = [] := hf
  simp only [List.append_eq_nil_iff] at hf
  have e0 := (ckG_nil ..).1 hf.1.1
  have e1 := (ckSs_nil ..).1 hf.1.2
  have e2 := (ckSs_nil ..).1 hf.2
  have l1648 := lim_le h 16 48 (by decide)
  have l816 := lim_le h 8 16 (by decide)
  refine ⟨_, rfl, rfl, ?_⟩
  show fits [kf 0 2 0, kf 2 6 0xd, kf 26 6 4, pf 20 6, pf 14 6, pf 8 6] [g, a, b] = true
  simp only [fits_par, fits_key, fits_rf, fits_cf, fits_zf, fits_nil, Bool.and_eq_true, decide_eq_true_eq, Bool.and_true]
  omega

theorem Shape.cmpi (imm : BitVec 8) (cond : Nat) (a : Nat) (g : Nat) : Shape.Statement (.cmpi imm cond a g) := by
  intro h hf _
  have hf : ckN 8 cond 20 ++ ckSs h a 14 ++ ckG h g 8 = [] := hf
  simp only [List.append_eq_nil_iff] at hf
  have e0 := (ckN_nil ..).1 hf.1.1
  have e1 := (ckSs_nil ..).1 hf.1.2
  have e2 := (ckG_nil ..).1 hf.2
  have l1648 := lim_le h 16 48 (by decide)
  have l816 := lim_le h 8 16 (by decide)
  refine ⟨_, rfl, by
    show Instr.cmpi (BitVec.ofNat 8 (imm.toNat)) (cond) (a) (g) = _
    simp only [bit_bitN, BitVec.ofNat_toNat, BitVec.setWidth_eq], ?_⟩
  show fits [kf 0 2 0, kf 2 6 14, pf 8 6, pf 14 6, pf 20 3, kf 23 1 0, pf 24 8] [g, a, cond, imm.toNat] = true
  have t_imm := imm.isLt
  simp only [fits_par, fits_key, fits_rf, fits_cf, fits_zf, fits_nil, Bool.and_eq_true, decide_eq_true_eq, Bool.and_true]
  omega

theorem Shape.prep (disp : BitVec 20) (t : Nat) : Shape.Statement (.prep disp t) := by
  intro h hf _
  have hf : ckN 8 t 9 = [] := hf
  have e0 := (ckN_nil ..).1 hf
  refine ⟨_, rfl, by
    show Instr.prep (BitVec.ofNat 20 (disp.toNat)) (t) = _
    simp only [bit_bitN, BitVec.ofNat_toNat, BitVec.setWidth_eq], ?_⟩
  show fits [kf 0 2 0, kf 2 6 15, rf 8 1, pf 9 3, pf 12 20] [t, disp.toNat] = true
  have t_disp := disp.isLt
  simp only [fits_par, fits_key, fits_rf, fits_cf, fits_zf, fits_nil, Bool.and_eq_true, decide_eq_true_eq, Bool.and_true]
  omega

theorem Shape.prepLit64 (lit : BitVec 64) (t : Nat) : Shape.Statement (.prepLit64 lit t) := by
  intro h hf _
  have hf : ckN 8 t 9 = [] := hf
  have e0 := (ckN_nil ..).1 hf
  refine ⟨_, rfl, by
    show Instr.prepLit64 (BitVec.ofNat 64 (lit.toNat)) (t) = _
    simp only [bit_bitN, BitVec.ofNat_toNat, BitVec.setWidth_eq], ?_⟩
  show fits [kf 0 2 2, kf 2 6 15, rf 8 1, pf 9 3, zf 12 20, pf 32 64] [t, lit.toNat] = true
  have t_lit := lit.isLt
  simp only [fits_par, fits_key, fits_rf, fits_cf, fits_zf, fits_nil, Bool.and_eq_true, decide_eq_true_eq, Bool.and_true]
  omega

theorem Shape.jmp (t : Nat) : Shape.Statement (.jmp t) := by
  intro h hf _
  have hf : ckN 8 t 11 = [] := hf
  have e0 := (ckN_nil ..).1 hf
  refine ⟨_, rfl, rfl, ?_⟩
  show fits [kf 0 2 0, kf 2 6 0x10, kf 26 6 0, rf 8 3, pf 11 3, rf 14 6, rf 20 2, rf 22 4] [t] = true
  simp only [fits_par, fits_key, fits_rf, fits_cf, fits_zf, fits_nil, Bool.and_eq_true, decide_eq_true_eq, Bool.and_true]
  omega

theorem Shape.jmpt (g : Nat) (t : Nat) : Shape.Statement (.jmpt g t) := by
  intro h hf _
  have hf : ckG h g 22 ++ ckN 8 t 11 = [] := hf
  simp only [List.append_eq_nil_iff] at hf
  have e0 := (ckG_nil ..).1 hf.1
  have e1 := (ckN_nil ..).1 hf.2
  have l816 := lim_le h 8 16 (by decide)
  refine ⟨_, rfl, rfl, ?_⟩
  show fits [kf 0 2 0, kf 2 6 0x10, kf 26 6 1, rf 8 3, pf 11 3, rf 14 6, rf 20 2, pf 22 4] [t, g] = true
  simp only [fits_par, fits_key, fits_rf, fits_cf, fits_zf, fits_nil, Bool.and_eq_true, decide_eq_true_eq, Bool.and_true]
  omega

theorem Shape.jmpf (g : Nat) (t : Nat) : Shape.Statement (.jmpf g t) := by
  intro h hf _
  have hf : ckG h g 22 ++ ckN 8 t 11 = [] := hf
  simp only [List.append_eq_nil_iff] at hf
  have e0 := (ckG_nil ..).1 hf.1
  have e1 := (ckN_nil ..).1 hf.2
  have l816 := lim_le h 8 16 (by decide)
  refine ⟨_, rfl, rfl, ?_⟩
  show fits [kf 0 2 0, kf 2 6 0x10, kf 26 6 2, rf 8 3, pf 11 3, rf 14 6, rf 20 2, pf 22 4] [t, g] = true
  simp only [fits_par, fits_key, fits_rf, fits_cf, fits_zf, fits_nil, Bool.and_eq_true, decide_eq_true_eq, Bool.and_true]
  omega

theorem Shape.call (t : Nat) : Shape.Statement (.call t) := by
  intro h hf _
  have hf : ckN 8 t 11 = [] := hf
  have e0 := (ckN_nil ..).1 hf
  refine ⟨_, rfl, rfl, ?_⟩
  show fits [kf 0 2 0, kf 2 6 0x10, kf 26 6 3, rf 8 3, pf 11 3, rf 14 6, rf 20 2, rf 22 4] [t] = true
  simp only [fits_par, fits_key, fits_rf, fits_cf, fits_zf, fits_nil, Bool.and_eq_true, decide_eq_true_eq, Bool.and_true]
  omega

theorem Shape.ret : Shape.Statement (.ret) := by
  intro h hf _
  refine ⟨_, rfl, rfl, ?_⟩
  show fits [kf 0 2 0, kf 2 6 0x10, kf 26 6 4, rf 8 3, cf 11 3 7, rf 14 6, rf 20 2, rf 22 4] [] = true
  rfl

theorem Shape.prepr (a : Nat) (t : Nat) : Shape.Statement (.prepr a t) := by
  intro h hf _
  have hf : ckSs h a 14 ++ ckN 8 t 11 = [] := hf
  simp only [List.append_eq_nil_iff] at hf
  have e0 := (ckSs_nil ..).1 hf.1
  have e1 := (ckN_nil ..).1 hf.2
  have l1648 := lim_le h 16 48 (by decide)
  refine ⟨_, rfl, rfl, ?_⟩
  show fits [kf 0 2 0, kf 2 6 0x10, kf 26 6 5, rf 8 3, pf 11 3, pf 14 6, rf 20 2, rf 22 4] [t, a] = true
  simp only [fits_par, fits_key, fits_rf, fits_cf, fits_zf, fits_nil, Bool.and_eq_true, decide_eq_true_eq, Bool.and_true]
  omega

theorem Shape.fence (scope : Nat) (kind : Nat) : Shape.Statement (.fence scope kind) := by
  intro h hf _
  have hf : ckN 5 scope 21 ++ chk (kind == 0 || decide (4 ≤ kind)) 5 24 = [] := hf
  simp only [List.append_eq_nil_iff] at hf
  have e0 := (ckN_nil ..).1 hf.1
  have e1 := (chk_nil ..).1 hf.2
  simp only [Bool.or_eq_false_iff, decide_eq_false_iff_not] at e1
  refine ⟨_, rfl, rfl, ?_⟩
  show fits [kf 0 2 0, kf 2 6 0x11, kf 26 6 0, rf 20 1, pf 21 3, pf 24 2, rf 14 6, rf 8 6] [scope, kind] = true
  simp only [fits_par, fits_key, fits_rf, fits_cf, fits_zf, fits_nil, Bool.and_eq_true, decide_eq_true_eq, Bool.and_true]
  omega

theorem Shape.isync : Shape.Statement (.isync) := by
  intro h hf _
  refine ⟨_, rfl, rfl, ?_⟩
  show fits [kf 0 2 0, kf 2 6 0x11, kf 26 6 1, rf 20 6, rf 14 6, rf 8 6] [] = true
  rfl

theorem Shape.wait (code : Nat) : Shape.Statement (.wait code) := by
  intro h hf _
  have hf : chk (code == 0 || decide (4 ≤ code)) 5 24 = [] := hf
  have e0 := (chk_nil ..).1 hf
  simp only [Bool.or_eq_false_iff, decide_eq_false_iff_not] at e0
  refine ⟨_, rfl, rfl, ?_⟩
  show fits [kf 0 2 0, kf 2 6 0x11, kf 26 6 2, rf 20 4, pf 24 2, rf 14 6, rf 8 6] [code] = true
  simp only [fits_par, fits_key, fits_rf, fits_cf, fits_zf, fits_nil, Bool.and_eq_true, decide_eq_true_eq, Bool.and_true]
  omega

theorem Shape.flush (keep : Bool) (a : Nat) (b : Nat) : Shape.Statement (.flush keep a b) := by
  intro h hf _
  have hf : ckSs h a 14 ++ ckSs h b 8 = [] := hf
  simp only [List.append_eq_nil_iff] at hf
  have e0 := (ckSs_nil ..).1 hf.1
  have e1 := (ckSs_nil ..).1 hf.2
  have l1648 := lim_le h 16 48 (by decide)
  refine ⟨_, rfl, by
    show Instr.flush (bit (bitN keep)) (a) (b) = _
    simp only [bit_bitN, BitVec.ofNat_toNat, BitVec.setWidth_eq], ?_⟩
  show fits [kf 0 2 0, kf 2 6 0x11, kf 26 6 3, pf 20 1, rf 21 5, pf 14 6, pf 8 6] [bitN keep, a, b] = true
  have b_keep := bitN_lt keep
  simp only [fits_par, fits_key, fits_rf, fits_cf, fits_zf, fits_nil, Bool.and_eq_true, decide_eq_true_eq, Bool.and_true]
  omega

theorem Shape.ldl64 (imm : BitVec 8) (ahead : Nat) (a : Nat) (d : Nat) : Shape.Statement (.ldl64 imm ahead a d) := by
  intro h hf _
  have hf : ckN 16 ahead 20 ++ ckSs h a 14 ++ ckSd h d 8 = [] := hf
  simp only [List.append_eq_nil_iff] at hf
  have e0 := (ckN_nil ..).1 hf.1.1
  have e1 := (ckSs_nil ..).1 hf.1.2
  have e2 := (ckSd_nil ..).1 hf.2
  have l1648 := lim_le h 16 48 (by decide)
  refine ⟨_, rfl, by
    show Instr.ldl64 (BitVec.ofNat 8 (imm.toNat)) (ahead) (a) (d) = _
    simp only [bit_bitN, BitVec.ofNat_toNat, BitVec.setWidth_eq], ?_⟩
  show fits [kf 0 2 0, kf 2 6 18, pf 8 6, pf 14 6, pf 20 4, pf 24 8] [d, a, ahead, imm.toNat] = true
  have t_imm := imm.isLt
  simp only [fits_par, fits_key, fits_rf, fits_cf, fits_zf, fits_nil, Bool.and_eq_true, decide_eq_true_eq, Bool.and_true]
  omega

theorem Shape.ldli32 (imm : BitVec 8) (ahead : Nat) (a : Nat) (d : Nat) : Shape.Statement (.ldli32 imm ahead a d) := by
  intro h hf _
  have hf : ckN 16 ahead 20 ++ ckSs h a 14 ++ ckSd h d 8 = [] := hf
  simp only [List.append_eq_nil_iff] at hf
  have e0 := (ckN_nil ..).1 hf.1.1
  have e1 := (ckSs_nil ..).1 hf.1.2
  have e2 := (ckSd_nil ..).1 hf.2
  have l1648 := lim_le h 16 48 (by decide)
  refine ⟨_, rfl, by
    show Instr.ldli32 (BitVec.ofNat 8 (imm.toNat)) (ahead) (a) (d) = _
    simp only [bit_bitN, BitVec.ofNat_toNat, BitVec.setWidth_eq], ?_⟩
  show fits [kf 0 2 0, kf 2 6 19, pf 8 6, pf 14 6, pf 20 4, pf 24 8] [d, a, ahead, imm.toNat] = true
  have t_imm := imm.isLt
  simp only [fits_par, fits_key, fits_rf, fits_cf, fits_zf, fits_nil, Bool.and_eq_true, decide_eq_true_eq, Bool.and_true]
  omega

theorem Shape.ldln32 (imm : BitVec 8) (ahead : Nat) (a : Nat) (d : Nat) : Shape.Statement (.ldln32 imm ahead a d) := by
  intro h hf _
  have hf : ckN 16 ahead 20 ++ ckSs h a 14 ++ ckSd h d 8 = [] := hf
  simp only [List.append_eq_nil_iff] at hf
  have e0 := (ckN_nil ..).1 hf.1.1
  have e1 := (ckSs_nil ..).1 hf.1.2
  have e2 := (ckSd_nil ..).1 hf.2
  have l1648 := lim_le h 16 48 (by decide)
  refine ⟨_, rfl, by
    show Instr.ldln32 (BitVec.ofNat 8 (imm.toNat)) (ahead) (a) (d) = _
    simp only [bit_bitN, BitVec.ofNat_toNat, BitVec.setWidth_eq], ?_⟩
  show fits [kf 0 2 0, kf 2 6 20, pf 8 6, pf 14 6, pf 20 4, pf 24 8] [d, a, ahead, imm.toNat] = true
  have t_imm := imm.isLt
  simp only [fits_par, fits_key, fits_rf, fits_cf, fits_zf, fits_nil, Bool.and_eq_true, decide_eq_true_eq, Bool.and_true]
  omega

theorem Shape.stl64 (imm : BitVec 8) (a : Nat) (d : Nat) : Shape.Statement (.stl64 imm a d) := by
  intro h hf _
  have hf : ckSs h a 14 ++ ckSs h d 8 = [] := hf
  simp only [List.append_eq_nil_iff] at hf
  have e0 := (ckSs_nil ..).1 hf.1
  have e1 := (ckSs_nil ..).1 hf.2
  have l1648 := lim_le h 16 48 (by decide)
  refine ⟨_, rfl, by
    show Instr.stl64 (BitVec.ofNat 8 (imm.toNat)) (a) (d) = _
    simp only [bit_bitN, BitVec.ofNat_toNat, BitVec.setWidth_eq], ?_⟩
  show fits [kf 0 2 0, kf 2 6 21, pf 8 6, pf 14 6, zf 20 4, pf 24 8] [d, a, imm.toNat] = true
  have t_imm := imm.isLt
  simp only [fits_par, fits_key, fits_rf, fits_cf, fits_zf, fits_nil, Bool.and_eq_true, decide_eq_true_eq, Bool.and_true]
  omega

theorem Shape.stl32 (imm : BitVec 8) (a : Nat) (d : Nat) : Shape.Statement (.stl32 imm a d) := by
  intro h hf _
  have hf : ckSs h a 14 ++ ckSs h d 8 = [] := hf
  simp only [List.append_eq_nil_iff] at hf
  have e0 := (ckSs_nil ..).1 hf.1
  have e1 := (ckSs_nil ..).1 hf.2
  have l1648 := lim_le h 16 48 (by decide)
  refine ⟨_, rfl, by
    show Instr.stl32 (BitVec.ofNat 8 (imm.toNat)) (a) (d) = _
    simp only [bit_bitN, BitVec.ofNat_toNat, BitVec.setWidth_eq], ?_⟩
  show fits [kf 0 2 0, kf 2 6 22, pf 8 6, pf 14 6, zf 20 4, pf 24 8] [d, a, imm.toNat] = true
  have t_imm := imm.isLt
  simp only [fits_par, fits_key, fits_rf, fits_cf, fits_zf, fits_nil, Bool.and_eq_true, decide_eq_true_eq, Bool.and_true]
  omega

theorem Shape.ldg64 (imm : BitVec 8) (ahead : Nat) (a : Nat) (d : Nat) : Shape.Statement (.ldg64 imm ahead a d) := by
  intro h hf _
  have hf : ckN 16 ahead 20 ++ ckSs h a 14 ++ ckSd h d 8 = [] := hf
  simp only [List.append_eq_nil_iff] at hf
  have e0 := (ckN_nil ..).1 hf.1.1
  have e1 := (ckSs_nil ..).1 hf.1.2
  have e2 := (ckSd_nil ..).1 hf.2
  have l1648 := lim_le h 16 48 (by decide)
  refine ⟨_, rfl, by
    show Instr.ldg64 (BitVec.ofNat 8 (imm.toNat)) (ahead) (a) (d) = _
    simp only [bit_bitN, BitVec.ofNat_toNat, BitVec.setWidth_eq], ?_⟩
  show fits [kf 0 2 0, kf 2 6 23, pf 8 6, pf 14 6, pf 20 4, pf 24 8] [d, a, ahead, imm.toNat] = true
  have t_imm := imm.isLt
  simp only [fits_par, fits_key, fits_rf, fits_cf, fits_zf, fits_nil, Bool.and_eq_true, decide_eq_true_eq, Bool.and_true]
  omega

theorem Shape.ldgi32 (imm : BitVec 8) (ahead : Nat) (a : Nat) (d : Nat) : Shape.Statement (.ldgi32 imm ahead a d) := by
  intro h hf _
  have hf : ckN 16 ahead 20 ++ ckSs h a 14 ++ ckSd h d 8 = [] := hf
  simp only [List.append_eq_nil_iff] at hf
  have e0 := (ckN_nil ..).1 hf.1.1
  have e1 := (ckSs_nil ..).1 hf.1.2
  have e2 := (ckSd_nil ..).1 hf.2
  have l1648 := lim_le h 16 48 (by decide)
  refine ⟨_, rfl, by
    show Instr.ldgi32 (BitVec.ofNat 8 (imm.toNat)) (ahead) (a) (d) = _
    simp only [bit_bitN, BitVec.ofNat_toNat, BitVec.setWidth_eq], ?_⟩
  show fits [kf 0 2 0, kf 2 6 24, pf 8 6, pf 14 6, pf 20 4, pf 24 8] [d, a, ahead, imm.toNat] = true
  have t_imm := imm.isLt
  simp only [fits_par, fits_key, fits_rf, fits_cf, fits_zf, fits_nil, Bool.and_eq_true, decide_eq_true_eq, Bool.and_true]
  omega

theorem Shape.ldgn32 (imm : BitVec 8) (ahead : Nat) (a : Nat) (d : Nat) : Shape.Statement (.ldgn32 imm ahead a d) := by
  intro h hf _
  have hf : ckN 16 ahead 20 ++ ckSs h a 14 ++ ckSd h d 8 = [] := hf
  simp only [List.append_eq_nil_iff] at hf
  have e0 := (ckN_nil ..).1 hf.1.1
  have e1 := (ckSs_nil ..).1 hf.1.2
  have e2 := (ckSd_nil ..).1 hf.2
  have l1648 := lim_le h 16 48 (by decide)
  refine ⟨_, rfl, by
    show Instr.ldgn32 (BitVec.ofNat 8 (imm.toNat)) (ahead) (a) (d) = _
    simp only [bit_bitN, BitVec.ofNat_toNat, BitVec.setWidth_eq], ?_⟩
  show fits [kf 0 2 0, kf 2 6 25, pf 8 6, pf 14 6, pf 20 4, pf 24 8] [d, a, ahead, imm.toNat] = true
  have t_imm := imm.isLt
  simp only [fits_par, fits_key, fits_rf, fits_cf, fits_zf, fits_nil, Bool.and_eq_true, decide_eq_true_eq, Bool.and_true]
  omega

theorem Shape.stg64 (imm : BitVec 8) (a : Nat) (d : Nat) : Shape.Statement (.stg64 imm a d) := by
  intro h hf _
  have hf : ckSs h a 14 ++ ckSs h d 8 = [] := hf
  simp only [List.append_eq_nil_iff] at hf
  have e0 := (ckSs_nil ..).1 hf.1
  have e1 := (ckSs_nil ..).1 hf.2
  have l1648 := lim_le h 16 48 (by decide)
  refine ⟨_, rfl, by
    show Instr.stg64 (BitVec.ofNat 8 (imm.toNat)) (a) (d) = _
    simp only [bit_bitN, BitVec.ofNat_toNat, BitVec.setWidth_eq], ?_⟩
  show fits [kf 0 2 0, kf 2 6 26, pf 8 6, pf 14 6, zf 20 4, pf 24 8] [d, a, imm.toNat] = true
  have t_imm := imm.isLt
  simp only [fits_par, fits_key, fits_rf, fits_cf, fits_zf, fits_nil, Bool.and_eq_true, decide_eq_true_eq, Bool.and_true]
  omega

theorem Shape.stg32 (imm : BitVec 8) (a : Nat) (d : Nat) : Shape.Statement (.stg32 imm a d) := by
  intro h hf _
  have hf : ckSs h a 14 ++ ckSs h d 8 = [] := hf
  simp only [List.append_eq_nil_iff] at hf
  have e0 := (ckSs_nil ..).1 hf.1
  have e1 := (ckSs_nil ..).1 hf.2
  have l1648 := lim_le h 16 48 (by decide)
  refine ⟨_, rfl, by
    show Instr.stg32 (BitVec.ofNat 8 (imm.toNat)) (a) (d) = _
    simp only [bit_bitN, BitVec.ofNat_toNat, BitVec.setWidth_eq], ?_⟩
  show fits [kf 0 2 0, kf 2 6 27, pf 8 6, pf 14 6, zf 20 4, pf 24 8] [d, a, imm.toNat] = true
  have t_imm := imm.isLt
  simp only [fits_par, fits_key, fits_rf, fits_cf, fits_zf, fits_nil, Bool.and_eq_true, decide_eq_true_eq, Bool.and_true]
  omega

theorem Shape.memxLdI8 (d : Nat) (a : Nat) (b : Nat) (iscale : Nat) (m : Addr) (x : Ext) : Shape.Statement (.memxLdI8 d a b iscale m x) := by
  intro h hf _
  have hf : ckSd h d 20 ++ ckSs h a 14 ++ ckSs h b 8 ++ ckN 4 iscale 41 ++ m.faults ++ x.load h = [] := hf
  simp only [List.append_eq_nil_iff] at hf
  have e0 := (ckSd_nil ..).1 hf.1.1.1.1.1
  have e1 := (ckSs_nil ..).1 hf.1.1.1.1.2
  have e2 := (ckSs_nil ..).1 hf.1.1.1.2
  have e3 := (ckN_nil ..).1 hf.1.1.2
  have hm := addr_fits hf.1.2
  have hx := load_fits hf.2
  have l1648 := lim_le h 16 48 (by decide)
  simp only [extFits] at hx
  obtain ⟨sp, cs, off⟩ := m
  dsimp only at hm
  cases off with
  | disp o =>
    refine ⟨_, rfl, by
      show Instr.memxLdI8 (d) (a) (b) (iscale) ⟨(sp), (cs), .disp (BitVec.ofNat 32 (o.toNat))⟩ ⟨(x.ahead), (x.scope), (x.ord), (x.wait), bit (bitN x.g), (x.gslot), bit (bitN x.ginv)⟩ = _
      simp only [bit_bitN, BitVec.ofNat_toNat, BitVec.setWidth_eq], ?_⟩
    show fits [kf 0 2 2, kf 2 6 28, kf 26 6 0, pf 20 6, pf 14 6, pf 8 6, pf 41 2, rf 40 1, rf 34 6, rf 32 2, pf 45 2, pf 43 2, pf 60 4, pf 57 3, pf 55 2, pf 53 2, pf 52 1, pf 48 4, pf 47 1, pf 64 32] [d, a, b, iscale, sp, cs, x.ahead, x.scope, x.ord, x.wait, bitN x.g, x.gslot, bitN x.ginv, o.toNat] = true
    have b_x_g := bitN_lt x.g
    have b_x_ginv := bitN_lt x.ginv
    have t_o := o.isLt
    simp only [fits_par, fits_key, fits_rf, fits_cf, fits_zf, fits_nil, Bool.and_eq_true, decide_eq_true_eq, Bool.and_true]
    omega
  | lit o =>
    refine ⟨_, rfl, by
      show Instr.memxLdI8 (d) (a) (b) (iscale) ⟨(sp), (cs), .lit (BitVec.ofNat 64 (o.toNat))⟩ ⟨(x.ahead), (x.scope), (x.ord), (x.wait), bit (bitN x.g), (x.gslot), bit (bitN x.ginv)⟩ = _
      simp only [bit_bitN, BitVec.ofNat_toNat, BitVec.setWidth_eq], ?_⟩
    show fits [kf 0 2 3, kf 2 6 28, kf 26 6 0, pf 20 6, pf 14 6, pf 8 6, pf 41 2, rf 40 1, rf 34 6, rf 32 2, pf 45 2, pf 43 2, pf 60 4, pf 57 3, pf 55 2, pf 53 2, pf 52 1, pf 48 4, pf 47 1, zf 64 32, pf 96 64] [d, a, b, iscale, sp, cs, x.ahead, x.scope, x.ord, x.wait, bitN x.g, x.gslot, bitN x.ginv, o.toNat] = true
    have b_x_g := bitN_lt x.g
    have b_x_ginv := bitN_lt x.ginv
    have t_o := o.isLt
    simp only [fits_par, fits_key, fits_rf, fits_cf, fits_zf, fits_nil, Bool.and_eq_true, decide_eq_true_eq, Bool.and_true]
    omega

theorem Shape.memxLdN8 (d : Nat) (a : Nat) (b : Nat) (iscale : Nat) (m : Addr) (x : Ext) : Shape.Statement (.memxLdN8 d a b iscale m x) := by
  intro h hf _
  have hf : ckSd h d 20 ++ ckSs h a 14 ++ ckSs h b 8 ++ ckN 4 iscale 41 ++ m.faults ++ x.load h = [] := hf
  simp only [List.append_eq_nil_iff] at hf
  have e0 := (ckSd_nil ..).1 hf.1.1.1.1.1
  have e1 := (ckSs_nil ..).1 hf.1.1.1.1.2
  have e2 := (ckSs_nil ..).1 hf.1.1.1.2
  have e3 := (ckN_nil ..).1 hf.1.1.2
  have hm := addr_fits hf.1.2
  have hx := load_fits hf.2
  have l1648 := lim_le h 16 48 (by decide)
  simp only [extFits] at hx
  obtain ⟨sp, cs, off⟩ := m
  dsimp only at hm
  cases off with
  | disp o =>
    refine ⟨_, rfl, by
      show Instr.memxLdN8 (d) (a) (b) (iscale) ⟨(sp), (cs), .disp (BitVec.ofNat 32 (o.toNat))⟩ ⟨(x.ahead), (x.scope), (x.ord), (x.wait), bit (bitN x.g), (x.gslot), bit (bitN x.ginv)⟩ = _
      simp only [bit_bitN, BitVec.ofNat_toNat, BitVec.setWidth_eq], ?_⟩
    show fits [kf 0 2 2, kf 2 6 28, kf 26 6 1, pf 20 6, pf 14 6, pf 8 6, pf 41 2, rf 40 1, rf 34 6, rf 32 2, pf 45 2, pf 43 2, pf 60 4, pf 57 3, pf 55 2, pf 53 2, pf 52 1, pf 48 4, pf 47 1, pf 64 32] [d, a, b, iscale, sp, cs, x.ahead, x.scope, x.ord, x.wait, bitN x.g, x.gslot, bitN x.ginv, o.toNat] = true
    have b_x_g := bitN_lt x.g
    have b_x_ginv := bitN_lt x.ginv
    have t_o := o.isLt
    simp only [fits_par, fits_key, fits_rf, fits_cf, fits_zf, fits_nil, Bool.and_eq_true, decide_eq_true_eq, Bool.and_true]
    omega
  | lit o =>
    refine ⟨_, rfl, by
      show Instr.memxLdN8 (d) (a) (b) (iscale) ⟨(sp), (cs), .lit (BitVec.ofNat 64 (o.toNat))⟩ ⟨(x.ahead), (x.scope), (x.ord), (x.wait), bit (bitN x.g), (x.gslot), bit (bitN x.ginv)⟩ = _
      simp only [bit_bitN, BitVec.ofNat_toNat, BitVec.setWidth_eq], ?_⟩
    show fits [kf 0 2 3, kf 2 6 28, kf 26 6 1, pf 20 6, pf 14 6, pf 8 6, pf 41 2, rf 40 1, rf 34 6, rf 32 2, pf 45 2, pf 43 2, pf 60 4, pf 57 3, pf 55 2, pf 53 2, pf 52 1, pf 48 4, pf 47 1, zf 64 32, pf 96 64] [d, a, b, iscale, sp, cs, x.ahead, x.scope, x.ord, x.wait, bitN x.g, x.gslot, bitN x.ginv, o.toNat] = true
    have b_x_g := bitN_lt x.g
    have b_x_ginv := bitN_lt x.ginv
    have t_o := o.isLt
    simp only [fits_par, fits_key, fits_rf, fits_cf, fits_zf, fits_nil, Bool.and_eq_true, decide_eq_true_eq, Bool.and_true]
    omega

theorem Shape.memxLdI16 (d : Nat) (a : Nat) (b : Nat) (iscale : Nat) (m : Addr) (x : Ext) : Shape.Statement (.memxLdI16 d a b iscale m x) := by
  intro h hf _
  have hf : ckSd h d 20 ++ ckSs h a 14 ++ ckSs h b 8 ++ ckN 4 iscale 41 ++ m.faults ++ x.load h = [] := hf
  simp only [List.append_eq_nil_iff] at hf
  have e0 := (ckSd_nil ..).1 hf.1.1.1.1.1
  have e1 := (ckSs_nil ..).1 hf.1.1.1.1.2
  have e2 := (ckSs_nil ..).1 hf.1.1.1.2
  have e3 := (ckN_nil ..).1 hf.1.1.2
  have hm := addr_fits hf.1.2
  have hx := load_fits hf.2
  have l1648 := lim_le h 16 48 (by decide)
  simp only [extFits] at hx
  obtain ⟨sp, cs, off⟩ := m
  dsimp only at hm
  cases off with
  | disp o =>
    refine ⟨_, rfl, by
      show Instr.memxLdI16 (d) (a) (b) (iscale) ⟨(sp), (cs), .disp (BitVec.ofNat 32 (o.toNat))⟩ ⟨(x.ahead), (x.scope), (x.ord), (x.wait), bit (bitN x.g), (x.gslot), bit (bitN x.ginv)⟩ = _
      simp only [bit_bitN, BitVec.ofNat_toNat, BitVec.setWidth_eq], ?_⟩
    show fits [kf 0 2 2, kf 2 6 28, kf 26 6 2, pf 20 6, pf 14 6, pf 8 6, pf 41 2, rf 40 1, rf 34 6, rf 32 2, pf 45 2, pf 43 2, pf 60 4, pf 57 3, pf 55 2, pf 53 2, pf 52 1, pf 48 4, pf 47 1, pf 64 32] [d, a, b, iscale, sp, cs, x.ahead, x.scope, x.ord, x.wait, bitN x.g, x.gslot, bitN x.ginv, o.toNat] = true
    have b_x_g := bitN_lt x.g
    have b_x_ginv := bitN_lt x.ginv
    have t_o := o.isLt
    simp only [fits_par, fits_key, fits_rf, fits_cf, fits_zf, fits_nil, Bool.and_eq_true, decide_eq_true_eq, Bool.and_true]
    omega
  | lit o =>
    refine ⟨_, rfl, by
      show Instr.memxLdI16 (d) (a) (b) (iscale) ⟨(sp), (cs), .lit (BitVec.ofNat 64 (o.toNat))⟩ ⟨(x.ahead), (x.scope), (x.ord), (x.wait), bit (bitN x.g), (x.gslot), bit (bitN x.ginv)⟩ = _
      simp only [bit_bitN, BitVec.ofNat_toNat, BitVec.setWidth_eq], ?_⟩
    show fits [kf 0 2 3, kf 2 6 28, kf 26 6 2, pf 20 6, pf 14 6, pf 8 6, pf 41 2, rf 40 1, rf 34 6, rf 32 2, pf 45 2, pf 43 2, pf 60 4, pf 57 3, pf 55 2, pf 53 2, pf 52 1, pf 48 4, pf 47 1, zf 64 32, pf 96 64] [d, a, b, iscale, sp, cs, x.ahead, x.scope, x.ord, x.wait, bitN x.g, x.gslot, bitN x.ginv, o.toNat] = true
    have b_x_g := bitN_lt x.g
    have b_x_ginv := bitN_lt x.ginv
    have t_o := o.isLt
    simp only [fits_par, fits_key, fits_rf, fits_cf, fits_zf, fits_nil, Bool.and_eq_true, decide_eq_true_eq, Bool.and_true]
    omega

theorem Shape.memxLdN16 (d : Nat) (a : Nat) (b : Nat) (iscale : Nat) (m : Addr) (x : Ext) : Shape.Statement (.memxLdN16 d a b iscale m x) := by
  intro h hf _
  have hf : ckSd h d 20 ++ ckSs h a 14 ++ ckSs h b 8 ++ ckN 4 iscale 41 ++ m.faults ++ x.load h = [] := hf
  simp only [List.append_eq_nil_iff] at hf
  have e0 := (ckSd_nil ..).1 hf.1.1.1.1.1
  have e1 := (ckSs_nil ..).1 hf.1.1.1.1.2
  have e2 := (ckSs_nil ..).1 hf.1.1.1.2
  have e3 := (ckN_nil ..).1 hf.1.1.2
  have hm := addr_fits hf.1.2
  have hx := load_fits hf.2
  have l1648 := lim_le h 16 48 (by decide)
  simp only [extFits] at hx
  obtain ⟨sp, cs, off⟩ := m
  dsimp only at hm
  cases off with
  | disp o =>
    refine ⟨_, rfl, by
      show Instr.memxLdN16 (d) (a) (b) (iscale) ⟨(sp), (cs), .disp (BitVec.ofNat 32 (o.toNat))⟩ ⟨(x.ahead), (x.scope), (x.ord), (x.wait), bit (bitN x.g), (x.gslot), bit (bitN x.ginv)⟩ = _
      simp only [bit_bitN, BitVec.ofNat_toNat, BitVec.setWidth_eq], ?_⟩
    show fits [kf 0 2 2, kf 2 6 28, kf 26 6 3, pf 20 6, pf 14 6, pf 8 6, pf 41 2, rf 40 1, rf 34 6, rf 32 2, pf 45 2, pf 43 2, pf 60 4, pf 57 3, pf 55 2, pf 53 2, pf 52 1, pf 48 4, pf 47 1, pf 64 32] [d, a, b, iscale, sp, cs, x.ahead, x.scope, x.ord, x.wait, bitN x.g, x.gslot, bitN x.ginv, o.toNat] = true
    have b_x_g := bitN_lt x.g
    have b_x_ginv := bitN_lt x.ginv
    have t_o := o.isLt
    simp only [fits_par, fits_key, fits_rf, fits_cf, fits_zf, fits_nil, Bool.and_eq_true, decide_eq_true_eq, Bool.and_true]
    omega
  | lit o =>
    refine ⟨_, rfl, by
      show Instr.memxLdN16 (d) (a) (b) (iscale) ⟨(sp), (cs), .lit (BitVec.ofNat 64 (o.toNat))⟩ ⟨(x.ahead), (x.scope), (x.ord), (x.wait), bit (bitN x.g), (x.gslot), bit (bitN x.ginv)⟩ = _
      simp only [bit_bitN, BitVec.ofNat_toNat, BitVec.setWidth_eq], ?_⟩
    show fits [kf 0 2 3, kf 2 6 28, kf 26 6 3, pf 20 6, pf 14 6, pf 8 6, pf 41 2, rf 40 1, rf 34 6, rf 32 2, pf 45 2, pf 43 2, pf 60 4, pf 57 3, pf 55 2, pf 53 2, pf 52 1, pf 48 4, pf 47 1, zf 64 32, pf 96 64] [d, a, b, iscale, sp, cs, x.ahead, x.scope, x.ord, x.wait, bitN x.g, x.gslot, bitN x.ginv, o.toNat] = true
    have b_x_g := bitN_lt x.g
    have b_x_ginv := bitN_lt x.ginv
    have t_o := o.isLt
    simp only [fits_par, fits_key, fits_rf, fits_cf, fits_zf, fits_nil, Bool.and_eq_true, decide_eq_true_eq, Bool.and_true]
    omega

theorem Shape.memxLdI32 (d : Nat) (a : Nat) (b : Nat) (iscale : Nat) (m : Addr) (x : Ext) : Shape.Statement (.memxLdI32 d a b iscale m x) := by
  intro h hf _
  have hf : ckSd h d 20 ++ ckSs h a 14 ++ ckSs h b 8 ++ ckN 4 iscale 41 ++ m.faults ++ x.load h = [] := hf
  simp only [List.append_eq_nil_iff] at hf
  have e0 := (ckSd_nil ..).1 hf.1.1.1.1.1
  have e1 := (ckSs_nil ..).1 hf.1.1.1.1.2
  have e2 := (ckSs_nil ..).1 hf.1.1.1.2
  have e3 := (ckN_nil ..).1 hf.1.1.2
  have hm := addr_fits hf.1.2
  have hx := load_fits hf.2
  have l1648 := lim_le h 16 48 (by decide)
  simp only [extFits] at hx
  obtain ⟨sp, cs, off⟩ := m
  dsimp only at hm
  cases off with
  | disp o =>
    refine ⟨_, rfl, by
      show Instr.memxLdI32 (d) (a) (b) (iscale) ⟨(sp), (cs), .disp (BitVec.ofNat 32 (o.toNat))⟩ ⟨(x.ahead), (x.scope), (x.ord), (x.wait), bit (bitN x.g), (x.gslot), bit (bitN x.ginv)⟩ = _
      simp only [bit_bitN, BitVec.ofNat_toNat, BitVec.setWidth_eq], ?_⟩
    show fits [kf 0 2 2, kf 2 6 28, kf 26 6 4, pf 20 6, pf 14 6, pf 8 6, pf 41 2, rf 40 1, rf 34 6, rf 32 2, pf 45 2, pf 43 2, pf 60 4, pf 57 3, pf 55 2, pf 53 2, pf 52 1, pf 48 4, pf 47 1, pf 64 32] [d, a, b, iscale, sp, cs, x.ahead, x.scope, x.ord, x.wait, bitN x.g, x.gslot, bitN x.ginv, o.toNat] = true
    have b_x_g := bitN_lt x.g
    have b_x_ginv := bitN_lt x.ginv
    have t_o := o.isLt
    simp only [fits_par, fits_key, fits_rf, fits_cf, fits_zf, fits_nil, Bool.and_eq_true, decide_eq_true_eq, Bool.and_true]
    omega
  | lit o =>
    refine ⟨_, rfl, by
      show Instr.memxLdI32 (d) (a) (b) (iscale) ⟨(sp), (cs), .lit (BitVec.ofNat 64 (o.toNat))⟩ ⟨(x.ahead), (x.scope), (x.ord), (x.wait), bit (bitN x.g), (x.gslot), bit (bitN x.ginv)⟩ = _
      simp only [bit_bitN, BitVec.ofNat_toNat, BitVec.setWidth_eq], ?_⟩
    show fits [kf 0 2 3, kf 2 6 28, kf 26 6 4, pf 20 6, pf 14 6, pf 8 6, pf 41 2, rf 40 1, rf 34 6, rf 32 2, pf 45 2, pf 43 2, pf 60 4, pf 57 3, pf 55 2, pf 53 2, pf 52 1, pf 48 4, pf 47 1, zf 64 32, pf 96 64] [d, a, b, iscale, sp, cs, x.ahead, x.scope, x.ord, x.wait, bitN x.g, x.gslot, bitN x.ginv, o.toNat] = true
    have b_x_g := bitN_lt x.g
    have b_x_ginv := bitN_lt x.ginv
    have t_o := o.isLt
    simp only [fits_par, fits_key, fits_rf, fits_cf, fits_zf, fits_nil, Bool.and_eq_true, decide_eq_true_eq, Bool.and_true]
    omega

theorem Shape.memxLdN32 (d : Nat) (a : Nat) (b : Nat) (iscale : Nat) (m : Addr) (x : Ext) : Shape.Statement (.memxLdN32 d a b iscale m x) := by
  intro h hf _
  have hf : ckSd h d 20 ++ ckSs h a 14 ++ ckSs h b 8 ++ ckN 4 iscale 41 ++ m.faults ++ x.load h = [] := hf
  simp only [List.append_eq_nil_iff] at hf
  have e0 := (ckSd_nil ..).1 hf.1.1.1.1.1
  have e1 := (ckSs_nil ..).1 hf.1.1.1.1.2
  have e2 := (ckSs_nil ..).1 hf.1.1.1.2
  have e3 := (ckN_nil ..).1 hf.1.1.2
  have hm := addr_fits hf.1.2
  have hx := load_fits hf.2
  have l1648 := lim_le h 16 48 (by decide)
  simp only [extFits] at hx
  obtain ⟨sp, cs, off⟩ := m
  dsimp only at hm
  cases off with
  | disp o =>
    refine ⟨_, rfl, by
      show Instr.memxLdN32 (d) (a) (b) (iscale) ⟨(sp), (cs), .disp (BitVec.ofNat 32 (o.toNat))⟩ ⟨(x.ahead), (x.scope), (x.ord), (x.wait), bit (bitN x.g), (x.gslot), bit (bitN x.ginv)⟩ = _
      simp only [bit_bitN, BitVec.ofNat_toNat, BitVec.setWidth_eq], ?_⟩
    show fits [kf 0 2 2, kf 2 6 28, kf 26 6 5, pf 20 6, pf 14 6, pf 8 6, pf 41 2, rf 40 1, rf 34 6, rf 32 2, pf 45 2, pf 43 2, pf 60 4, pf 57 3, pf 55 2, pf 53 2, pf 52 1, pf 48 4, pf 47 1, pf 64 32] [d, a, b, iscale, sp, cs, x.ahead, x.scope, x.ord, x.wait, bitN x.g, x.gslot, bitN x.ginv, o.toNat] = true
    have b_x_g := bitN_lt x.g
    have b_x_ginv := bitN_lt x.ginv
    have t_o := o.isLt
    simp only [fits_par, fits_key, fits_rf, fits_cf, fits_zf, fits_nil, Bool.and_eq_true, decide_eq_true_eq, Bool.and_true]
    omega
  | lit o =>
    refine ⟨_, rfl, by
      show Instr.memxLdN32 (d) (a) (b) (iscale) ⟨(sp), (cs), .lit (BitVec.ofNat 64 (o.toNat))⟩ ⟨(x.ahead), (x.scope), (x.ord), (x.wait), bit (bitN x.g), (x.gslot), bit (bitN x.ginv)⟩ = _
      simp only [bit_bitN, BitVec.ofNat_toNat, BitVec.setWidth_eq], ?_⟩
    show fits [kf 0 2 3, kf 2 6 28, kf 26 6 5, pf 20 6, pf 14 6, pf 8 6, pf 41 2, rf 40 1, rf 34 6, rf 32 2, pf 45 2, pf 43 2, pf 60 4, pf 57 3, pf 55 2, pf 53 2, pf 52 1, pf 48 4, pf 47 1, zf 64 32, pf 96 64] [d, a, b, iscale, sp, cs, x.ahead, x.scope, x.ord, x.wait, bitN x.g, x.gslot, bitN x.ginv, o.toNat] = true
    have b_x_g := bitN_lt x.g
    have b_x_ginv := bitN_lt x.ginv
    have t_o := o.isLt
    simp only [fits_par, fits_key, fits_rf, fits_cf, fits_zf, fits_nil, Bool.and_eq_true, decide_eq_true_eq, Bool.and_true]
    omega

theorem Shape.memxLdI64 (d : Nat) (a : Nat) (b : Nat) (iscale : Nat) (m : Addr) (x : Ext) : Shape.Statement (.memxLdI64 d a b iscale m x) := by
  intro h hf _
  have hf : ckSd h d 20 ++ ckSs h a 14 ++ ckSs h b 8 ++ ckN 4 iscale 41 ++ m.faults ++ x.load h = [] := hf
  simp only [List.append_eq_nil_iff] at hf
  have e0 := (ckSd_nil ..).1 hf.1.1.1.1.1
  have e1 := (ckSs_nil ..).1 hf.1.1.1.1.2
  have e2 := (ckSs_nil ..).1 hf.1.1.1.2
  have e3 := (ckN_nil ..).1 hf.1.1.2
  have hm := addr_fits hf.1.2
  have hx := load_fits hf.2
  have l1648 := lim_le h 16 48 (by decide)
  simp only [extFits] at hx
  obtain ⟨sp, cs, off⟩ := m
  dsimp only at hm
  cases off with
  | disp o =>
    refine ⟨_, rfl, by
      show Instr.memxLdI64 (d) (a) (b) (iscale) ⟨(sp), (cs), .disp (BitVec.ofNat 32 (o.toNat))⟩ ⟨(x.ahead), (x.scope), (x.ord), (x.wait), bit (bitN x.g), (x.gslot), bit (bitN x.ginv)⟩ = _
      simp only [bit_bitN, BitVec.ofNat_toNat, BitVec.setWidth_eq], ?_⟩
    show fits [kf 0 2 2, kf 2 6 28, kf 26 6 6, pf 20 6, pf 14 6, pf 8 6, pf 41 2, rf 40 1, rf 34 6, rf 32 2, pf 45 2, pf 43 2, pf 60 4, pf 57 3, pf 55 2, pf 53 2, pf 52 1, pf 48 4, pf 47 1, pf 64 32] [d, a, b, iscale, sp, cs, x.ahead, x.scope, x.ord, x.wait, bitN x.g, x.gslot, bitN x.ginv, o.toNat] = true
    have b_x_g := bitN_lt x.g
    have b_x_ginv := bitN_lt x.ginv
    have t_o := o.isLt
    simp only [fits_par, fits_key, fits_rf, fits_cf, fits_zf, fits_nil, Bool.and_eq_true, decide_eq_true_eq, Bool.and_true]
    omega
  | lit o =>
    refine ⟨_, rfl, by
      show Instr.memxLdI64 (d) (a) (b) (iscale) ⟨(sp), (cs), .lit (BitVec.ofNat 64 (o.toNat))⟩ ⟨(x.ahead), (x.scope), (x.ord), (x.wait), bit (bitN x.g), (x.gslot), bit (bitN x.ginv)⟩ = _
      simp only [bit_bitN, BitVec.ofNat_toNat, BitVec.setWidth_eq], ?_⟩
    show fits [kf 0 2 3, kf 2 6 28, kf 26 6 6, pf 20 6, pf 14 6, pf 8 6, pf 41 2, rf 40 1, rf 34 6, rf 32 2, pf 45 2, pf 43 2, pf 60 4, pf 57 3, pf 55 2, pf 53 2, pf 52 1, pf 48 4, pf 47 1, zf 64 32, pf 96 64] [d, a, b, iscale, sp, cs, x.ahead, x.scope, x.ord, x.wait, bitN x.g, x.gslot, bitN x.ginv, o.toNat] = true
    have b_x_g := bitN_lt x.g
    have b_x_ginv := bitN_lt x.ginv
    have t_o := o.isLt
    simp only [fits_par, fits_key, fits_rf, fits_cf, fits_zf, fits_nil, Bool.and_eq_true, decide_eq_true_eq, Bool.and_true]
    omega

theorem Shape.memxStI8 (a : Nat) (b : Nat) (m : Addr) (x : Ext) : Shape.Statement (.memxStI8 a b m x) := by
  intro h hf _
  have hf : ckSs h a 14 ++ ckSs h b 8 ++ m.faults ++ x.store h = [] := hf
  simp only [List.append_eq_nil_iff] at hf
  have e0 := (ckSs_nil ..).1 hf.1.1.1
  have e1 := (ckSs_nil ..).1 hf.1.1.2
  have hm := addr_fits hf.1.2
  have hx := store_fits hf.2
  have l1648 := lim_le h 16 48 (by decide)
  simp only [extFits] at hx
  obtain ⟨sp, cs, off⟩ := m
  dsimp only at hm
  cases off with
  | disp o =>
    refine ⟨_, rfl, by
      show Instr.memxStI8 (a) (b) ⟨(sp), (cs), .disp (BitVec.ofNat 32 (o.toNat))⟩ ⟨(x.ahead), (x.scope), (x.ord), (x.wait), bit (bitN x.g), (x.gslot), bit (bitN x.ginv)⟩ = _
      simp only [bit_bitN, BitVec.ofNat_toNat, BitVec.setWidth_eq], ?_⟩
    show fits [kf 0 2 2, kf 2 6 28, kf 26 6 8, rf 20 6, pf 14 6, pf 8 6, rf 41 2, rf 40 1, rf 34 6, rf 32 2, pf 45 2, pf 43 2, pf 60 4, pf 57 3, pf 55 2, pf 53 2, pf 52 1, pf 48 4, pf 47 1, pf 64 32] [a, b, sp, cs, x.ahead, x.scope, x.ord, x.wait, bitN x.g, x.gslot, bitN x.ginv, o.toNat] = true
    have b_x_g := bitN_lt x.g
    have b_x_ginv := bitN_lt x.ginv
    have t_o := o.isLt
    simp only [fits_par, fits_key, fits_rf, fits_cf, fits_zf, fits_nil, Bool.and_eq_true, decide_eq_true_eq, Bool.and_true]
    omega
  | lit o =>
    refine ⟨_, rfl, by
      show Instr.memxStI8 (a) (b) ⟨(sp), (cs), .lit (BitVec.ofNat 64 (o.toNat))⟩ ⟨(x.ahead), (x.scope), (x.ord), (x.wait), bit (bitN x.g), (x.gslot), bit (bitN x.ginv)⟩ = _
      simp only [bit_bitN, BitVec.ofNat_toNat, BitVec.setWidth_eq], ?_⟩
    show fits [kf 0 2 3, kf 2 6 28, kf 26 6 8, rf 20 6, pf 14 6, pf 8 6, rf 41 2, rf 40 1, rf 34 6, rf 32 2, pf 45 2, pf 43 2, pf 60 4, pf 57 3, pf 55 2, pf 53 2, pf 52 1, pf 48 4, pf 47 1, zf 64 32, pf 96 64] [a, b, sp, cs, x.ahead, x.scope, x.ord, x.wait, bitN x.g, x.gslot, bitN x.ginv, o.toNat] = true
    have b_x_g := bitN_lt x.g
    have b_x_ginv := bitN_lt x.ginv
    have t_o := o.isLt
    simp only [fits_par, fits_key, fits_rf, fits_cf, fits_zf, fits_nil, Bool.and_eq_true, decide_eq_true_eq, Bool.and_true]
    omega

theorem Shape.memxStI16 (a : Nat) (b : Nat) (m : Addr) (x : Ext) : Shape.Statement (.memxStI16 a b m x) := by
  intro h hf _
  have hf : ckSs h a 14 ++ ckSs h b 8 ++ m.faults ++ x.store h = [] := hf
  simp only [List.append_eq_nil_iff] at hf
  have e0 := (ckSs_nil ..).1 hf.1.1.1
  have e1 := (ckSs_nil ..).1 hf.1.1.2
  have hm := addr_fits hf.1.2
  have hx := store_fits hf.2
  have l1648 := lim_le h 16 48 (by decide)
  simp only [extFits] at hx
  obtain ⟨sp, cs, off⟩ := m
  dsimp only at hm
  cases off with
  | disp o =>
    refine ⟨_, rfl, by
      show Instr.memxStI16 (a) (b) ⟨(sp), (cs), .disp (BitVec.ofNat 32 (o.toNat))⟩ ⟨(x.ahead), (x.scope), (x.ord), (x.wait), bit (bitN x.g), (x.gslot), bit (bitN x.ginv)⟩ = _
      simp only [bit_bitN, BitVec.ofNat_toNat, BitVec.setWidth_eq], ?_⟩
    show fits [kf 0 2 2, kf 2 6 28, kf 26 6 9, rf 20 6, pf 14 6, pf 8 6, rf 41 2, rf 40 1, rf 34 6, rf 32 2, pf 45 2, pf 43 2, pf 60 4, pf 57 3, pf 55 2, pf 53 2, pf 52 1, pf 48 4, pf 47 1, pf 64 32] [a, b, sp, cs, x.ahead, x.scope, x.ord, x.wait, bitN x.g, x.gslot, bitN x.ginv, o.toNat] = true
    have b_x_g := bitN_lt x.g
    have b_x_ginv := bitN_lt x.ginv
    have t_o := o.isLt
    simp only [fits_par, fits_key, fits_rf, fits_cf, fits_zf, fits_nil, Bool.and_eq_true, decide_eq_true_eq, Bool.and_true]
    omega
  | lit o =>
    refine ⟨_, rfl, by
      show Instr.memxStI16 (a) (b) ⟨(sp), (cs), .lit (BitVec.ofNat 64 (o.toNat))⟩ ⟨(x.ahead), (x.scope), (x.ord), (x.wait), bit (bitN x.g), (x.gslot), bit (bitN x.ginv)⟩ = _
      simp only [bit_bitN, BitVec.ofNat_toNat, BitVec.setWidth_eq], ?_⟩
    show fits [kf 0 2 3, kf 2 6 28, kf 26 6 9, rf 20 6, pf 14 6, pf 8 6, rf 41 2, rf 40 1, rf 34 6, rf 32 2, pf 45 2, pf 43 2, pf 60 4, pf 57 3, pf 55 2, pf 53 2, pf 52 1, pf 48 4, pf 47 1, zf 64 32, pf 96 64] [a, b, sp, cs, x.ahead, x.scope, x.ord, x.wait, bitN x.g, x.gslot, bitN x.ginv, o.toNat] = true
    have b_x_g := bitN_lt x.g
    have b_x_ginv := bitN_lt x.ginv
    have t_o := o.isLt
    simp only [fits_par, fits_key, fits_rf, fits_cf, fits_zf, fits_nil, Bool.and_eq_true, decide_eq_true_eq, Bool.and_true]
    omega

theorem Shape.memxStI32 (a : Nat) (b : Nat) (m : Addr) (x : Ext) : Shape.Statement (.memxStI32 a b m x) := by
  intro h hf _
  have hf : ckSs h a 14 ++ ckSs h b 8 ++ m.faults ++ x.store h = [] := hf
  simp only [List.append_eq_nil_iff] at hf
  have e0 := (ckSs_nil ..).1 hf.1.1.1
  have e1 := (ckSs_nil ..).1 hf.1.1.2
  have hm := addr_fits hf.1.2
  have hx := store_fits hf.2
  have l1648 := lim_le h 16 48 (by decide)
  simp only [extFits] at hx
  obtain ⟨sp, cs, off⟩ := m
  dsimp only at hm
  cases off with
  | disp o =>
    refine ⟨_, rfl, by
      show Instr.memxStI32 (a) (b) ⟨(sp), (cs), .disp (BitVec.ofNat 32 (o.toNat))⟩ ⟨(x.ahead), (x.scope), (x.ord), (x.wait), bit (bitN x.g), (x.gslot), bit (bitN x.ginv)⟩ = _
      simp only [bit_bitN, BitVec.ofNat_toNat, BitVec.setWidth_eq], ?_⟩
    show fits [kf 0 2 2, kf 2 6 28, kf 26 6 10, rf 20 6, pf 14 6, pf 8 6, rf 41 2, rf 40 1, rf 34 6, rf 32 2, pf 45 2, pf 43 2, pf 60 4, pf 57 3, pf 55 2, pf 53 2, pf 52 1, pf 48 4, pf 47 1, pf 64 32] [a, b, sp, cs, x.ahead, x.scope, x.ord, x.wait, bitN x.g, x.gslot, bitN x.ginv, o.toNat] = true
    have b_x_g := bitN_lt x.g
    have b_x_ginv := bitN_lt x.ginv
    have t_o := o.isLt
    simp only [fits_par, fits_key, fits_rf, fits_cf, fits_zf, fits_nil, Bool.and_eq_true, decide_eq_true_eq, Bool.and_true]
    omega
  | lit o =>
    refine ⟨_, rfl, by
      show Instr.memxStI32 (a) (b) ⟨(sp), (cs), .lit (BitVec.ofNat 64 (o.toNat))⟩ ⟨(x.ahead), (x.scope), (x.ord), (x.wait), bit (bitN x.g), (x.gslot), bit (bitN x.ginv)⟩ = _
      simp only [bit_bitN, BitVec.ofNat_toNat, BitVec.setWidth_eq], ?_⟩
    show fits [kf 0 2 3, kf 2 6 28, kf 26 6 10, rf 20 6, pf 14 6, pf 8 6, rf 41 2, rf 40 1, rf 34 6, rf 32 2, pf 45 2, pf 43 2, pf 60 4, pf 57 3, pf 55 2, pf 53 2, pf 52 1, pf 48 4, pf 47 1, zf 64 32, pf 96 64] [a, b, sp, cs, x.ahead, x.scope, x.ord, x.wait, bitN x.g, x.gslot, bitN x.ginv, o.toNat] = true
    have b_x_g := bitN_lt x.g
    have b_x_ginv := bitN_lt x.ginv
    have t_o := o.isLt
    simp only [fits_par, fits_key, fits_rf, fits_cf, fits_zf, fits_nil, Bool.and_eq_true, decide_eq_true_eq, Bool.and_true]
    omega

theorem Shape.memxStI64 (a : Nat) (b : Nat) (m : Addr) (x : Ext) : Shape.Statement (.memxStI64 a b m x) := by
  intro h hf _
  have hf : ckSs h a 14 ++ ckSs h b 8 ++ m.faults ++ x.store h = [] := hf
  simp only [List.append_eq_nil_iff] at hf
  have e0 := (ckSs_nil ..).1 hf.1.1.1
  have e1 := (ckSs_nil ..).1 hf.1.1.2
  have hm := addr_fits hf.1.2
  have hx := store_fits hf.2
  have l1648 := lim_le h 16 48 (by decide)
  simp only [extFits] at hx
  obtain ⟨sp, cs, off⟩ := m
  dsimp only at hm
  cases off with
  | disp o =>
    refine ⟨_, rfl, by
      show Instr.memxStI64 (a) (b) ⟨(sp), (cs), .disp (BitVec.ofNat 32 (o.toNat))⟩ ⟨(x.ahead), (x.scope), (x.ord), (x.wait), bit (bitN x.g), (x.gslot), bit (bitN x.ginv)⟩ = _
      simp only [bit_bitN, BitVec.ofNat_toNat, BitVec.setWidth_eq], ?_⟩
    show fits [kf 0 2 2, kf 2 6 28, kf 26 6 11, rf 20 6, pf 14 6, pf 8 6, rf 41 2, rf 40 1, rf 34 6, rf 32 2, pf 45 2, pf 43 2, pf 60 4, pf 57 3, pf 55 2, pf 53 2, pf 52 1, pf 48 4, pf 47 1, pf 64 32] [a, b, sp, cs, x.ahead, x.scope, x.ord, x.wait, bitN x.g, x.gslot, bitN x.ginv, o.toNat] = true
    have b_x_g := bitN_lt x.g
    have b_x_ginv := bitN_lt x.ginv
    have t_o := o.isLt
    simp only [fits_par, fits_key, fits_rf, fits_cf, fits_zf, fits_nil, Bool.and_eq_true, decide_eq_true_eq, Bool.and_true]
    omega
  | lit o =>
    refine ⟨_, rfl, by
      show Instr.memxStI64 (a) (b) ⟨(sp), (cs), .lit (BitVec.ofNat 64 (o.toNat))⟩ ⟨(x.ahead), (x.scope), (x.ord), (x.wait), bit (bitN x.g), (x.gslot), bit (bitN x.ginv)⟩ = _
      simp only [bit_bitN, BitVec.ofNat_toNat, BitVec.setWidth_eq], ?_⟩
    show fits [kf 0 2 3, kf 2 6 28, kf 26 6 11, rf 20 6, pf 14 6, pf 8 6, rf 41 2, rf 40 1, rf 34 6, rf 32 2, pf 45 2, pf 43 2, pf 60 4, pf 57 3, pf 55 2, pf 53 2, pf 52 1, pf 48 4, pf 47 1, zf 64 32, pf 96 64] [a, b, sp, cs, x.ahead, x.scope, x.ord, x.wait, bitN x.g, x.gslot, bitN x.ginv, o.toNat] = true
    have b_x_g := bitN_lt x.g
    have b_x_ginv := bitN_lt x.ginv
    have t_o := o.isLt
    simp only [fits_par, fits_key, fits_rf, fits_cf, fits_zf, fits_nil, Bool.and_eq_true, decide_eq_true_eq, Bool.and_true]
    omega

theorem Shape.aswp (d : Nat) (a : Nat) (b : Nat) (sz : Bool) (m : Addr) (x : Ext) : Shape.Statement (.aswp d a b sz m x) := by
  intro h hf _
  have hf : ckSd h d 20 ++ ckSs h a 14 ++ ckSs h b 8 ++ m.faults ++ chk m.off.isLit 5 0 ++ x.atom h = [] := hf
  simp only [List.append_eq_nil_iff] at hf
  have e0 := (ckSd_nil ..).1 hf.1.1.1.1.1
  have e1 := (ckSs_nil ..).1 hf.1.1.1.1.2
  have e2 := (ckSs_nil ..).1 hf.1.1.1.2
  have hm := addr_fits hf.1.1.2
  have hl := (chk_nil ..).1 hf.1.2
  have hx := atom_fits hf.2
  have l1648 := lim_le h 16 48 (by decide)
  simp only [extFits] at hx
  obtain ⟨sp, cs, off⟩ := m
  dsimp only at hm
  cases off with
  | disp o =>
    refine ⟨_, rfl, by
      show Instr.aswp (d) (a) (b) (bit (bitN sz)) ⟨(sp), (cs), .disp (BitVec.ofNat 32 (o.toNat))⟩ ⟨(x.ahead), (x.scope), (x.ord), (x.wait), bit (bitN x.g), (x.gslot), bit (bitN x.ginv)⟩ = _
      simp only [bit_bitN, BitVec.ofNat_toNat, BitVec.setWidth_eq], ?_⟩
    show fits [kf 0 2 2, kf 2 6 29, kf 26 6 0, pf 20 6, pf 14 6, pf 8 6, rf 41 2, pf 40 1, rf 34 6, rf 32 2, pf 45 2, pf 43 2, pf 60 4, pf 57 3, pf 55 2, pf 53 2, pf 52 1, pf 48 4, pf 47 1, pf 64 32] [d, a, b, bitN sz, sp, cs, x.ahead, x.scope, x.ord, x.wait, bitN x.g, x.gslot, bitN x.ginv, o.toNat] = true
    have b_sz := bitN_lt sz
    have b_x_g := bitN_lt x.g
    have b_x_ginv := bitN_lt x.ginv
    have t_o := o.isLt
    simp only [fits_par, fits_key, fits_rf, fits_cf, fits_zf, fits_nil, Bool.and_eq_true, decide_eq_true_eq, Bool.and_true]
    omega
  | lit o =>
    cases hl

theorem Shape.acas (d : Nat) (a : Nat) (b : Nat) (sz : Bool) (c : Nat) (m : Addr) (x : Ext) : Shape.Statement (.acas d a b sz c m x) := by
  intro h hf _
  have hf : ckSd h d 20 ++ ckSs h a 14 ++ ckSs h b 8 ++ ckSd h c 34 ++ m.faults ++ chk m.off.isLit 5 0 ++ x.atom h = [] := hf
  simp only [List.append_eq_nil_iff] at hf
  have e0 := (ckSd_nil ..).1 hf.1.1.1.1.1.1
  have e1 := (ckSs_nil ..).1 hf.1.1.1.1.1.2
  have e2 := (ckSs_nil ..).1 hf.1.1.1.1.2
  have e3 := (ckSd_nil ..).1 hf.1.1.1.2
  have hm := addr_fits hf.1.1.2
  have hl := (chk_nil ..).1 hf.1.2
  have hx := atom_fits hf.2
  have l1648 := lim_le h 16 48 (by decide)
  simp only [extFits] at hx
  obtain ⟨sp, cs, off⟩ := m
  dsimp only at hm
  cases off with
  | disp o =>
    refine ⟨_, rfl, by
      show Instr.acas (d) (a) (b) (bit (bitN sz)) (c) ⟨(sp), (cs), .disp (BitVec.ofNat 32 (o.toNat))⟩ ⟨(x.ahead), (x.scope), (x.ord), (x.wait), bit (bitN x.g), (x.gslot), bit (bitN x.ginv)⟩ = _
      simp only [bit_bitN, BitVec.ofNat_toNat, BitVec.setWidth_eq], ?_⟩
    show fits [kf 0 2 2, kf 2 6 29, kf 26 6 1, pf 20 6, pf 14 6, pf 8 6, rf 41 2, pf 40 1, pf 34 6, rf 32 2, pf 45 2, pf 43 2, pf 60 4, pf 57 3, pf 55 2, pf 53 2, pf 52 1, pf 48 4, pf 47 1, pf 64 32] [d, a, b, bitN sz, c, sp, cs, x.ahead, x.scope, x.ord, x.wait, bitN x.g, x.gslot, bitN x.ginv, o.toNat] = true
    have b_sz := bitN_lt sz
    have b_x_g := bitN_lt x.g
    have b_x_ginv := bitN_lt x.ginv
    have t_o := o.isLt
    simp only [fits_par, fits_key, fits_rf, fits_cf, fits_zf, fits_nil, Bool.and_eq_true, decide_eq_true_eq, Bool.and_true]
    omega
  | lit o =>
    cases hl

theorem Shape.aadd (d : Nat) (a : Nat) (b : Nat) (sz : Bool) (m : Addr) (x : Ext) : Shape.Statement (.aadd d a b sz m x) := by
  intro h hf _
  have hf : ckSd h d 20 ++ ckSs h a 14 ++ ckSs h b 8 ++ m.faults ++ chk m.off.isLit 5 0 ++ x.atom h = [] := hf
  simp only [List.append_eq_nil_iff] at hf
  have e0 := (ckSd_nil ..).1 hf.1.1.1.1.1
  have e1 := (ckSs_nil ..).1 hf.1.1.1.1.2
  have e2 := (ckSs_nil ..).1 hf.1.1.1.2
  have hm := addr_fits hf.1.1.2
  have hl := (chk_nil ..).1 hf.1.2
  have hx := atom_fits hf.2
  have l1648 := lim_le h 16 48 (by decide)
  simp only [extFits] at hx
  obtain ⟨sp, cs, off⟩ := m
  dsimp only at hm
  cases off with
  | disp o =>
    refine ⟨_, rfl, by
      show Instr.aadd (d) (a) (b) (bit (bitN sz)) ⟨(sp), (cs), .disp (BitVec.ofNat 32 (o.toNat))⟩ ⟨(x.ahead), (x.scope), (x.ord), (x.wait), bit (bitN x.g), (x.gslot), bit (bitN x.ginv)⟩ = _
      simp only [bit_bitN, BitVec.ofNat_toNat, BitVec.setWidth_eq], ?_⟩
    show fits [kf 0 2 2, kf 2 6 29, kf 26 6 2, pf 20 6, pf 14 6, pf 8 6, rf 41 2, pf 40 1, rf 34 6, rf 32 2, pf 45 2, pf 43 2, pf 60 4, pf 57 3, pf 55 2, pf 53 2, pf 52 1, pf 48 4, pf 47 1, pf 64 32] [d, a, b, bitN sz, sp, cs, x.ahead, x.scope, x.ord, x.wait, bitN x.g, x.gslot, bitN x.ginv, o.toNat] = true
    have b_sz := bitN_lt sz
    have b_x_g := bitN_lt x.g
    have b_x_ginv := bitN_lt x.ginv
    have t_o := o.isLt
    simp only [fits_par, fits_key, fits_rf, fits_cf, fits_zf, fits_nil, Bool.and_eq_true, decide_eq_true_eq, Bool.and_true]
    omega
  | lit o =>
    cases hl

theorem Shape.aand (d : Nat) (a : Nat) (b : Nat) (sz : Bool) (m : Addr) (x : Ext) : Shape.Statement (.aand d a b sz m x) := by
  intro h hf _
  have hf : ckSd h d 20 ++ ckSs h a 14 ++ ckSs h b 8 ++ m.faults ++ chk m.off.isLit 5 0 ++ x.atom h = [] := hf
  simp only [List.append_eq_nil_iff] at hf
  have e0 := (ckSd_nil ..).1 hf.1.1.1.1.1
  have e1 := (ckSs_nil ..).1 hf.1.1.1.1.2
  have e2 := (ckSs_nil ..).1 hf.1.1.1.2
  have hm := addr_fits hf.1.1.2
  have hl := (chk_nil ..).1 hf.1.2
  have hx := atom_fits hf.2
  have l1648 := lim_le h 16 48 (by decide)
  simp only [extFits] at hx
  obtain ⟨sp, cs, off⟩ := m
  dsimp only at hm
  cases off with
  | disp o =>
    refine ⟨_, rfl, by
      show Instr.aand (d) (a) (b) (bit (bitN sz)) ⟨(sp), (cs), .disp (BitVec.ofNat 32 (o.toNat))⟩ ⟨(x.ahead), (x.scope), (x.ord), (x.wait), bit (bitN x.g), (x.gslot), bit (bitN x.ginv)⟩ = _
      simp only [bit_bitN, BitVec.ofNat_toNat, BitVec.setWidth_eq], ?_⟩
    show fits [kf 0 2 2, kf 2 6 29, kf 26 6 3, pf 20 6, pf 14 6, pf 8 6, rf 41 2, pf 40 1, rf 34 6, rf 32 2, pf 45 2, pf 43 2, pf 60 4, pf 57 3, pf 55 2, pf 53 2, pf 52 1, pf 48 4, pf 47 1, pf 64 32] [d, a, b, bitN sz, sp, cs, x.ahead, x.scope, x.ord, x.wait, bitN x.g, x.gslot, bitN x.ginv, o.toNat] = true
    have b_sz := bitN_lt sz
    have b_x_g := bitN_lt x.g
    have b_x_ginv := bitN_lt x.ginv
    have t_o := o.isLt
    simp only [fits_par, fits_key, fits_rf, fits_cf, fits_zf, fits_nil, Bool.and_eq_true, decide_eq_true_eq, Bool.and_true]
    omega
  | lit o =>
    cases hl

theorem Shape.aor (d : Nat) (a : Nat) (b : Nat) (sz : Bool) (m : Addr) (x : Ext) : Shape.Statement (.aor d a b sz m x) := by
  intro h hf _
  have hf : ckSd h d 20 ++ ckSs h a 14 ++ ckSs h b 8 ++ m.faults ++ chk m.off.isLit 5 0 ++ x.atom h = [] := hf
  simp only [List.append_eq_nil_iff] at hf
  have e0 := (ckSd_nil ..).1 hf.1.1.1.1.1
  have e1 := (ckSs_nil ..).1 hf.1.1.1.1.2
  have e2 := (ckSs_nil ..).1 hf.1.1.1.2
  have hm := addr_fits hf.1.1.2
  have hl := (chk_nil ..).1 hf.1.2
  have hx := atom_fits hf.2
  have l1648 := lim_le h 16 48 (by decide)
  simp only [extFits] at hx
  obtain ⟨sp, cs, off⟩ := m
  dsimp only at hm
  cases off with
  | disp o =>
    refine ⟨_, rfl, by
      show Instr.aor (d) (a) (b) (bit (bitN sz)) ⟨(sp), (cs), .disp (BitVec.ofNat 32 (o.toNat))⟩ ⟨(x.ahead), (x.scope), (x.ord), (x.wait), bit (bitN x.g), (x.gslot), bit (bitN x.ginv)⟩ = _
      simp only [bit_bitN, BitVec.ofNat_toNat, BitVec.setWidth_eq], ?_⟩
    show fits [kf 0 2 2, kf 2 6 29, kf 26 6 4, pf 20 6, pf 14 6, pf 8 6, rf 41 2, pf 40 1, rf 34 6, rf 32 2, pf 45 2, pf 43 2, pf 60 4, pf 57 3, pf 55 2, pf 53 2, pf 52 1, pf 48 4, pf 47 1, pf 64 32] [d, a, b, bitN sz, sp, cs, x.ahead, x.scope, x.ord, x.wait, bitN x.g, x.gslot, bitN x.ginv, o.toNat] = true
    have b_sz := bitN_lt sz
    have b_x_g := bitN_lt x.g
    have b_x_ginv := bitN_lt x.ginv
    have t_o := o.isLt
    simp only [fits_par, fits_key, fits_rf, fits_cf, fits_zf, fits_nil, Bool.and_eq_true, decide_eq_true_eq, Bool.and_true]
    omega
  | lit o =>
    cases hl

theorem Shape.axor (d : Nat) (a : Nat) (b : Nat) (sz : Bool) (m : Addr) (x : Ext) : Shape.Statement (.axor d a b sz m x) := by
  intro h hf _
  have hf : ckSd h d 20 ++ ckSs h a 14 ++ ckSs h b 8 ++ m.faults ++ chk m.off.isLit 5 0 ++ x.atom h = [] := hf
  simp only [List.append_eq_nil_iff] at hf
  have e0 := (ckSd_nil ..).1 hf.1.1.1.1.1
  have e1 := (ckSs_nil ..).1 hf.1.1.1.1.2
  have e2 := (ckSs_nil ..).1 hf.1.1.1.2
  have hm := addr_fits hf.1.1.2
  have hl := (chk_nil ..).1 hf.1.2
  have hx := atom_fits hf.2
  have l1648 := lim_le h 16 48 (by decide)
  simp only [extFits] at hx
  obtain ⟨sp, cs, off⟩ := m
  dsimp only at hm
  cases off with
  | disp o =>
    refine ⟨_, rfl, by
      show Instr.axor (d) (a) (b) (bit (bitN sz)) ⟨(sp), (cs), .disp (BitVec.ofNat 32 (o.toNat))⟩ ⟨(x.ahead), (x.scope), (x.ord), (x.wait), bit (bitN x.g), (x.gslot), bit (bitN x.ginv)⟩ = _
      simp only [bit_bitN, BitVec.ofNat_toNat, BitVec.setWidth_eq], ?_⟩
    show fits [kf 0 2 2, kf 2 6 29, kf 26 6 5, pf 20 6, pf 14 6, pf 8 6, rf 41 2, pf 40 1, rf 34 6, rf 32 2, pf 45 2, pf 43 2, pf 60 4, pf 57 3, pf 55 2, pf 53 2, pf 52 1, pf 48 4, pf 47 1, pf 64 32] [d, a, b, bitN sz, sp, cs, x.ahead, x.scope, x.ord, x.wait, bitN x.g, x.gslot, bitN x.ginv, o.toNat] = true
    have b_sz := bitN_lt sz
    have b_x_g := bitN_lt x.g
    have b_x_ginv := bitN_lt x.ginv
    have t_o := o.isLt
    simp only [fits_par, fits_key, fits_rf, fits_cf, fits_zf, fits_nil, Bool.and_eq_true, decide_eq_true_eq, Bool.and_true]
    omega
  | lit o =>
    cases hl

theorem Shape.aminI (d : Nat) (a : Nat) (b : Nat) (sz : Bool) (m : Addr) (x : Ext) : Shape.Statement (.aminI d a b sz m x) := by
  intro h hf _
  have hf : ckSd h d 20 ++ ckSs h a 14 ++ ckSs h b 8 ++ m.faults ++ chk m.off.isLit 5 0 ++ x.atom h = [] := hf
  simp only [List.append_eq_nil_iff] at hf
  have e0 := (ckSd_nil ..).1 hf.1.1.1.1.1
  have e1 := (ckSs_nil ..).1 hf.1.1.1.1.2
  have e2 := (ckSs_nil ..).1 hf.1.1.1.2
  have hm := addr_fits hf.1.1.2
  have hl := (chk_nil ..).1 hf.1.2
  have hx := atom_fits hf.2
  have l1648 := lim_le h 16 48 (by decide)
  simp only [extFits] at hx
  obtain ⟨sp, cs, off⟩ := m
  dsimp only at hm
  cases off with
  | disp o =>
    refine ⟨_, rfl, by
      show Instr.aminI (d) (a) (b) (bit (bitN sz)) ⟨(sp), (cs), .disp (BitVec.ofNat 32 (o.toNat))⟩ ⟨(x.ahead), (x.scope), (x.ord), (x.wait), bit (bitN x.g), (x.gslot), bit (bitN x.ginv)⟩ = _
      simp only [bit_bitN, BitVec.ofNat_toNat, BitVec.setWidth_eq], ?_⟩
    show fits [kf 0 2 2, kf 2 6 29, kf 26 6 6, pf 20 6, pf 14 6, pf 8 6, rf 41 2, pf 40 1, rf 34 6, rf 32 2, pf 45 2, pf 43 2, pf 60 4, pf 57 3, pf 55 2, pf 53 2, pf 52 1, pf 48 4, pf 47 1, pf 64 32] [d, a, b, bitN sz, sp, cs, x.ahead, x.scope, x.ord, x.wait, bitN x.g, x.gslot, bitN x.ginv, o.toNat] = true
    have b_sz := bitN_lt sz
    have b_x_g := bitN_lt x.g
    have b_x_ginv := bitN_lt x.ginv
    have t_o := o.isLt
    simp only [fits_par, fits_key, fits_rf, fits_cf, fits_zf, fits_nil, Bool.and_eq_true, decide_eq_true_eq, Bool.and_true]
    omega
  | lit o =>
    cases hl

theorem Shape.aminN (d : Nat) (a : Nat) (b : Nat) (sz : Bool) (m : Addr) (x : Ext) : Shape.Statement (.aminN d a b sz m x) := by
  intro h hf _
  have hf : ckSd h d 20 ++ ckSs h a 14 ++ ckSs h b 8 ++ m.faults ++ chk m.off.isLit 5 0 ++ x.atom h = [] := hf
  simp only [List.append_eq_nil_iff] at hf
  have e0 := (ckSd_nil ..).1 hf.1.1.1.1.1
  have e1 := (ckSs_nil ..).1 hf.1.1.1.1.2
  have e2 := (ckSs_nil ..).1 hf.1.1.1.2
  have hm := addr_fits hf.1.1.2
  have hl := (chk_nil ..).1 hf.1.2
  have hx := atom_fits hf.2
  have l1648 := lim_le h 16 48 (by decide)
  simp only [extFits] at hx
  obtain ⟨sp, cs, off⟩ := m
  dsimp only at hm
  cases off with
  | disp o =>
    refine ⟨_, rfl, by
      show Instr.aminN (d) (a) (b) (bit (bitN sz)) ⟨(sp), (cs), .disp (BitVec.ofNat 32 (o.toNat))⟩ ⟨(x.ahead), (x.scope), (x.ord), (x.wait), bit (bitN x.g), (x.gslot), bit (bitN x.ginv)⟩ = _
      simp only [bit_bitN, BitVec.ofNat_toNat, BitVec.setWidth_eq], ?_⟩
    show fits [kf 0 2 2, kf 2 6 29, kf 26 6 7, pf 20 6, pf 14 6, pf 8 6, rf 41 2, pf 40 1, rf 34 6, rf 32 2, pf 45 2, pf 43 2, pf 60 4, pf 57 3, pf 55 2, pf 53 2, pf 52 1, pf 48 4, pf 47 1, pf 64 32] [d, a, b, bitN sz, sp, cs, x.ahead, x.scope, x.ord, x.wait, bitN x.g, x.gslot, bitN x.ginv, o.toNat] = true
    have b_sz := bitN_lt sz
    have b_x_g := bitN_lt x.g
    have b_x_ginv := bitN_lt x.ginv
    have t_o := o.isLt
    simp only [fits_par, fits_key, fits_rf, fits_cf, fits_zf, fits_nil, Bool.and_eq_true, decide_eq_true_eq, Bool.and_true]
    omega
  | lit o =>
    cases hl

theorem Shape.amaxI (d : Nat) (a : Nat) (b : Nat) (sz : Bool) (m : Addr) (x : Ext) : Shape.Statement (.amaxI d a b sz m x) := by
  intro h hf _
  have hf : ckSd h d 20 ++ ckSs h a 14 ++ ckSs h b 8 ++ m.faults ++ chk m.off.isLit 5 0 ++ x.atom h = [] := hf
  simp only [List.append_eq_nil_iff] at hf
  have e0 := (ckSd_nil ..).1 hf.1.1.1.1.1
  have e1 := (ckSs_nil ..).1 hf.1.1.1.1.2
  have e2 := (ckSs_nil ..).1 hf.1.1.1.2
  have hm := addr_fits hf.1.1.2
  have hl := (chk_nil ..).1 hf.1.2
  have hx := atom_fits hf.2
  have l1648 := lim_le h 16 48 (by decide)
  simp only [extFits] at hx
  obtain ⟨sp, cs, off⟩ := m
  dsimp only at hm
  cases off with
  | disp o =>
    refine ⟨_, rfl, by
      show Instr.amaxI (d) (a) (b) (bit (bitN sz)) ⟨(sp), (cs), .disp (BitVec.ofNat 32 (o.toNat))⟩ ⟨(x.ahead), (x.scope), (x.ord), (x.wait), bit (bitN x.g), (x.gslot), bit (bitN x.ginv)⟩ = _
      simp only [bit_bitN, BitVec.ofNat_toNat, BitVec.setWidth_eq], ?_⟩
    show fits [kf 0 2 2, kf 2 6 29, kf 26 6 8, pf 20 6, pf 14 6, pf 8 6, rf 41 2, pf 40 1, rf 34 6, rf 32 2, pf 45 2, pf 43 2, pf 60 4, pf 57 3, pf 55 2, pf 53 2, pf 52 1, pf 48 4, pf 47 1, pf 64 32] [d, a, b, bitN sz, sp, cs, x.ahead, x.scope, x.ord, x.wait, bitN x.g, x.gslot, bitN x.ginv, o.toNat] = true
    have b_sz := bitN_lt sz
    have b_x_g := bitN_lt x.g
    have b_x_ginv := bitN_lt x.ginv
    have t_o := o.isLt
    simp only [fits_par, fits_key, fits_rf, fits_cf, fits_zf, fits_nil, Bool.and_eq_true, decide_eq_true_eq, Bool.and_true]
    omega
  | lit o =>
    cases hl

theorem Shape.amaxN (d : Nat) (a : Nat) (b : Nat) (sz : Bool) (m : Addr) (x : Ext) : Shape.Statement (.amaxN d a b sz m x) := by
  intro h hf _
  have hf : ckSd h d 20 ++ ckSs h a 14 ++ ckSs h b 8 ++ m.faults ++ chk m.off.isLit 5 0 ++ x.atom h = [] := hf
  simp only [List.append_eq_nil_iff] at hf
  have e0 := (ckSd_nil ..).1 hf.1.1.1.1.1
  have e1 := (ckSs_nil ..).1 hf.1.1.1.1.2
  have e2 := (ckSs_nil ..).1 hf.1.1.1.2
  have hm := addr_fits hf.1.1.2
  have hl := (chk_nil ..).1 hf.1.2
  have hx := atom_fits hf.2
  have l1648 := lim_le h 16 48 (by decide)
  simp only [extFits] at hx
  obtain ⟨sp, cs, off⟩ := m
  dsimp only at hm
  cases off with
  | disp o =>
    refine ⟨_, rfl, by
      show Instr.amaxN (d) (a) (b) (bit (bitN sz)) ⟨(sp), (cs), .disp (BitVec.ofNat 32 (o.toNat))⟩ ⟨(x.ahead), (x.scope), (x.ord), (x.wait), bit (bitN x.g), (x.gslot), bit (bitN x.ginv)⟩ = _
      simp only [bit_bitN, BitVec.ofNat_toNat, BitVec.setWidth_eq], ?_⟩
    show fits [kf 0 2 2, kf 2 6 29, kf 26 6 9, pf 20 6, pf 14 6, pf 8 6, rf 41 2, pf 40 1, rf 34 6, rf 32 2, pf 45 2, pf 43 2, pf 60 4, pf 57 3, pf 55 2, pf 53 2, pf 52 1, pf 48 4, pf 47 1, pf 64 32] [d, a, b, bitN sz, sp, cs, x.ahead, x.scope, x.ord, x.wait, bitN x.g, x.gslot, bitN x.ginv, o.toNat] = true
    have b_sz := bitN_lt sz
    have b_x_g := bitN_lt x.g
    have b_x_ginv := bitN_lt x.ginv
    have t_o := o.isLt
    simp only [fits_par, fits_key, fits_rf, fits_cf, fits_zf, fits_nil, Bool.and_eq_true, decide_eq_true_eq, Bool.and_true]
    omega
  | lit o =>
    cases hl

theorem Shape.afaddF32 (d : Nat) (a : Nat) (b : Nat) (m : Addr) (x : Ext) : Shape.Statement (.afaddF32 d a b m x) := by
  intro h hf _
  have hf : ckSd h d 20 ++ ckSs h a 14 ++ ckSs h b 8 ++ m.faults ++ chk m.off.isLit 5 0 ++ x.atom h = [] := hf
  simp only [List.append_eq_nil_iff] at hf
  have e0 := (ckSd_nil ..).1 hf.1.1.1.1.1
  have e1 := (ckSs_nil ..).1 hf.1.1.1.1.2
  have e2 := (ckSs_nil ..).1 hf.1.1.1.2
  have hm := addr_fits hf.1.1.2
  have hl := (chk_nil ..).1 hf.1.2
  have hx := atom_fits hf.2
  have l1648 := lim_le h 16 48 (by decide)
  simp only [extFits] at hx
  obtain ⟨sp, cs, off⟩ := m
  dsimp only at hm
  cases off with
  | disp o =>
    refine ⟨_, rfl, by
      show Instr.afaddF32 (d) (a) (b) ⟨(sp), (cs), .disp (BitVec.ofNat 32 (o.toNat))⟩ ⟨(x.ahead), (x.scope), (x.ord), (x.wait), bit (bitN x.g), (x.gslot), bit (bitN x.ginv)⟩ = _
      simp only [bit_bitN, BitVec.ofNat_toNat, BitVec.setWidth_eq], ?_⟩
    show fits [kf 0 2 2, kf 2 6 29, kf 26 6 10, pf 20 6, pf 14 6, pf 8 6, rf 41 2, rf 40 1, rf 34 6, rf 32 2, pf 45 2, pf 43 2, pf 60 4, pf 57 3, pf 55 2, pf 53 2, pf 52 1, pf 48 4, pf 47 1, pf 64 32] [d, a, b, sp, cs, x.ahead, x.scope, x.ord, x.wait, bitN x.g, x.gslot, bitN x.ginv, o.toNat] = true
    have b_x_g := bitN_lt x.g
    have b_x_ginv := bitN_lt x.ginv
    have t_o := o.isLt
    simp only [fits_par, fits_key, fits_rf, fits_cf, fits_zf, fits_nil, Bool.and_eq_true, decide_eq_true_eq, Bool.and_true]
    omega
  | lit o =>
    cases hl

theorem Shape.vadd (w : Nat) (d : Nat) (a : Nat) (b : Nat) (p : Pfx) : Shape.Statement (.vadd w d a b p) := by
  intro h hf _
  have hf : ckN 3 w (26 + p.shift) ++ ckV h d (20 + p.shift) ++ ckV h a (14 + p.shift) ++ ckV h b (8 + p.shift) ++ p.plain h = [] := hf
  simp only [List.append_eq_nil_iff] at hf
  have e0 := (ckN_nil ..).1 hf.1.1.1.1
  have e1 := (ckV_nil ..).1 hf.1.1.1.2
  have e2 := (ckV_nil ..).1 hf.1.1.2
  have e3 := (ckV_nil ..).1 hf.1.2
  have hp := plain_fits hf.2
  have l416 := lim_le h 4 16 (by decide)
  simp only [pfxFits] at hp
  obtain ⟨pr, fo, ro, ze, ma, co, f4⟩ := p
  dsimp only at hp
  cases pr with
  | true =>
    refine ⟨_, rfl, by
      show Instr.vadd (w) (d) (a) (b) ⟨true, (fo), (ro), bit (bitN ze), (ma), bit (bitN co), bit (bitN f4)⟩ = _
      simp only [bit_bitN, BitVec.ofNat_toNat, BitVec.setWidth_eq], ?_⟩
    show fits [kf 0 2 1, kf 2 6 0x3E, rf 8 9, pf 17 1, pf 18 1, pf 19 3, pf 22 1, pf 23 3, pf 26 6, kf 32 2 0, kf 34 6 0x1e, kf 60 4 0, pf 58 2, pf 52 6, pf 46 6, pf 40 6] [bitN f4, bitN co, ma, bitN ze, ro, fo, w, d, a, b] = true
    have b_co := bitN_lt co
    have b_f4 := bitN_lt f4
    have b_ze := bitN_lt ze
    simp only [fits_par, fits_key, fits_rf, fits_cf, fits_zf, fits_nil, Bool.and_eq_true, decide_eq_true_eq, Bool.and_true]
    omega
  | false =>
    obtain ⟨_, _, _, hn⟩ := hp
    obtain ⟨rfl, rfl, rfl, rfl, rfl, rfl⟩ : fo = 0 ∧ ro = 0 ∧ ze = false ∧ ma = 0 ∧ co = false ∧ f4 = false := by
      simpa [Pfx.none] using hn rfl
    refine ⟨_, rfl, rfl, ?_⟩
    show fits [kf 0 2 0, kf 2 6 0x1e, kf 28 4 0, pf 26 2, pf 20 6, pf 14 6, pf 8 6] [w, d, a, b] = true
    simp only [fits_par, fits_key, fits_rf, fits_cf, fits_zf, fits_nil, Bool.and_eq_true, decide_eq_true_eq, Bool.and_true]
    omega

theorem Shape.vsub (w : Nat) (d : Nat) (a : Nat) (b : Nat) (p : Pfx) : Shape.Statement (.vsub w d a b p) := by
  intro h hf _
  have hf : ckN 3 w (26 + p.shift) ++ ckV h d (20 + p.shift) ++ ckV h a (14 + p.shift) ++ ckV h b (8 + p.shift) ++ p.plain h = [] := hf
  simp only [List.append_eq_nil_iff] at hf
  have e0 := (ckN_nil ..).1 hf.1.1.1.1
  have e1 := (ckV_nil ..).1 hf.1.1.1.2
  have e2 := (ckV_nil ..).1 hf.1.1.2
  have e3 := (ckV_nil ..).1 hf.1.2
  have hp := plain_fits hf.2
  have l416 := lim_le h 4 16 (by decide)
  simp only [pfxFits] at hp
  obtain ⟨pr, fo, ro, ze, ma, co, f4⟩ := p
  dsimp only at hp
  cases pr with
  | true =>
    refine ⟨_, rfl, by
      show Instr.vsub (w) (d) (a) (b) ⟨true, (fo), (ro), bit (bitN ze), (ma), bit (bitN co), bit (bitN f4)⟩ = _
      simp only [bit_bitN, BitVec.ofNat_toNat, BitVec.setWidth_eq], ?_⟩
    show fits [kf 0 2 1, kf 2 6 0x3E, rf 8 9, pf 17 1, pf 18 1, pf 19 3, pf 22 1, pf 23 3, pf 26 6, kf 32 2 0, kf 34 6 0x1e, kf 60 4 1, pf 58 2, pf 52 6, pf 46 6, pf 40 6] [bitN f4, bitN co, ma, bitN ze, ro, fo, w, d, a, b] = true
    have b_co := bitN_lt co
    have b_f4 := bitN_lt f4
    have b_ze := bitN_lt ze
    simp only [fits_par, fits_key, fits_rf, fits_cf, fits_zf, fits_nil, Bool.and_eq_true, decide_eq_true_eq, Bool.and_true]
    omega
  | false =>
    obtain ⟨_, _, _, hn⟩ := hp
    obtain ⟨rfl, rfl, rfl, rfl, rfl, rfl⟩ : fo = 0 ∧ ro = 0 ∧ ze = false ∧ ma = 0 ∧ co = false ∧ f4 = false := by
      simpa [Pfx.none] using hn rfl
    refine ⟨_, rfl, rfl, ?_⟩
    show fits [kf 0 2 0, kf 2 6 0x1e, kf 28 4 1, pf 26 2, pf 20 6, pf 14 6, pf 8 6] [w, d, a, b] = true
    simp only [fits_par, fits_key, fits_rf, fits_cf, fits_zf, fits_nil, Bool.and_eq_true, decide_eq_true_eq, Bool.and_true]
    omega

theorem Shape.vmul (w : Nat) (d : Nat) (a : Nat) (b : Nat) (p : Pfx) : Shape.Statement (.vmul w d a b p) := by
  intro h hf _
  have hf : ckN 3 w (26 + p.shift) ++ ckV h d (20 + p.shift) ++ ckV h a (14 + p.shift) ++ ckV h b (8 + p.shift) ++ p.plain h = [] := hf
  simp only [List.append_eq_nil_iff] at hf
  have e0 := (ckN_nil ..).1 hf.1.1.1.1
  have e1 := (ckV_nil ..).1 hf.1.1.1.2
  have e2 := (ckV_nil ..).1 hf.1.1.2
  have e3 := (ckV_nil ..).1 hf.1.2
  have hp := plain_fits hf.2
  have l416 := lim_le h 4 16 (by decide)
  simp only [pfxFits] at hp
  obtain ⟨pr, fo, ro, ze, ma, co, f4⟩ := p
  dsimp only at hp
  cases pr with
  | true =>
    refine ⟨_, rfl, by
      show Instr.vmul (w) (d) (a) (b) ⟨true, (fo), (ro), bit (bitN ze), (ma), bit (bitN co), bit (bitN f4)⟩ = _
      simp only [bit_bitN, BitVec.ofNat_toNat, BitVec.setWidth_eq], ?_⟩
    show fits [kf 0 2 1, kf 2 6 0x3E, rf 8 9, pf 17 1, pf 18 1, pf 19 3, pf 22 1, pf 23 3, pf 26 6, kf 32 2 0, kf 34 6 0x1e, kf 60 4 2, pf 58 2, pf 52 6, pf 46 6, pf 40 6] [bitN f4, bitN co, ma, bitN ze, ro, fo, w, d, a, b] = true
    have b_co := bitN_lt co
    have b_f4 := bitN_lt f4
    have b_ze := bitN_lt ze
    simp only [fits_par, fits_key, fits_rf, fits_cf, fits_zf, fits_nil, Bool.and_eq_true, decide_eq_true_eq, Bool.and_true]
    omega
  | false =>
    obtain ⟨_, _, _, hn⟩ := hp
    obtain ⟨rfl, rfl, rfl, rfl, rfl, rfl⟩ : fo = 0 ∧ ro = 0 ∧ ze = false ∧ ma = 0 ∧ co = false ∧ f4 = false := by
      simpa [Pfx.none] using hn rfl
    refine ⟨_, rfl, rfl, ?_⟩
    show fits [kf 0 2 0, kf 2 6 0x1e, kf 28 4 2, pf 26 2, pf 20 6, pf 14 6, pf 8 6] [w, d, a, b] = true
    simp only [fits_par, fits_key, fits_rf, fits_cf, fits_zf, fits_nil, Bool.and_eq_true, decide_eq_true_eq, Bool.and_true]
    omega

theorem Shape.vminI (w : Nat) (d : Nat) (a : Nat) (b : Nat) (p : Pfx) : Shape.Statement (.vminI w d a b p) := by
  intro h hf _
  have hf : ckN 3 w (26 + p.shift) ++ ckV h d (20 + p.shift) ++ ckV h a (14 + p.shift) ++ ckV h b (8 + p.shift) ++ p.plain h = [] := hf
  simp only [List.append_eq_nil_iff] at hf
  have e0 := (ckN_nil ..).1 hf.1.1.1.1
  have e1 := (ckV_nil ..).1 hf.1.1.1.2
  have e2 := (ckV_nil ..).1 hf.1.1.2
  have e3 := (ckV_nil ..).1 hf.1.2
  have hp := plain_fits hf.2
  have l416 := lim_le h 4 16 (by decide)
  simp only [pfxFits] at hp
  obtain ⟨pr, fo, ro, ze, ma, co, f4⟩ := p
  dsimp only at hp
  cases pr with
  | true =>
    refine ⟨_, rfl, by
      show Instr.vminI (w) (d) (a) (b) ⟨true, (fo), (ro), bit (bitN ze), (ma), bit (bitN co), bit (bitN f4)⟩ = _
      simp only [bit_bitN, BitVec.ofNat_toNat, BitVec.setWidth_eq], ?_⟩
    show fits [kf 0 2 1, kf 2 6 0x3E, rf 8 9, pf 17 1, pf 18 1, pf 19 3, pf 22 1, pf 23 3, pf 26 6, kf 32 2 0, kf 34 6 0x1e, kf 60 4 3, pf 58 2, pf 52 6, pf 46 6, pf 40 6] [bitN f4, bitN co, ma, bitN ze, ro, fo, w, d, a, b] = true
    have b_co := bitN_lt co
    have b_f4 := bitN_lt f4
    have b_ze := bitN_lt ze
    simp only [fits_par, fits_key, fits_rf, fits_cf, fits_zf, fits_nil, Bool.and_eq_true, decide_eq_true_eq, Bool.and_true]
    omega
  | false =>
    obtain ⟨_, _, _, hn⟩ := hp
    obtain ⟨rfl, rfl, rfl, rfl, rfl, rfl⟩ : fo = 0 ∧ ro = 0 ∧ ze = false ∧ ma = 0 ∧ co = false ∧ f4 = false := by
      simpa [Pfx.none] using hn rfl
    refine ⟨_, rfl, rfl, ?_⟩
    show fits [kf 0 2 0, kf 2 6 0x1e, kf 28 4 3, pf 26 2, pf 20 6, pf 14 6, pf 8 6] [w, d, a, b] = true
    simp only [fits_par, fits_key, fits_rf, fits_cf, fits_zf, fits_nil, Bool.and_eq_true, decide_eq_true_eq, Bool.and_true]
    omega

theorem Shape.vminN (w : Nat) (d : Nat) (a : Nat) (b : Nat) (p : Pfx) : Shape.Statement (.vminN w d a b p) := by
  intro h hf _
  have hf : ckN 3 w (26 + p.shift) ++ ckV h d (20 + p.shift) ++ ckV h a (14 + p.shift) ++ ckV h b (8 + p.shift) ++ p.plain h = [] := hf
  simp only [List.append_eq_nil_iff] at hf
  have e0 := (ckN_nil ..).1 hf.1.1.1.1
  have e1 := (ckV_nil ..).1 hf.1.1.1.2
  have e2 := (ckV_nil ..).1 hf.1.1.2
  have e3 := (ckV_nil ..).1 hf.1.2
  have hp := plain_fits hf.2
  have l416 := lim_le h 4 16 (by decide)
  simp only [pfxFits] at hp
  obtain ⟨pr, fo, ro, ze, ma, co, f4⟩ := p
  dsimp only at hp
  cases pr with
  | true =>
    refine ⟨_, rfl, by
      show Instr.vminN (w) (d) (a) (b) ⟨true, (fo), (ro), bit (bitN ze), (ma), bit (bitN co), bit (bitN f4)⟩ = _
      simp only [bit_bitN, BitVec.ofNat_toNat, BitVec.setWidth_eq], ?_⟩
    show fits [kf 0 2 1, kf 2 6 0x3E, rf 8 9, pf 17 1, pf 18 1, pf 19 3, pf 22 1, pf 23 3, pf 26 6, kf 32 2 0, kf 34 6 0x1e, kf 60 4 4, pf 58 2, pf 52 6, pf 46 6, pf 40 6] [bitN f4, bitN co, ma, bitN ze, ro, fo, w, d, a, b] = true
    have b_co := bitN_lt co
    have b_f4 := bitN_lt f4
    have b_ze := bitN_lt ze
    simp only [fits_par, fits_key, fits_rf, fits_cf, fits_zf, fits_nil, Bool.and_eq_true, decide_eq_true_eq, Bool.and_true]
    omega
  | false =>
    obtain ⟨_, _, _, hn⟩ := hp
    obtain ⟨rfl, rfl, rfl, rfl, rfl, rfl⟩ : fo = 0 ∧ ro = 0 ∧ ze = false ∧ ma = 0 ∧ co = false ∧ f4 = false := by
      simpa [Pfx.none] using hn rfl
    refine ⟨_, rfl, rfl, ?_⟩
    show fits [kf 0 2 0, kf 2 6 0x1e, kf 28 4 4, pf 26 2, pf 20 6, pf 14 6, pf 8 6] [w, d, a, b] = true
    simp only [fits_par, fits_key, fits_rf, fits_cf, fits_zf, fits_nil, Bool.and_eq_true, decide_eq_true_eq, Bool.and_true]
    omega

theorem Shape.vmaxI (w : Nat) (d : Nat) (a : Nat) (b : Nat) (p : Pfx) : Shape.Statement (.vmaxI w d a b p) := by
  intro h hf _
  have hf : ckN 3 w (26 + p.shift) ++ ckV h d (20 + p.shift) ++ ckV h a (14 + p.shift) ++ ckV h b (8 + p.shift) ++ p.plain h = [] := hf
  simp only [List.append_eq_nil_iff] at hf
  have e0 := (ckN_nil ..).1 hf.1.1.1.1
  have e1 := (ckV_nil ..).1 hf.1.1.1.2
  have e2 := (ckV_nil ..).1 hf.1.1.2
  have e3 := (ckV_nil ..).1 hf.1.2
  have hp := plain_fits hf.2
  have l416 := lim_le h 4 16 (by decide)
  simp only [pfxFits] at hp
  obtain ⟨pr, fo, ro, ze, ma, co, f4⟩ := p
  dsimp only at hp
  cases pr with
  | true =>
    refine ⟨_, rfl, by
      show Instr.vmaxI (w) (d) (a) (b) ⟨true, (fo), (ro), bit (bitN ze), (ma), bit (bitN co), bit (bitN f4)⟩ = _
      simp only [bit_bitN, BitVec.ofNat_toNat, BitVec.setWidth_eq], ?_⟩
    show fits [kf 0 2 1, kf 2 6 0x3E, rf 8 9, pf 17 1, pf 18 1, pf 19 3, pf 22 1, pf 23 3, pf 26 6, kf 32 2 0, kf 34 6 0x1e, kf 60 4 5, pf 58 2, pf 52 6, pf 46 6, pf 40 6] [bitN f4, bitN co, ma, bitN ze, ro, fo, w, d, a, b] = true
    have b_co := bitN_lt co
    have b_f4 := bitN_lt f4
    have b_ze := bitN_lt ze
    simp only [fits_par, fits_key, fits_rf, fits_cf, fits_zf, fits_nil, Bool.and_eq_true, decide_eq_true_eq, Bool.and_true]
    omega
  | false =>
    obtain ⟨_, _, _, hn⟩ := hp
    obtain ⟨rfl, rfl, rfl, rfl, rfl, rfl⟩ : fo = 0 ∧ ro = 0 ∧ ze = false ∧ ma = 0 ∧ co = false ∧ f4 = false := by
      simpa [Pfx.none] using hn rfl
    refine ⟨_, rfl, rfl, ?_⟩
    show fits [kf 0 2 0, kf 2 6 0x1e, kf 28 4 5, pf 26 2, pf 20 6, pf 14 6, pf 8 6] [w, d, a, b] = true
    simp only [fits_par, fits_key, fits_rf, fits_cf, fits_zf, fits_nil, Bool.and_eq_true, decide_eq_true_eq, Bool.and_true]
    omega

theorem Shape.vmaxN (w : Nat) (d : Nat) (a : Nat) (b : Nat) (p : Pfx) : Shape.Statement (.vmaxN w d a b p) := by
  intro h hf _
  have hf : ckN 3 w (26 + p.shift) ++ ckV h d (20 + p.shift) ++ ckV h a (14 + p.shift) ++ ckV h b (8 + p.shift) ++ p.plain h = [] := hf
  simp only [List.append_eq_nil_iff] at hf
  have e0 := (ckN_nil ..).1 hf.1.1.1.1
  have e1 := (ckV_nil ..).1 hf.1.1.1.2
  have e2 := (ckV_nil ..).1 hf.1.1.2
  have e3 := (ckV_nil ..).1 hf.1.2
  have hp := plain_fits hf.2
  have l416 := lim_le h 4 16 (by decide)
  simp only [pfxFits] at hp
  obtain ⟨pr, fo, ro, ze, ma, co, f4⟩ := p
  dsimp only at hp
  cases pr with
  | true =>
    refine ⟨_, rfl, by
      show Instr.vmaxN (w) (d) (a) (b) ⟨true, (fo), (ro), bit (bitN ze), (ma), bit (bitN co), bit (bitN f4)⟩ = _
      simp only [bit_bitN, BitVec.ofNat_toNat, BitVec.setWidth_eq], ?_⟩
    show fits [kf 0 2 1, kf 2 6 0x3E, rf 8 9, pf 17 1, pf 18 1, pf 19 3, pf 22 1, pf 23 3, pf 26 6, kf 32 2 0, kf 34 6 0x1e, kf 60 4 6, pf 58 2, pf 52 6, pf 46 6, pf 40 6] [bitN f4, bitN co, ma, bitN ze, ro, fo, w, d, a, b] = true
    have b_co := bitN_lt co
    have b_f4 := bitN_lt f4
    have b_ze := bitN_lt ze
    simp only [fits_par, fits_key, fits_rf, fits_cf, fits_zf, fits_nil, Bool.and_eq_true, decide_eq_true_eq, Bool.and_true]
    omega
  | false =>
    obtain ⟨_, _, _, hn⟩ := hp
    obtain ⟨rfl, rfl, rfl, rfl, rfl, rfl⟩ : fo = 0 ∧ ro = 0 ∧ ze = false ∧ ma = 0 ∧ co = false ∧ f4 = false := by
      simpa [Pfx.none] using hn rfl
    refine ⟨_, rfl, rfl, ?_⟩
    show fits [kf 0 2 0, kf 2 6 0x1e, kf 28 4 6, pf 26 2, pf 20 6, pf 14 6, pf 8 6] [w, d, a, b] = true
    simp only [fits_par, fits_key, fits_rf, fits_cf, fits_zf, fits_nil, Bool.and_eq_true, decide_eq_true_eq, Bool.and_true]
    omega

theorem Shape.vand (w : Nat) (d : Nat) (a : Nat) (b : Nat) (p : Pfx) : Shape.Statement (.vand w d a b p) := by
  intro h hf _
  have hf : ckN 3 w (26 + p.shift) ++ ckV h d (20 + p.shift) ++ ckV h a (14 + p.shift) ++ ckV h b (8 + p.shift) ++ p.plain h = [] := hf
  simp only [List.append_eq_nil_iff] at hf
  have e0 := (ckN_nil ..).1 hf.1.1.1.1
  have e1 := (ckV_nil ..).1 hf.1.1.1.2
  have e2 := (ckV_nil ..).1 hf.1.1.2
  have e3 := (ckV_nil ..).1 hf.1.2
  have hp := plain_fits hf.2
  have l416 := lim_le h 4 16 (by decide)
  simp only [pfxFits] at hp
  obtain ⟨pr, fo, ro, ze, ma, co, f4⟩ := p
  dsimp only at hp
  cases pr with
  | true =>
    refine ⟨_, rfl, by
      show Instr.vand (w) (d) (a) (b) ⟨true, (fo), (ro), bit (bitN ze), (ma), bit (bitN co), bit (bitN f4)⟩ = _
      simp only [bit_bitN, BitVec.ofNat_toNat, BitVec.setWidth_eq], ?_⟩
    show fits [kf 0 2 1, kf 2 6 0x3E, rf 8 9, pf 17 1, pf 18 1, pf 19 3, pf 22 1, pf 23 3, pf 26 6, kf 32 2 0, kf 34 6 0x1e, kf 60 4 7, pf 58 2, pf 52 6, pf 46 6, pf 40 6] [bitN f4, bitN co, ma, bitN ze, ro, fo, w, d, a, b] = true
    have b_co := bitN_lt co
    have b_f4 := bitN_lt f4
    have b_ze := bitN_lt ze
    simp only [fits_par, fits_key, fits_rf, fits_cf, fits_zf, fits_nil, Bool.and_eq_true, decide_eq_true_eq, Bool.and_true]
    omega
  | false =>
    obtain ⟨_, _, _, hn⟩ := hp
    obtain ⟨rfl, rfl, rfl, rfl, rfl, rfl⟩ : fo = 0 ∧ ro = 0 ∧ ze = false ∧ ma = 0 ∧ co = false ∧ f4 = false := by
      simpa [Pfx.none] using hn rfl
    refine ⟨_, rfl, rfl, ?_⟩
    show fits [kf 0 2 0, kf 2 6 0x1e, kf 28 4 7, pf 26 2, pf 20 6, pf 14 6, pf 8 6] [w, d, a, b] = true
    simp only [fits_par, fits_key, fits_rf, fits_cf, fits_zf, fits_nil, Bool.and_eq_true, decide_eq_true_eq, Bool.and_true]
    omega

theorem Shape.vor (w : Nat) (d : Nat) (a : Nat) (b : Nat) (p : Pfx) : Shape.Statement (.vor w d a b p) := by
  intro h hf _
  have hf : ckN 3 w (26 + p.shift) ++ ckV h d (20 + p.shift) ++ ckV h a (14 + p.shift) ++ ckV h b (8 + p.shift) ++ p.plain h = [] := hf
  simp only [List.append_eq_nil_iff] at hf
  have e0 := (ckN_nil ..).1 hf.1.1.1.1
  have e1 := (ckV_nil ..).1 hf.1.1.1.2
  have e2 := (ckV_nil ..).1 hf.1.1.2
  have e3 := (ckV_nil ..).1 hf.1.2
  have hp := plain_fits hf.2
  have l416 := lim_le h 4 16 (by decide)
  simp only [pfxFits] at hp
  obtain ⟨pr, fo, ro, ze, ma, co, f4⟩ := p
  dsimp only at hp
  cases pr with
  | true =>
    refine ⟨_, rfl, by
      show Instr.vor (w) (d) (a) (b) ⟨true, (fo), (ro), bit (bitN ze), (ma), bit (bitN co), bit (bitN f4)⟩ = _
      simp only [bit_bitN, BitVec.ofNat_toNat, BitVec.setWidth_eq], ?_⟩
    show fits [kf 0 2 1, kf 2 6 0x3E, rf 8 9, pf 17 1, pf 18 1, pf 19 3, pf 22 1, pf 23 3, pf 26 6, kf 32 2 0, kf 34 6 0x1e, kf 60 4 8, pf 58 2, pf 52 6, pf 46 6, pf 40 6] [bitN f4, bitN co, ma, bitN ze, ro, fo, w, d, a, b] = true
    have b_co := bitN_lt co
    have b_f4 := bitN_lt f4
    have b_ze := bitN_lt ze
    simp only [fits_par, fits_key, fits_rf, fits_cf, fits_zf, fits_nil, Bool.and_eq_true, decide_eq_true_eq, Bool.and_true]
    omega
  | false =>
    obtain ⟨_, _, _, hn⟩ := hp
    obtain ⟨rfl, rfl, rfl, rfl, rfl, rfl⟩ : fo = 0 ∧ ro = 0 ∧ ze = false ∧ ma = 0 ∧ co = false ∧ f4 = false := by
      simpa [Pfx.none] using hn rfl
    refine ⟨_, rfl, rfl, ?_⟩
    show fits [kf 0 2 0, kf 2 6 0x1e, kf 28 4 8, pf 26 2, pf 20 6, pf 14 6, pf 8 6] [w, d, a, b] = true
    simp only [fits_par, fits_key, fits_rf, fits_cf, fits_zf, fits_nil, Bool.and_eq_true, decide_eq_true_eq, Bool.and_true]
    omega

theorem Shape.vxor (w : Nat) (d : Nat) (a : Nat) (b : Nat) (p : Pfx) : Shape.Statement (.vxor w d a b p) := by
  intro h hf _
  have hf : ckN 3 w (26 + p.shift) ++ ckV h d (20 + p.shift) ++ ckV h a (14 + p.shift) ++ ckV h b (8 + p.shift) ++ p.plain h = [] := hf
  simp only [List.append_eq_nil_iff] at hf
  have e0 := (ckN_nil ..).1 hf.1.1.1.1
  have e1 := (ckV_nil ..).1 hf.1.1.1.2
  have e2 := (ckV_nil ..).1 hf.1.1.2
  have e3 := (ckV_nil ..).1 hf.1.2
  have hp := plain_fits hf.2
  have l416 := lim_le h 4 16 (by decide)
  simp only [pfxFits] at hp
  obtain ⟨pr, fo, ro, ze, ma, co, f4⟩ := p
  dsimp only at hp
  cases pr with
  | true =>
    refine ⟨_, rfl, by
      show Instr.vxor (w) (d) (a) (b) ⟨true, (fo), (ro), bit (bitN ze), (ma), bit (bitN co), bit (bitN f4)⟩ = _
      simp only [bit_bitN, BitVec.ofNat_toNat, BitVec.setWidth_eq], ?_⟩
    show fits [kf 0 2 1, kf 2 6 0x3E, rf 8 9, pf 17 1, pf 18 1, pf 19 3, pf 22 1, pf 23 3, pf 26 6, kf 32 2 0, kf 34 6 0x1e, kf 60 4 9, pf 58 2, pf 52 6, pf 46 6, pf 40 6] [bitN f4, bitN co, ma, bitN ze, ro, fo, w, d, a, b] = true
    have b_co := bitN_lt co
    have b_f4 := bitN_lt f4
    have b_ze := bitN_lt ze
    simp only [fits_par, fits_key, fits_rf, fits_cf, fits_zf, fits_nil, Bool.and_eq_true, decide_eq_true_eq, Bool.and_true]
    omega
  | false =>
    obtain ⟨_, _, _, hn⟩ := hp
    obtain ⟨rfl, rfl, rfl, rfl, rfl, rfl⟩ : fo = 0 ∧ ro = 0 ∧ ze = false ∧ ma = 0 ∧ co = false ∧ f4 = false := by
      simpa [Pfx.none] using hn rfl
    refine ⟨_, rfl, rfl, ?_⟩
    show fits [kf 0 2 0, kf 2 6 0x1e, kf 28 4 9, pf 26 2, pf 20 6, pf 14 6, pf 8 6] [w, d, a, b] = true
    simp only [fits_par, fits_key, fits_rf, fits_cf, fits_zf, fits_nil, Bool.and_eq_true, decide_eq_true_eq, Bool.and_true]
    omega

theorem Shape.vsll (w : Nat) (d : Nat) (a : Nat) (b : Nat) (p : Pfx) : Shape.Statement (.vsll w d a b p) := by
  intro h hf _
  have hf : ckN 3 w (26 + p.shift) ++ ckV h d (20 + p.shift) ++ ckV h a (14 + p.shift) ++ ckV h b (8 + p.shift) ++ p.plain h = [] := hf
  simp only [List.append_eq_nil_iff] at hf
  have e0 := (ckN_nil ..).1 hf.1.1.1.1
  have e1 := (ckV_nil ..).1 hf.1.1.1.2
  have e2 := (ckV_nil ..).1 hf.1.1.2
  have e3 := (ckV_nil ..).1 hf.1.2
  have hp := plain_fits hf.2
  have l416 := lim_le h 4 16 (by decide)
  simp only [pfxFits] at hp
  obtain ⟨pr, fo, ro, ze, ma, co, f4⟩ := p
  dsimp only at hp
  cases pr with
  | true =>
    refine ⟨_, rfl, by
      show Instr.vsll (w) (d) (a) (b) ⟨true, (fo), (ro), bit (bitN ze), (ma), bit (bitN co), bit (bitN f4)⟩ = _
      simp only [bit_bitN, BitVec.ofNat_toNat, BitVec.setWidth_eq], ?_⟩
    show fits [kf 0 2 1, kf 2 6 0x3E, rf 8 9, pf 17 1, pf 18 1, pf 19 3, pf 22 1, pf 23 3, pf 26 6, kf 32 2 0, kf 34 6 0x1e, kf 60 4 10, pf 58 2, pf 52 6, pf 46 6, pf 40 6] [bitN f4, bitN co, ma, bitN ze, ro, fo, w, d, a, b] = true
    have b_co := bitN_lt co
    have b_f4 := bitN_lt f4
    have b_ze := bitN_lt ze
    simp only [fits_par, fits_key, fits_rf, fits_cf, fits_zf, fits_nil, Bool.and_eq_true, decide_eq_true_eq, Bool.and_true]
    omega
  | false =>
    obtain ⟨_, _, _, hn⟩ := hp
    obtain ⟨rfl, rfl, rfl, rfl, rfl, rfl⟩ : fo = 0 ∧ ro = 0 ∧ ze = false ∧ ma = 0 ∧ co = false ∧ f4 = false := by
      simpa [Pfx.none] using hn rfl
    refine ⟨_, rfl, rfl, ?_⟩
    show fits [kf 0 2 0, kf 2 6 0x1e, kf 28 4 10, pf 26 2, pf 20 6, pf 14 6, pf 8 6] [w, d, a, b] = true
    simp only [fits_par, fits_key, fits_rf, fits_cf, fits_zf, fits_nil, Bool.and_eq_true, decide_eq_true_eq, Bool.and_true]
    omega

theorem Shape.vsrl (w : Nat) (d : Nat) (a : Nat) (b : Nat) (p : Pfx) : Shape.Statement (.vsrl w d a b p) := by
  intro h hf _
  have hf : ckN 3 w (26 + p.shift) ++ ckV h d (20 + p.shift) ++ ckV h a (14 + p.shift) ++ ckV h b (8 + p.shift) ++ p.plain h = [] := hf
  simp only [List.append_eq_nil_iff] at hf
  have e0 := (ckN_nil ..).1 hf.1.1.1.1
  have e1 := (ckV_nil ..).1 hf.1.1.1.2
  have e2 := (ckV_nil ..).1 hf.1.1.2
  have e3 := (ckV_nil ..).1 hf.1.2
  have hp := plain_fits hf.2
  have l416 := lim_le h 4 16 (by decide)
  simp only [pfxFits] at hp
  obtain ⟨pr, fo, ro, ze, ma, co, f4⟩ := p
  dsimp only at hp
  cases pr with
  | true =>
    refine ⟨_, rfl, by
      show Instr.vsrl (w) (d) (a) (b) ⟨true, (fo), (ro), bit (bitN ze), (ma), bit (bitN co), bit (bitN f4)⟩ = _
      simp only [bit_bitN, BitVec.ofNat_toNat, BitVec.setWidth_eq], ?_⟩
    show fits [kf 0 2 1, kf 2 6 0x3E, rf 8 9, pf 17 1, pf 18 1, pf 19 3, pf 22 1, pf 23 3, pf 26 6, kf 32 2 0, kf 34 6 0x1e, kf 60 4 11, pf 58 2, pf 52 6, pf 46 6, pf 40 6] [bitN f4, bitN co, ma, bitN ze, ro, fo, w, d, a, b] = true
    have b_co := bitN_lt co
    have b_f4 := bitN_lt f4
    have b_ze := bitN_lt ze
    simp only [fits_par, fits_key, fits_rf, fits_cf, fits_zf, fits_nil, Bool.and_eq_true, decide_eq_true_eq, Bool.and_true]
    omega
  | false =>
    obtain ⟨_, _, _, hn⟩ := hp
    obtain ⟨rfl, rfl, rfl, rfl, rfl, rfl⟩ : fo = 0 ∧ ro = 0 ∧ ze = false ∧ ma = 0 ∧ co = false ∧ f4 = false := by
      simpa [Pfx.none] using hn rfl
    refine ⟨_, rfl, rfl, ?_⟩
    show fits [kf 0 2 0, kf 2 6 0x1e, kf 28 4 11, pf 26 2, pf 20 6, pf 14 6, pf 8 6] [w, d, a, b] = true
    simp only [fits_par, fits_key, fits_rf, fits_cf, fits_zf, fits_nil, Bool.and_eq_true, decide_eq_true_eq, Bool.and_true]
    omega

theorem Shape.vsra (w : Nat) (d : Nat) (a : Nat) (b : Nat) (p : Pfx) : Shape.Statement (.vsra w d a b p) := by
  intro h hf _
  have hf : ckN 3 w (26 + p.shift) ++ ckV h d (20 + p.shift) ++ ckV h a (14 + p.shift) ++ ckV h b (8 + p.shift) ++ p.plain h = [] := hf
  simp only [List.append_eq_nil_iff] at hf
  have e0 := (ckN_nil ..).1 hf.1.1.1.1
  have e1 := (ckV_nil ..).1 hf.1.1.1.2
  have e2 := (ckV_nil ..).1 hf.1.1.2
  have e3 := (ckV_nil ..).1 hf.1.2
  have hp := plain_fits hf.2
  have l416 := lim_le h 4 16 (by decide)
  simp only [pfxFits] at hp
  obtain ⟨pr, fo, ro, ze, ma, co, f4⟩ := p
  dsimp only at hp
  cases pr with
  | true =>
    refine ⟨_, rfl, by
      show Instr.vsra (w) (d) (a) (b) ⟨true, (fo), (ro), bit (bitN ze), (ma), bit (bitN co), bit (bitN f4)⟩ = _
      simp only [bit_bitN, BitVec.ofNat_toNat, BitVec.setWidth_eq], ?_⟩
    show fits [kf 0 2 1, kf 2 6 0x3E, rf 8 9, pf 17 1, pf 18 1, pf 19 3, pf 22 1, pf 23 3, pf 26 6, kf 32 2 0, kf 34 6 0x1e, kf 60 4 12, pf 58 2, pf 52 6, pf 46 6, pf 40 6] [bitN f4, bitN co, ma, bitN ze, ro, fo, w, d, a, b] = true
    have b_co := bitN_lt co
    have b_f4 := bitN_lt f4
    have b_ze := bitN_lt ze
    simp only [fits_par, fits_key, fits_rf, fits_cf, fits_zf, fits_nil, Bool.and_eq_true, decide_eq_true_eq, Bool.and_true]
    omega
  | false =>
    obtain ⟨_, _, _, hn⟩ := hp
    obtain ⟨rfl, rfl, rfl, rfl, rfl, rfl⟩ : fo = 0 ∧ ro = 0 ∧ ze = false ∧ ma = 0 ∧ co = false ∧ f4 = false := by
      simpa [Pfx.none] using hn rfl
    refine ⟨_, rfl, rfl, ?_⟩
    show fits [kf 0 2 0, kf 2 6 0x1e, kf 28 4 12, pf 26 2, pf 20 6, pf 14 6, pf 8 6] [w, d, a, b] = true
    simp only [fits_par, fits_key, fits_rf, fits_cf, fits_zf, fits_nil, Bool.and_eq_true, decide_eq_true_eq, Bool.and_true]
    omega

theorem Shape.vaddsI (w : Nat) (d : Nat) (a : Nat) (b : Nat) (p : Pfx) : Shape.Statement (.vaddsI w d a b p) := by
  intro h hf _
  have hf : ckN 3 w (26 + p.shift) ++ ckV h d (20 + p.shift) ++ ckV h a (14 + p.shift) ++ ckV h b (8 + p.shift) ++ p.plain h = [] := hf
  simp only [List.append_eq_nil_iff] at hf
  have e0 := (ckN_nil ..).1 hf.1.1.1.1
  have e1 := (ckV_nil ..).1 hf.1.1.1.2
  have e2 := (ckV_nil ..).1 hf.1.1.2
  have e3 := (ckV_nil ..).1 hf.1.2
  have hp := plain_fits hf.2
  have l416 := lim_le h 4 16 (by decide)
  simp only [pfxFits] at hp
  obtain ⟨pr, fo, ro, ze, ma, co, f4⟩ := p
  dsimp only at hp
  cases pr with
  | true =>
    refine ⟨_, rfl, by
      show Instr.vaddsI (w) (d) (a) (b) ⟨true, (fo), (ro), bit (bitN ze), (ma), bit (bitN co), bit (bitN f4)⟩ = _
      simp only [bit_bitN, BitVec.ofNat_toNat, BitVec.setWidth_eq], ?_⟩
    show fits [kf 0 2 1, kf 2 6 0x3E, rf 8 9, pf 17 1, pf 18 1, pf 19 3, pf 22 1, pf 23 3, pf 26 6, kf 32 2 0, kf 34 6 0x1e, kf 60 4 13, pf 58 2, pf 52 6, pf 46 6, pf 40 6] [bitN f4, bitN co, ma, bitN ze, ro, fo, w, d, a, b] = true
    have b_co := bitN_lt co
    have b_f4 := bitN_lt f4
    have b_ze := bitN_lt ze
    simp only [fits_par, fits_key, fits_rf, fits_cf, fits_zf, fits_nil, Bool.and_eq_true, decide_eq_true_eq, Bool.and_true]
    omega
  | false =>
    obtain ⟨_, _, _, hn⟩ := hp
    obtain ⟨rfl, rfl, rfl, rfl, rfl, rfl⟩ : fo = 0 ∧ ro = 0 ∧ ze = false ∧ ma = 0 ∧ co = false ∧ f4 = false := by
      simpa [Pfx.none] using hn rfl
    refine ⟨_, rfl, rfl, ?_⟩
    show fits [kf 0 2 0, kf 2 6 0x1e, kf 28 4 13, pf 26 2, pf 20 6, pf 14 6, pf 8 6] [w, d, a, b] = true
    simp only [fits_par, fits_key, fits_rf, fits_cf, fits_zf, fits_nil, Bool.and_eq_true, decide_eq_true_eq, Bool.and_true]
    omega

theorem Shape.vaddsN (w : Nat) (d : Nat) (a : Nat) (b : Nat) (p : Pfx) : Shape.Statement (.vaddsN w d a b p) := by
  intro h hf _
  have hf : ckN 3 w (26 + p.shift) ++ ckV h d (20 + p.shift) ++ ckV h a (14 + p.shift) ++ ckV h b (8 + p.shift) ++ p.plain h = [] := hf
  simp only [List.append_eq_nil_iff] at hf
  have e0 := (ckN_nil ..).1 hf.1.1.1.1
  have e1 := (ckV_nil ..).1 hf.1.1.1.2
  have e2 := (ckV_nil ..).1 hf.1.1.2
  have e3 := (ckV_nil ..).1 hf.1.2
  have hp := plain_fits hf.2
  have l416 := lim_le h 4 16 (by decide)
  simp only [pfxFits] at hp
  obtain ⟨pr, fo, ro, ze, ma, co, f4⟩ := p
  dsimp only at hp
  cases pr with
  | true =>
    refine ⟨_, rfl, by
      show Instr.vaddsN (w) (d) (a) (b) ⟨true, (fo), (ro), bit (bitN ze), (ma), bit (bitN co), bit (bitN f4)⟩ = _
      simp only [bit_bitN, BitVec.ofNat_toNat, BitVec.setWidth_eq], ?_⟩
    show fits [kf 0 2 1, kf 2 6 0x3E, rf 8 9, pf 17 1, pf 18 1, pf 19 3, pf 22 1, pf 23 3, pf 26 6, kf 32 2 0, kf 34 6 0x1e, kf 60 4 14, pf 58 2, pf 52 6, pf 46 6, pf 40 6] [bitN f4, bitN co, ma, bitN ze, ro, fo, w, d, a, b] = true
    have b_co := bitN_lt co
    have b_f4 := bitN_lt f4
    have b_ze := bitN_lt ze
    simp only [fits_par, fits_key, fits_rf, fits_cf, fits_zf, fits_nil, Bool.and_eq_true, decide_eq_true_eq, Bool.and_true]
    omega
  | false =>
    obtain ⟨_, _, _, hn⟩ := hp
    obtain ⟨rfl, rfl, rfl, rfl, rfl, rfl⟩ : fo = 0 ∧ ro = 0 ∧ ze = false ∧ ma = 0 ∧ co = false ∧ f4 = false := by
      simpa [Pfx.none] using hn rfl
    refine ⟨_, rfl, rfl, ?_⟩
    show fits [kf 0 2 0, kf 2 6 0x1e, kf 28 4 14, pf 26 2, pf 20 6, pf 14 6, pf 8 6] [w, d, a, b] = true
    simp only [fits_par, fits_key, fits_rf, fits_cf, fits_zf, fits_nil, Bool.and_eq_true, decide_eq_true_eq, Bool.and_true]
    omega

theorem Shape.vsubsN (w : Nat) (d : Nat) (a : Nat) (b : Nat) (p : Pfx) : Shape.Statement (.vsubsN w d a b p) := by
  intro h hf _
  have hf : ckN 3 w (26 + p.shift) ++ ckV h d (20 + p.shift) ++ ckV h a (14 + p.shift) ++ ckV h b (8 + p.shift) ++ p.plain h = [] := hf
  simp only [List.append_eq_nil_iff] at hf
  have e0 := (ckN_nil ..).1 hf.1.1.1.1
  have e1 := (ckV_nil ..).1 hf.1.1.1.2
  have e2 := (ckV_nil ..).1 hf.1.1.2
  have e3 := (ckV_nil ..).1 hf.1.2
  have hp := plain_fits hf.2
  have l416 := lim_le h 4 16 (by decide)
  simp only [pfxFits] at hp
  obtain ⟨pr, fo, ro, ze, ma, co, f4⟩ := p
  dsimp only at hp
  cases pr with
  | true =>
    refine ⟨_, rfl, by
      show Instr.vsubsN (w) (d) (a) (b) ⟨true, (fo), (ro), bit (bitN ze), (ma), bit (bitN co), bit (bitN f4)⟩ = _
      simp only [bit_bitN, BitVec.ofNat_toNat, BitVec.setWidth_eq], ?_⟩
    show fits [kf 0 2 1, kf 2 6 0x3E, rf 8 9, pf 17 1, pf 18 1, pf 19 3, pf 22 1, pf 23 3, pf 26 6, kf 32 2 0, kf 34 6 0x1e, kf 60 4 15, pf 58 2, pf 52 6, pf 46 6, pf 40 6] [bitN f4, bitN co, ma, bitN ze, ro, fo, w, d, a, b] = true
    have b_co := bitN_lt co
    have b_f4 := bitN_lt f4
    have b_ze := bitN_lt ze
    simp only [fits_par, fits_key, fits_rf, fits_cf, fits_zf, fits_nil, Bool.and_eq_true, decide_eq_true_eq, Bool.and_true]
    omega
  | false =>
    obtain ⟨_, _, _, hn⟩ := hp
    obtain ⟨rfl, rfl, rfl, rfl, rfl, rfl⟩ : fo = 0 ∧ ro = 0 ∧ ze = false ∧ ma = 0 ∧ co = false ∧ f4 = false := by
      simpa [Pfx.none] using hn rfl
    refine ⟨_, rfl, rfl, ?_⟩
    show fits [kf 0 2 0, kf 2 6 0x1e, kf 28 4 15, pf 26 2, pf 20 6, pf 14 6, pf 8 6] [w, d, a, b] = true
    simp only [fits_par, fits_key, fits_rf, fits_cf, fits_zf, fits_nil, Bool.and_eq_true, decide_eq_true_eq, Bool.and_true]
    omega

theorem Shape.vcmpEq (w : Nat) (d : Nat) (a : Nat) (b : Nat) (p : Pfx) : Shape.Statement (.vcmpEq w d a b p) := by
  intro h hf _
  have hf : ckN 3 w (26 + p.shift) ++ ckK h d (20 + p.shift) ++ ckV h a (14 + p.shift) ++ ckV h b (8 + p.shift) ++ p.plain h = [] := hf
  simp only [List.append_eq_nil_iff] at hf
  have e0 := (ckN_nil ..).1 hf.1.1.1.1
  have e1 := (ckK_nil ..).1 hf.1.1.1.2
  have e2 := (ckV_nil ..).1 hf.1.1.2
  have e3 := (ckV_nil ..).1 hf.1.2
  have hp := plain_fits hf.2
  have l416 := lim_le h 4 16 (by decide)
  have l48 := lim_le h 4 8 (by decide)
  simp only [pfxFits] at hp
  obtain ⟨pr, fo, ro, ze, ma, co, f4⟩ := p
  dsimp only at hp
  cases pr with
  | true =>
    refine ⟨_, rfl, by
      show Instr.vcmpEq (w) (d) (a) (b) ⟨true, (fo), (ro), bit (bitN ze), (ma), bit (bitN co), bit (bitN f4)⟩ = _
      simp only [bit_bitN, BitVec.ofNat_toNat, BitVec.setWidth_eq], ?_⟩
    show fits [kf 0 2 1, kf 2 6 0x3E, rf 8 9, pf 17 1, pf 18 1, pf 19 3, pf 22 1, pf 23 3, pf 26 6, kf 32 2 0, kf 34 6 0x1f, kf 60 4 0, pf 58 2, pf 52 6, pf 46 6, pf 40 6] [bitN f4, bitN co, ma, bitN ze, ro, fo, w, d, a, b] = true
    have b_co := bitN_lt co
    have b_f4 := bitN_lt f4
    have b_ze := bitN_lt ze
    simp only [fits_par, fits_key, fits_rf, fits_cf, fits_zf, fits_nil, Bool.and_eq_true, decide_eq_true_eq, Bool.and_true]
    omega
  | false =>
    obtain ⟨_, _, _, hn⟩ := hp
    obtain ⟨rfl, rfl, rfl, rfl, rfl, rfl⟩ : fo = 0 ∧ ro = 0 ∧ ze = false ∧ ma = 0 ∧ co = false ∧ f4 = false := by
      simpa [Pfx.none] using hn rfl
    refine ⟨_, rfl, rfl, ?_⟩
    show fits [kf 0 2 0, kf 2 6 0x1f, kf 28 4 0, pf 26 2, pf 20 6, pf 14 6, pf 8 6] [w, d, a, b] = true
    simp only [fits_par, fits_key, fits_rf, fits_cf, fits_zf, fits_nil, Bool.and_eq_true, decide_eq_true_eq, Bool.and_true]
    omega

theorem Shape.vcmpNe (w : Nat) (d : Nat) (a : Nat) (b : Nat) (p : Pfx) : Shape.Statement (.vcmpNe w d a b p) := by
  intro h hf _
  have hf : ckN 3 w (26 + p.shift) ++ ckK h d (20 + p.shift) ++ ckV h a (14 + p.shift) ++ ckV h b (8 + p.shift) ++ p.plain h = [] := hf
  simp only [List.append_eq_nil_iff] at hf
  have e0 := (ckN_nil ..).1 hf.1.1.1.1
  have e1 := (ckK_nil ..).1 hf.1.1.1.2
  have e2 := (ckV_nil ..).1 hf.1.1.2
  have e3 := (ckV_nil ..).1 hf.1.2
  have hp := plain_fits hf.2
  have l416 := lim_le h 4 16 (by decide)
  have l48 := lim_le h 4 8 (by decide)
  simp only [pfxFits] at hp
  obtain ⟨pr, fo, ro, ze, ma, co, f4⟩ := p
  dsimp only at hp
  cases pr with
  | true =>
    refine ⟨_, rfl, by
      show Instr.vcmpNe (w) (d) (a) (b) ⟨true, (fo), (ro), bit (bitN ze), (ma), bit (bitN co), bit (bitN f4)⟩ = _
      simp only [bit_bitN, BitVec.ofNat_toNat, BitVec.setWidth_eq], ?_⟩
    show fits [kf 0 2 1, kf 2 6 0x3E, rf 8 9, pf 17 1, pf 18 1, pf 19 3, pf 22 1, pf 23 3, pf 26 6, kf 32 2 0, kf 34 6 0x1f, kf 60 4 1, pf 58 2, pf 52 6, pf 46 6, pf 40 6] [bitN f4, bitN co, ma, bitN ze, ro, fo, w, d, a, b] = true
    have b_co := bitN_lt co
    have b_f4 := bitN_lt f4
    have b_ze := bitN_lt ze
    simp only [fits_par, fits_key, fits_rf, fits_cf, fits_zf, fits_nil, Bool.and_eq_true, decide_eq_true_eq, Bool.and_true]
    omega
  | false =>
    obtain ⟨_, _, _, hn⟩ := hp
    obtain ⟨rfl, rfl, rfl, rfl, rfl, rfl⟩ : fo = 0 ∧ ro = 0 ∧ ze = false ∧ ma = 0 ∧ co = false ∧ f4 = false := by
      simpa [Pfx.none] using hn rfl
    refine ⟨_, rfl, rfl, ?_⟩
    show fits [kf 0 2 0, kf 2 6 0x1f, kf 28 4 1, pf 26 2, pf 20 6, pf 14 6, pf 8 6] [w, d, a, b] = true
    simp only [fits_par, fits_key, fits_rf, fits_cf, fits_zf, fits_nil, Bool.and_eq_true, decide_eq_true_eq, Bool.and_true]
    omega

theorem Shape.vcmpLtI (w : Nat) (d : Nat) (a : Nat) (b : Nat) (p : Pfx) : Shape.Statement (.vcmpLtI w d a b p) := by
  intro h hf _
  have hf : ckN 3 w (26 + p.shift) ++ ckK h d (20 + p.shift) ++ ckV h a (14 + p.shift) ++ ckV h b (8 + p.shift) ++ p.plain h = [] := hf
  simp only [List.append_eq_nil_iff] at hf
  have e0 := (ckN_nil ..).1 hf.1.1.1.1
  have e1 := (ckK_nil ..).1 hf.1.1.1.2
  have e2 := (ckV_nil ..).1 hf.1.1.2
  have e3 := (ckV_nil ..).1 hf.1.2
  have hp := plain_fits hf.2
  have l416 := lim_le h 4 16 (by decide)
  have l48 := lim_le h 4 8 (by decide)
  simp only [pfxFits] at hp
  obtain ⟨pr, fo, ro, ze, ma, co, f4⟩ := p
  dsimp only at hp
  cases pr with
  | true =>
    refine ⟨_, rfl, by
      show Instr.vcmpLtI (w) (d) (a) (b) ⟨true, (fo), (ro), bit (bitN ze), (ma), bit (bitN co), bit (bitN f4)⟩ = _
      simp only [bit_bitN, BitVec.ofNat_toNat, BitVec.setWidth_eq], ?_⟩
    show fits [kf 0 2 1, kf 2 6 0x3E, rf 8 9, pf 17 1, pf 18 1, pf 19 3, pf 22 1, pf 23 3, pf 26 6, kf 32 2 0, kf 34 6 0x1f, kf 60 4 2, pf 58 2, pf 52 6, pf 46 6, pf 40 6] [bitN f4, bitN co, ma, bitN ze, ro, fo, w, d, a, b] = true
    have b_co := bitN_lt co
    have b_f4 := bitN_lt f4
    have b_ze := bitN_lt ze
    simp only [fits_par, fits_key, fits_rf, fits_cf, fits_zf, fits_nil, Bool.and_eq_true, decide_eq_true_eq, Bool.and_true]
    omega
  | false =>
    obtain ⟨_, _, _, hn⟩ := hp
    obtain ⟨rfl, rfl, rfl, rfl, rfl, rfl⟩ : fo = 0 ∧ ro = 0 ∧ ze = false ∧ ma = 0 ∧ co = false ∧ f4 = false := by
      simpa [Pfx.none] using hn rfl
    refine ⟨_, rfl, rfl, ?_⟩
    show fits [kf 0 2 0, kf 2 6 0x1f, kf 28 4 2, pf 26 2, pf 20 6, pf 14 6, pf 8 6] [w, d, a, b] = true
    simp only [fits_par, fits_key, fits_rf, fits_cf, fits_zf, fits_nil, Bool.and_eq_true, decide_eq_true_eq, Bool.and_true]
    omega

theorem Shape.vcmpLtN (w : Nat) (d : Nat) (a : Nat) (b : Nat) (p : Pfx) : Shape.Statement (.vcmpLtN w d a b p) := by
  intro h hf _
  have hf : ckN 3 w (26 + p.shift) ++ ckK h d (20 + p.shift) ++ ckV h a (14 + p.shift) ++ ckV h b (8 + p.shift) ++ p.plain h = [] := hf
  simp only [List.append_eq_nil_iff] at hf
  have e0 := (ckN_nil ..).1 hf.1.1.1.1
  have e1 := (ckK_nil ..).1 hf.1.1.1.2
  have e2 := (ckV_nil ..).1 hf.1.1.2
  have e3 := (ckV_nil ..).1 hf.1.2
  have hp := plain_fits hf.2
  have l416 := lim_le h 4 16 (by decide)
  have l48 := lim_le h 4 8 (by decide)
  simp only [pfxFits] at hp
  obtain ⟨pr, fo, ro, ze, ma, co, f4⟩ := p
  dsimp only at hp
  cases pr with
  | true =>
    refine ⟨_, rfl, by
      show Instr.vcmpLtN (w) (d) (a) (b) ⟨true, (fo), (ro), bit (bitN ze), (ma), bit (bitN co), bit (bitN f4)⟩ = _
      simp only [bit_bitN, BitVec.ofNat_toNat, BitVec.setWidth_eq], ?_⟩
    show fits [kf 0 2 1, kf 2 6 0x3E, rf 8 9, pf 17 1, pf 18 1, pf 19 3, pf 22 1, pf 23 3, pf 26 6, kf 32 2 0, kf 34 6 0x1f, kf 60 4 3, pf 58 2, pf 52 6, pf 46 6, pf 40 6] [bitN f4, bitN co, ma, bitN ze, ro, fo, w, d, a, b] = true
    have b_co := bitN_lt co
    have b_f4 := bitN_lt f4
    have b_ze := bitN_lt ze
    simp only [fits_par, fits_key, fits_rf, fits_cf, fits_zf, fits_nil, Bool.and_eq_true, decide_eq_true_eq, Bool.and_true]
    omega
  | false =>
    obtain ⟨_, _, _, hn⟩ := hp
    obtain ⟨rfl, rfl, rfl, rfl, rfl, rfl⟩ : fo = 0 ∧ ro = 0 ∧ ze = false ∧ ma = 0 ∧ co = false ∧ f4 = false := by
      simpa [Pfx.none] using hn rfl
    refine ⟨_, rfl, rfl, ?_⟩
    show fits [kf 0 2 0, kf 2 6 0x1f, kf 28 4 3, pf 26 2, pf 20 6, pf 14 6, pf 8 6] [w, d, a, b] = true
    simp only [fits_par, fits_key, fits_rf, fits_cf, fits_zf, fits_nil, Bool.and_eq_true, decide_eq_true_eq, Bool.and_true]
    omega

theorem Shape.vcmpGeI (w : Nat) (d : Nat) (a : Nat) (b : Nat) (p : Pfx) : Shape.Statement (.vcmpGeI w d a b p) := by
  intro h hf _
  have hf : ckN 3 w (26 + p.shift) ++ ckK h d (20 + p.shift) ++ ckV h a (14 + p.shift) ++ ckV h b (8 + p.shift) ++ p.plain h = [] := hf
  simp only [List.append_eq_nil_iff] at hf
  have e0 := (ckN_nil ..).1 hf.1.1.1.1
  have e1 := (ckK_nil ..).1 hf.1.1.1.2
  have e2 := (ckV_nil ..).1 hf.1.1.2
  have e3 := (ckV_nil ..).1 hf.1.2
  have hp := plain_fits hf.2
  have l416 := lim_le h 4 16 (by decide)
  have l48 := lim_le h 4 8 (by decide)
  simp only [pfxFits] at hp
  obtain ⟨pr, fo, ro, ze, ma, co, f4⟩ := p
  dsimp only at hp
  cases pr with
  | true =>
    refine ⟨_, rfl, by
      show Instr.vcmpGeI (w) (d) (a) (b) ⟨true, (fo), (ro), bit (bitN ze), (ma), bit (bitN co), bit (bitN f4)⟩ = _
      simp only [bit_bitN, BitVec.ofNat_toNat, BitVec.setWidth_eq], ?_⟩
    show fits [kf 0 2 1, kf 2 6 0x3E, rf 8 9, pf 17 1, pf 18 1, pf 19 3, pf 22 1, pf 23 3, pf 26 6, kf 32 2 0, kf 34 6 0x1f, kf 60 4 4, pf 58 2, pf 52 6, pf 46 6, pf 40 6] [bitN f4, bitN co, ma, bitN ze, ro, fo, w, d, a, b] = true
    have b_co := bitN_lt co
    have b_f4 := bitN_lt f4
    have b_ze := bitN_lt ze
    simp only [fits_par, fits_key, fits_rf, fits_cf, fits_zf, fits_nil, Bool.and_eq_true, decide_eq_true_eq, Bool.and_true]
    omega
  | false =>
    obtain ⟨_, _, _, hn⟩ := hp
    obtain ⟨rfl, rfl, rfl, rfl, rfl, rfl⟩ : fo = 0 ∧ ro = 0 ∧ ze = false ∧ ma = 0 ∧ co = false ∧ f4 = false := by
      simpa [Pfx.none] using hn rfl
    refine ⟨_, rfl, rfl, ?_⟩
    show fits [kf 0 2 0, kf 2 6 0x1f, kf 28 4 4, pf 26 2, pf 20 6, pf 14 6, pf 8 6] [w, d, a, b] = true
    simp only [fits_par, fits_key, fits_rf, fits_cf, fits_zf, fits_nil, Bool.and_eq_true, decide_eq_true_eq, Bool.and_true]
    omega

theorem Shape.vcmpGeN (w : Nat) (d : Nat) (a : Nat) (b : Nat) (p : Pfx) : Shape.Statement (.vcmpGeN w d a b p) := by
  intro h hf _
  have hf : ckN 3 w (26 + p.shift) ++ ckK h d (20 + p.shift) ++ ckV h a (14 + p.shift) ++ ckV h b (8 + p.shift) ++ p.plain h = [] := hf
  simp only [List.append_eq_nil_iff] at hf
  have e0 := (ckN_nil ..).1 hf.1.1.1.1
  have e1 := (ckK_nil ..).1 hf.1.1.1.2
  have e2 := (ckV_nil ..).1 hf.1.1.2
  have e3 := (ckV_nil ..).1 hf.1.2
  have hp := plain_fits hf.2
  have l416 := lim_le h 4 16 (by decide)
  have l48 := lim_le h 4 8 (by decide)
  simp only [pfxFits] at hp
  obtain ⟨pr, fo, ro, ze, ma, co, f4⟩ := p
  dsimp only at hp
  cases pr with
  | true =>
    refine ⟨_, rfl, by
      show Instr.vcmpGeN (w) (d) (a) (b) ⟨true, (fo), (ro), bit (bitN ze), (ma), bit (bitN co), bit (bitN f4)⟩ = _
      simp only [bit_bitN, BitVec.ofNat_toNat, BitVec.setWidth_eq], ?_⟩
    show fits [kf 0 2 1, kf 2 6 0x3E, rf 8 9, pf 17 1, pf 18 1, pf 19 3, pf 22 1, pf 23 3, pf 26 6, kf 32 2 0, kf 34 6 0x1f, kf 60 4 5, pf 58 2, pf 52 6, pf 46 6, pf 40 6] [bitN f4, bitN co, ma, bitN ze, ro, fo, w, d, a, b] = true
    have b_co := bitN_lt co
    have b_f4 := bitN_lt f4
    have b_ze := bitN_lt ze
    simp only [fits_par, fits_key, fits_rf, fits_cf, fits_zf, fits_nil, Bool.and_eq_true, decide_eq_true_eq, Bool.and_true]
    omega
  | false =>
    obtain ⟨_, _, _, hn⟩ := hp
    obtain ⟨rfl, rfl, rfl, rfl, rfl, rfl⟩ : fo = 0 ∧ ro = 0 ∧ ze = false ∧ ma = 0 ∧ co = false ∧ f4 = false := by
      simpa [Pfx.none] using hn rfl
    refine ⟨_, rfl, rfl, ?_⟩
    show fits [kf 0 2 0, kf 2 6 0x1f, kf 28 4 5, pf 26 2, pf 20 6, pf 14 6, pf 8 6] [w, d, a, b] = true
    simp only [fits_par, fits_key, fits_rf, fits_cf, fits_zf, fits_nil, Bool.and_eq_true, decide_eq_true_eq, Bool.and_true]
    omega

theorem Shape.vcmpFeq (d : Nat) (a : Nat) (b : Nat) (p : Pfx) : Shape.Statement (.vcmpFeq d a b p) := by
  intro h hf _
  have hf : ckK h d (20 + p.shift) ++ ckV h a (14 + p.shift) ++ ckV h b (8 + p.shift) ++ p.plain h = [] := hf
  simp only [List.append_eq_nil_iff] at hf
  have e0 := (ckK_nil ..).1 hf.1.1.1
  have e1 := (ckV_nil ..).1 hf.1.1.2
  have e2 := (ckV_nil ..).1 hf.1.2
  have hp := plain_fits hf.2
  have l416 := lim_le h 4 16 (by decide)
  have l48 := lim_le h 4 8 (by decide)
  simp only [pfxFits] at hp
  obtain ⟨pr, fo, ro, ze, ma, co, f4⟩ := p
  dsimp only at hp
  cases pr with
  | true =>
    refine ⟨_, rfl, by
      show Instr.vcmpFeq (d) (a) (b) ⟨true, (fo), (ro), bit (bitN ze), (ma), bit (bitN co), bit (bitN f4)⟩ = _
      simp only [bit_bitN, BitVec.ofNat_toNat, BitVec.setWidth_eq], ?_⟩
    show fits [kf 0 2 1, kf 2 6 0x3E, rf 8 9, pf 17 1, pf 18 1, pf 19 3, pf 22 1, pf 23 3, pf 26 6, kf 32 2 0, kf 34 6 0x1f, kf 60 4 6, cf 58 2 2, pf 52 6, pf 46 6, pf 40 6] [bitN f4, bitN co, ma, bitN ze, ro, fo, d, a, b] = true
    have b_co := bitN_lt co
    have b_f4 := bitN_lt f4
    have b_ze := bitN_lt ze
    simp only [fits_par, fits_key, fits_rf, fits_cf, fits_zf, fits_nil, Bool.and_eq_true, decide_eq_true_eq, Bool.and_true]
    omega
  | false =>
    obtain ⟨_, _, _, hn⟩ := hp
    obtain ⟨rfl, rfl, rfl, rfl, rfl, rfl⟩ : fo = 0 ∧ ro = 0 ∧ ze = false ∧ ma = 0 ∧ co = false ∧ f4 = false := by
      simpa [Pfx.none] using hn rfl
    refine ⟨_, rfl, rfl, ?_⟩
    show fits [kf 0 2 0, kf 2 6 0x1f, kf 28 4 6, cf 26 2 2, pf 20 6, pf 14 6, pf 8 6] [d, a, b] = true
    simp only [fits_par, fits_key, fits_rf, fits_cf, fits_zf, fits_nil, Bool.and_eq_true, decide_eq_true_eq, Bool.and_true]
    omega

theorem Shape.vcmpFne (d : Nat) (a : Nat) (b : Nat) (p : Pfx) : Shape.Statement (.vcmpFne d a b p) := by
  intro h hf _
  have hf : ckK h d (20 + p.shift) ++ ckV h a (14 + p.shift) ++ ckV h b (8 + p.shift) ++ p.plain h = [] := hf
  simp only [List.append_eq_nil_iff] at hf
  have e0 := (ckK_nil ..).1 hf.1.1.1
  have e1 := (ckV_nil ..).1 hf.1.1.2
  have e2 := (ckV_nil ..).1 hf.1.2
  have hp := plain_fits hf.2
  have l416 := lim_le h 4 16 (by decide)
  have l48 := lim_le h 4 8 (by decide)
  simp only [pfxFits] at hp
  obtain ⟨pr, fo, ro, ze, ma, co, f4⟩ := p
  dsimp only at hp
  cases pr with
  | true =>
    refine ⟨_, rfl, by
      show Instr.vcmpFne (d) (a) (b) ⟨true, (fo), (ro), bit (bitN ze), (ma), bit (bitN co), bit (bitN f4)⟩ = _
      simp only [bit_bitN, BitVec.ofNat_toNat, BitVec.setWidth_eq], ?_⟩
    show fits [kf 0 2 1, kf 2 6 0x3E, rf 8 9, pf 17 1, pf 18 1, pf 19 3, pf 22 1, pf 23 3, pf 26 6, kf 32 2 0, kf 34 6 0x1f, kf 60 4 7, cf 58 2 2, pf 52 6, pf 46 6, pf 40 6] [bitN f4, bitN co, ma, bitN ze, ro, fo, d, a, b] = true
    have b_co := bitN_lt co
    have b_f4 := bitN_lt f4
    have b_ze := bitN_lt ze
    simp only [fits_par, fits_key, fits_rf, fits_cf, fits_zf, fits_nil, Bool.and_eq_true, decide_eq_true_eq, Bool.and_true]
    omega
  | false =>
    obtain ⟨_, _, _, hn⟩ := hp
    obtain ⟨rfl, rfl, rfl, rfl, rfl, rfl⟩ : fo = 0 ∧ ro = 0 ∧ ze = false ∧ ma = 0 ∧ co = false ∧ f4 = false := by
      simpa [Pfx.none] using hn rfl
    refine ⟨_, rfl, rfl, ?_⟩
    show fits [kf 0 2 0, kf 2 6 0x1f, kf 28 4 7, cf 26 2 2, pf 20 6, pf 14 6, pf 8 6] [d, a, b] = true
    simp only [fits_par, fits_key, fits_rf, fits_cf, fits_zf, fits_nil, Bool.and_eq_true, decide_eq_true_eq, Bool.and_true]
    omega

theorem Shape.vcmpFlt (d : Nat) (a : Nat) (b : Nat) (p : Pfx) : Shape.Statement (.vcmpFlt d a b p) := by
  intro h hf _
  have hf : ckK h d (20 + p.shift) ++ ckV h a (14 + p.shift) ++ ckV h b (8 + p.shift) ++ p.plain h = [] := hf
  simp only [List.append_eq_nil_iff] at hf
  have e0 := (ckK_nil ..).1 hf.1.1.1
  have e1 := (ckV_nil ..).1 hf.1.1.2
  have e2 := (ckV_nil ..).1 hf.1.2
  have hp := plain_fits hf.2
  have l416 := lim_le h 4 16 (by decide)
  have l48 := lim_le h 4 8 (by decide)
  simp only [pfxFits] at hp
  obtain ⟨pr, fo, ro, ze, ma, co, f4⟩ := p
  dsimp only at hp
  cases pr with
  | true =>
    refine ⟨_, rfl, by
      show Instr.vcmpFlt (d) (a) (b) ⟨true, (fo), (ro), bit (bitN ze), (ma), bit (bitN co), bit (bitN f4)⟩ = _
      simp only [bit_bitN, BitVec.ofNat_toNat, BitVec.setWidth_eq], ?_⟩
    show fits [kf 0 2 1, kf 2 6 0x3E, rf 8 9, pf 17 1, pf 18 1, pf 19 3, pf 22 1, pf 23 3, pf 26 6, kf 32 2 0, kf 34 6 0x1f, kf 60 4 8, cf 58 2 2, pf 52 6, pf 46 6, pf 40 6] [bitN f4, bitN co, ma, bitN ze, ro, fo, d, a, b] = true
    have b_co := bitN_lt co
    have b_f4 := bitN_lt f4
    have b_ze := bitN_lt ze
    simp only [fits_par, fits_key, fits_rf, fits_cf, fits_zf, fits_nil, Bool.and_eq_true, decide_eq_true_eq, Bool.and_true]
    omega
  | false =>
    obtain ⟨_, _, _, hn⟩ := hp
    obtain ⟨rfl, rfl, rfl, rfl, rfl, rfl⟩ : fo = 0 ∧ ro = 0 ∧ ze = false ∧ ma = 0 ∧ co = false ∧ f4 = false := by
      simpa [Pfx.none] using hn rfl
    refine ⟨_, rfl, rfl, ?_⟩
    show fits [kf 0 2 0, kf 2 6 0x1f, kf 28 4 8, cf 26 2 2, pf 20 6, pf 14 6, pf 8 6] [d, a, b] = true
    simp only [fits_par, fits_key, fits_rf, fits_cf, fits_zf, fits_nil, Bool.and_eq_true, decide_eq_true_eq, Bool.and_true]
    omega

theorem Shape.vcmpFle (d : Nat) (a : Nat) (b : Nat) (p : Pfx) : Shape.Statement (.vcmpFle d a b p) := by
  intro h hf _
  have hf : ckK h d (20 + p.shift) ++ ckV h a (14 + p.shift) ++ ckV h b (8 + p.shift) ++ p.plain h = [] := hf
  simp only [List.append_eq_nil_iff] at hf
  have e0 := (ckK_nil ..).1 hf.1.1.1
  have e1 := (ckV_nil ..).1 hf.1.1.2
  have e2 := (ckV_nil ..).1 hf.1.2
  have hp := plain_fits hf.2
  have l416 := lim_le h 4 16 (by decide)
  have l48 := lim_le h 4 8 (by decide)
  simp only [pfxFits] at hp
  obtain ⟨pr, fo, ro, ze, ma, co, f4⟩ := p
  dsimp only at hp
  cases pr with
  | true =>
    refine ⟨_, rfl, by
      show Instr.vcmpFle (d) (a) (b) ⟨true, (fo), (ro), bit (bitN ze), (ma), bit (bitN co), bit (bitN f4)⟩ = _
      simp only [bit_bitN, BitVec.ofNat_toNat, BitVec.setWidth_eq], ?_⟩
    show fits [kf 0 2 1, kf 2 6 0x3E, rf 8 9, pf 17 1, pf 18 1, pf 19 3, pf 22 1, pf 23 3, pf 26 6, kf 32 2 0, kf 34 6 0x1f, kf 60 4 9, cf 58 2 2, pf 52 6, pf 46 6, pf 40 6] [bitN f4, bitN co, ma, bitN ze, ro, fo, d, a, b] = true
    have b_co := bitN_lt co
    have b_f4 := bitN_lt f4
    have b_ze := bitN_lt ze
    simp only [fits_par, fits_key, fits_rf, fits_cf, fits_zf, fits_nil, Bool.and_eq_true, decide_eq_true_eq, Bool.and_true]
    omega
  | false =>
    obtain ⟨_, _, _, hn⟩ := hp
    obtain ⟨rfl, rfl, rfl, rfl, rfl, rfl⟩ : fo = 0 ∧ ro = 0 ∧ ze = false ∧ ma = 0 ∧ co = false ∧ f4 = false := by
      simpa [Pfx.none] using hn rfl
    refine ⟨_, rfl, rfl, ?_⟩
    show fits [kf 0 2 0, kf 2 6 0x1f, kf 28 4 9, cf 26 2 2, pf 20 6, pf 14 6, pf 8 6] [d, a, b] = true
    simp only [fits_par, fits_key, fits_rf, fits_cf, fits_zf, fits_nil, Bool.and_eq_true, decide_eq_true_eq, Bool.and_true]
    omega

theorem Shape.vcmpFun (d : Nat) (a : Nat) (b : Nat) (p : Pfx) : Shape.Statement (.vcmpFun d a b p) := by
  intro h hf _
  have hf : ckK h d (20 + p.shift) ++ ckV h a (14 + p.shift) ++ ckV h b (8 + p.shift) ++ p.plain h = [] := hf
  simp only [List.append_eq_nil_iff] at hf
  have e0 := (ckK_nil ..).1 hf.1.1.1
  have e1 := (ckV_nil ..).1 hf.1.1.2
  have e2 := (ckV_nil ..).1 hf.1.2
  have hp := plain_fits hf.2
  have l416 := lim_le h 4 16 (by decide)
  have l48 := lim_le h 4 8 (by decide)
  simp only [pfxFits] at hp
  obtain ⟨pr, fo, ro, ze, ma, co, f4⟩ := p
  dsimp only at hp
  cases pr with
  | true =>
    refine ⟨_, rfl, by
      show Instr.vcmpFun (d) (a) (b) ⟨true, (fo), (ro), bit (bitN ze), (ma), bit (bitN co), bit (bitN f4)⟩ = _
      simp only [bit_bitN, BitVec.ofNat_toNat, BitVec.setWidth_eq], ?_⟩
    show fits [kf 0 2 1, kf 2 6 0x3E, rf 8 9, pf 17 1, pf 18 1, pf 19 3, pf 22 1, pf 23 3, pf 26 6, kf 32 2 0, kf 34 6 0x1f, kf 60 4 10, cf 58 2 2, pf 52 6, pf 46 6, pf 40 6] [bitN f4, bitN co, ma, bitN ze, ro, fo, d, a, b] = true
    have b_co := bitN_lt co
    have b_f4 := bitN_lt f4
    have b_ze := bitN_lt ze
    simp only [fits_par, fits_key, fits_rf, fits_cf, fits_zf, fits_nil, Bool.and_eq_true, decide_eq_true_eq, Bool.and_true]
    omega
  | false =>
    obtain ⟨_, _, _, hn⟩ := hp
    obtain ⟨rfl, rfl, rfl, rfl, rfl, rfl⟩ : fo = 0 ∧ ro = 0 ∧ ze = false ∧ ma = 0 ∧ co = false ∧ f4 = false := by
      simpa [Pfx.none] using hn rfl
    refine ⟨_, rfl, rfl, ?_⟩
    show fits [kf 0 2 0, kf 2 6 0x1f, kf 28 4 10, cf 26 2 2, pf 20 6, pf 14 6, pf 8 6] [d, a, b] = true
    simp only [fits_par, fits_key, fits_rf, fits_cf, fits_zf, fits_nil, Bool.and_eq_true, decide_eq_true_eq, Bool.and_true]
    omega

theorem Shape.vfaddF32 (d : Nat) (a : Nat) (b : Nat) (p : Pfx) : Shape.Statement (.vfaddF32 d a b p) := by
  intro h hf _
  have hf : ckV h d (20 + p.shift) ++ ckV h a (14 + p.shift) ++ ckV h b (8 + p.shift) ++ p.rounding h = [] := hf
  simp only [List.append_eq_nil_iff] at hf
  have e0 := (ckV_nil ..).1 hf.1.1.1
  have e1 := (ckV_nil ..).1 hf.1.1.2
  have e2 := (ckV_nil ..).1 hf.1.2
  have hp := rounding_fits hf.2
  have l416 := lim_le h 4 16 (by decide)
  simp only [pfxFits] at hp
  obtain ⟨pr, fo, ro, ze, ma, co, f4⟩ := p
  dsimp only at hp
  cases pr with
  | true =>
    refine ⟨_, rfl, by
      show Instr.vfaddF32 (d) (a) (b) ⟨true, (fo), (ro), bit (bitN ze), (ma), bit (bitN co), bit (bitN f4)⟩ = _
      simp only [bit_bitN, BitVec.ofNat_toNat, BitVec.setWidth_eq], ?_⟩
    show fits [kf 0 2 1, kf 2 6 0x3E, rf 8 9, pf 17 1, pf 18 1, pf 19 3, pf 22 1, pf 23 3, pf 26 6, kf 32 2 0, kf 34 6 0x20, kf 58 6 0, pf 52 6, pf 46 6, pf 40 6] [bitN f4, bitN co, ma, bitN ze, ro, fo, d, a, b] = true
    have b_co := bitN_lt co
    have b_f4 := bitN_lt f4
    have b_ze := bitN_lt ze
    simp only [fits_par, fits_key, fits_rf, fits_cf, fits_zf, fits_nil, Bool.and_eq_true, decide_eq_true_eq, Bool.and_true]
    omega
  | false =>
    obtain ⟨_, _, _, hn⟩ := hp
    obtain ⟨rfl, rfl, rfl, rfl, rfl, rfl⟩ : fo = 0 ∧ ro = 0 ∧ ze = false ∧ ma = 0 ∧ co = false ∧ f4 = false := by
      simpa [Pfx.none] using hn rfl
    refine ⟨_, rfl, rfl, ?_⟩
    show fits [kf 0 2 0, kf 2 6 0x20, kf 26 6 0, pf 20 6, pf 14 6, pf 8 6] [d, a, b] = true
    simp only [fits_par, fits_key, fits_rf, fits_cf, fits_zf, fits_nil, Bool.and_eq_true, decide_eq_true_eq, Bool.and_true]
    omega

theorem Shape.vfsubF32 (d : Nat) (a : Nat) (b : Nat) (p : Pfx) : Shape.Statement (.vfsubF32 d a b p) := by
  intro h hf _
  have hf : ckV h d (20 + p.shift) ++ ckV h a (14 + p.shift) ++ ckV h b (8 + p.shift) ++ p.rounding h = [] := hf
  simp only [List.append_eq_nil_iff] at hf
  have e0 := (ckV_nil ..).1 hf.1.1.1
  have e1 := (ckV_nil ..).1 hf.1.1.2
  have e2 := (ckV_nil ..).1 hf.1.2
  have hp := rounding_fits hf.2
  have l416 := lim_le h 4 16 (by decide)
  simp only [pfxFits] at hp
  obtain ⟨pr, fo, ro, ze, ma, co, f4⟩ := p
  dsimp only at hp
  cases pr with
  | true =>
    refine ⟨_, rfl, by
      show Instr.vfsubF32 (d) (a) (b) ⟨true, (fo), (ro), bit (bitN ze), (ma), bit (bitN co), bit (bitN f4)⟩ = _
      simp only [bit_bitN, BitVec.ofNat_toNat, BitVec.setWidth_eq], ?_⟩
    show fits [kf 0 2 1, kf 2 6 0x3E, rf 8 9, pf 17 1, pf 18 1, pf 19 3, pf 22 1, pf 23 3, pf 26 6, kf 32 2 0, kf 34 6 0x20, kf 58 6 1, pf 52 6, pf 46 6, pf 40 6] [bitN f4, bitN co, ma, bitN ze, ro, fo, d, a, b] = true
    have b_co := bitN_lt co
    have b_f4 := bitN_lt f4
    have b_ze := bitN_lt ze
    simp only [fits_par, fits_key, fits_rf, fits_cf, fits_zf, fits_nil, Bool.and_eq_true, decide_eq_true_eq, Bool.and_true]
    omega
  | false =>
    obtain ⟨_, _, _, hn⟩ := hp
    obtain ⟨rfl, rfl, rfl, rfl, rfl, rfl⟩ : fo = 0 ∧ ro = 0 ∧ ze = false ∧ ma = 0 ∧ co = false ∧ f4 = false := by
      simpa [Pfx.none] using hn rfl
    refine ⟨_, rfl, rfl, ?_⟩
    show fits [kf 0 2 0, kf 2 6 0x20, kf 26 6 1, pf 20 6, pf 14 6, pf 8 6] [d, a, b] = true
    simp only [fits_par, fits_key, fits_rf, fits_cf, fits_zf, fits_nil, Bool.and_eq_true, decide_eq_true_eq, Bool.and_true]
    omega

theorem Shape.vfmulF32 (d : Nat) (a : Nat) (b : Nat) (p : Pfx) : Shape.Statement (.vfmulF32 d a b p) := by
  intro h hf _
  have hf : ckV h d (20 + p.shift) ++ ckV h a (14 + p.shift) ++ ckV h b (8 + p.shift) ++ p.rounding h = [] := hf
  simp only [List.append_eq_nil_iff] at hf
  have e0 := (ckV_nil ..).1 hf.1.1.1
  have e1 := (ckV_nil ..).1 hf.1.1.2
  have e2 := (ckV_nil ..).1 hf.1.2
  have hp := rounding_fits hf.2
  have l416 := lim_le h 4 16 (by decide)
  simp only [pfxFits] at hp
  obtain ⟨pr, fo, ro, ze, ma, co, f4⟩ := p
  dsimp only at hp
  cases pr with
  | true =>
    refine ⟨_, rfl, by
      show Instr.vfmulF32 (d) (a) (b) ⟨true, (fo), (ro), bit (bitN ze), (ma), bit (bitN co), bit (bitN f4)⟩ = _
      simp only [bit_bitN, BitVec.ofNat_toNat, BitVec.setWidth_eq], ?_⟩
    show fits [kf 0 2 1, kf 2 6 0x3E, rf 8 9, pf 17 1, pf 18 1, pf 19 3, pf 22 1, pf 23 3, pf 26 6, kf 32 2 0, kf 34 6 0x20, kf 58 6 2, pf 52 6, pf 46 6, pf 40 6] [bitN f4, bitN co, ma, bitN ze, ro, fo, d, a, b] = true
    have b_co := bitN_lt co
    have b_f4 := bitN_lt f4
    have b_ze := bitN_lt ze
    simp only [fits_par, fits_key, fits_rf, fits_cf, fits_zf, fits_nil, Bool.and_eq_true, decide_eq_true_eq, Bool.and_true]
    omega
  | false =>
    obtain ⟨_, _, _, hn⟩ := hp
    obtain ⟨rfl, rfl, rfl, rfl, rfl, rfl⟩ : fo = 0 ∧ ro = 0 ∧ ze = false ∧ ma = 0 ∧ co = false ∧ f4 = false := by
      simpa [Pfx.none] using hn rfl
    refine ⟨_, rfl, rfl, ?_⟩
    show fits [kf 0 2 0, kf 2 6 0x20, kf 26 6 2, pf 20 6, pf 14 6, pf 8 6] [d, a, b] = true
    simp only [fits_par, fits_key, fits_rf, fits_cf, fits_zf, fits_nil, Bool.and_eq_true, decide_eq_true_eq, Bool.and_true]
    omega

theorem Shape.vfmaF32 (d : Nat) (a : Nat) (b : Nat) (p : Pfx) : Shape.Statement (.vfmaF32 d a b p) := by
  intro h hf _
  have hf : ckV h d (20 + p.shift) ++ ckV h a (14 + p.shift) ++ ckV h b (8 + p.shift) ++ p.fma h = [] := hf
  simp only [List.append_eq_nil_iff] at hf
  have e0 := (ckV_nil ..).1 hf.1.1.1
  have e1 := (ckV_nil ..).1 hf.1.1.2
  have e2 := (ckV_nil ..).1 hf.1.2
  have hp := fma_fits hf.2
  have l416 := lim_le h 4 16 (by decide)
  simp only [pfxFits] at hp
  obtain ⟨pr, fo, ro, ze, ma, co, f4⟩ := p
  dsimp only at hp
  cases pr with
  | true =>
    refine ⟨_, rfl, by
      show Instr.vfmaF32 (d) (a) (b) ⟨true, (fo), (ro), bit (bitN ze), (ma), bit (bitN co), bit (bitN f4)⟩ = _
      simp only [bit_bitN, BitVec.ofNat_toNat, BitVec.setWidth_eq], ?_⟩
    show fits [kf 0 2 1, kf 2 6 0x3E, rf 8 9, pf 17 1, pf 18 1, pf 19 3, pf 22 1, pf 23 3, pf 26 6, kf 32 2 0, kf 34 6 0x20, kf 58 6 3, pf 52 6, pf 46 6, pf 40 6] [bitN f4, bitN co, ma, bitN ze, ro, fo, d, a, b] = true
    have b_co := bitN_lt co
    have b_f4 := bitN_lt f4
    have b_ze := bitN_lt ze
    simp only [fits_par, fits_key, fits_rf, fits_cf, fits_zf, fits_nil, Bool.and_eq_true, decide_eq_true_eq, Bool.and_true]
    omega
  | false =>
    obtain ⟨_, _, _, hn⟩ := hp
    obtain ⟨rfl, rfl, rfl, rfl, rfl, rfl⟩ : fo = 0 ∧ ro = 0 ∧ ze = false ∧ ma = 0 ∧ co = false ∧ f4 = false := by
      simpa [Pfx.none] using hn rfl
    refine ⟨_, rfl, rfl, ?_⟩
    show fits [kf 0 2 0, kf 2 6 0x20, kf 26 6 3, pf 20 6, pf 14 6, pf 8 6] [d, a, b] = true
    simp only [fits_par, fits_key, fits_rf, fits_cf, fits_zf, fits_nil, Bool.and_eq_true, decide_eq_true_eq, Bool.and_true]
    omega

theorem Shape.vfminF32 (d : Nat) (a : Nat) (b : Nat) (p : Pfx) : Shape.Statement (.vfminF32 d a b p) := by
  intro h hf _
  have hf : ckV h d (20 + p.shift) ++ ckV h a (14 + p.shift) ++ ckV h b (8 + p.shift) ++ p.rounding h = [] := hf
  simp only [List.append_eq_nil_iff] at hf
  have e0 := (ckV_nil ..).1 hf.1.1.1
  have e1 := (ckV_nil ..).1 hf.1.1.2
  have e2 := (ckV_nil ..).1 hf.1.2
  have hp := rounding_fits hf.2
  have l416 := lim_le h 4 16 (by decide)
  simp only [pfxFits] at hp
  obtain ⟨pr, fo, ro, ze, ma, co, f4⟩ := p
  dsimp only at hp
  cases pr with
  | true =>
    refine ⟨_, rfl, by
      show Instr.vfminF32 (d) (a) (b) ⟨true, (fo), (ro), bit (bitN ze), (ma), bit (bitN co), bit (bitN f4)⟩ = _
      simp only [bit_bitN, BitVec.ofNat_toNat, BitVec.setWidth_eq], ?_⟩
    show fits [kf 0 2 1, kf 2 6 0x3E, rf 8 9, pf 17 1, pf 18 1, pf 19 3, pf 22 1, pf 23 3, pf 26 6, kf 32 2 0, kf 34 6 0x20, kf 58 6 4, pf 52 6, pf 46 6, pf 40 6] [bitN f4, bitN co, ma, bitN ze, ro, fo, d, a, b] = true
    have b_co := bitN_lt co
    have b_f4 := bitN_lt f4
    have b_ze := bitN_lt ze
    simp only [fits_par, fits_key, fits_rf, fits_cf, fits_zf, fits_nil, Bool.and_eq_true, decide_eq_true_eq, Bool.and_true]
    omega
  | false =>
    obtain ⟨_, _, _, hn⟩ := hp
    obtain ⟨rfl, rfl, rfl, rfl, rfl, rfl⟩ : fo = 0 ∧ ro = 0 ∧ ze = false ∧ ma = 0 ∧ co = false ∧ f4 = false := by
      simpa [Pfx.none] using hn rfl
    refine ⟨_, rfl, rfl, ?_⟩
    show fits [kf 0 2 0, kf 2 6 0x20, kf 26 6 4, pf 20 6, pf 14 6, pf 8 6] [d, a, b] = true
    simp only [fits_par, fits_key, fits_rf, fits_cf, fits_zf, fits_nil, Bool.and_eq_true, decide_eq_true_eq, Bool.and_true]
    omega

theorem Shape.vfmaxF32 (d : Nat) (a : Nat) (b : Nat) (p : Pfx) : Shape.Statement (.vfmaxF32 d a b p) := by
  intro h hf _
  have hf : ckV h d (20 + p.shift) ++ ckV h a (14 + p.shift) ++ ckV h b (8 + p.shift) ++ p.rounding h = [] := hf
  simp only [List.append_eq_nil_iff] at hf
  have e0 := (ckV_nil ..).1 hf.1.1.1
  have e1 := (ckV_nil ..).1 hf.1.1.2
  have e2 := (ckV_nil ..).1 hf.1.2
  have hp := rounding_fits hf.2
  have l416 := lim_le h 4 16 (by decide)
  simp only [pfxFits] at hp
  obtain ⟨pr, fo, ro, ze, ma, co, f4⟩ := p
  dsimp only at hp
  cases pr with
  | true =>
    refine ⟨_, rfl, by
      show Instr.vfmaxF32 (d) (a) (b) ⟨true, (fo), (ro), bit (bitN ze), (ma), bit (bitN co), bit (bitN f4)⟩ = _
      simp only [bit_bitN, BitVec.ofNat_toNat, BitVec.setWidth_eq], ?_⟩
    show fits [kf 0 2 1, kf 2 6 0x3E, rf 8 9, pf 17 1, pf 18 1, pf 19 3, pf 22 1, pf 23 3, pf 26 6, kf 32 2 0, kf 34 6 0x20, kf 58 6 5, pf 52 6, pf 46 6, pf 40 6] [bitN f4, bitN co, ma, bitN ze, ro, fo, d, a, b] = true
    have b_co := bitN_lt co
    have b_f4 := bitN_lt f4
    have b_ze := bitN_lt ze
    simp only [fits_par, fits_key, fits_rf, fits_cf, fits_zf, fits_nil, Bool.and_eq_true, decide_eq_true_eq, Bool.and_true]
    omega
  | false =>
    obtain ⟨_, _, _, hn⟩ := hp
    obtain ⟨rfl, rfl, rfl, rfl, rfl, rfl⟩ : fo = 0 ∧ ro = 0 ∧ ze = false ∧ ma = 0 ∧ co = false ∧ f4 = false := by
      simpa [Pfx.none] using hn rfl
    refine ⟨_, rfl, rfl, ?_⟩
    show fits [kf 0 2 0, kf 2 6 0x20, kf 26 6 5, pf 20 6, pf 14 6, pf 8 6] [d, a, b] = true
    simp only [fits_par, fits_key, fits_rf, fits_cf, fits_zf, fits_nil, Bool.and_eq_true, decide_eq_true_eq, Bool.and_true]
    omega

theorem Shape.vfabsF32 (d : Nat) (a : Nat) (p : Pfx) : Shape.Statement (.vfabsF32 d a p) := by
  intro h hf _
  have hf : ckV h d (20 + p.shift) ++ ckV h a (14 + p.shift) ++ p.rounding h = [] := hf
  simp only [List.append_eq_nil_iff] at hf
  have e0 := (ckV_nil ..).1 hf.1.1
  have e1 := (ckV_nil ..).1 hf.1.2
  have hp := rounding_fits hf.2
  have l416 := lim_le h 4 16 (by decide)
  simp only [pfxFits] at hp
  obtain ⟨pr, fo, ro, ze, ma, co, f4⟩ := p
  dsimp only at hp
  cases pr with
  | true =>
    refine ⟨_, rfl, by
      show Instr.vfabsF32 (d) (a) ⟨true, (fo), (ro), bit (bitN ze), (ma), bit (bitN co), bit (bitN f4)⟩ = _
      simp only [bit_bitN, BitVec.ofNat_toNat, BitVec.setWidth_eq], ?_⟩
    show fits [kf 0 2 1, kf 2 6 0x3E, rf 8 9, pf 17 1, pf 18 1, pf 19 3, pf 22 1, pf 23 3, pf 26 6, kf 32 2 0, kf 34 6 0x20, kf 58 6 6, pf 52 6, pf 46 6, rf 40 6] [bitN f4, bitN co, ma, bitN ze, ro, fo, d, a] = true
    have b_co := bitN_lt co
    have b_f4 := bitN_lt f4
    have b_ze := bitN_lt ze
    simp only [fits_par, fits_key, fits_rf, fits_cf, fits_zf, fits_nil, Bool.and_eq_true, decide_eq_true_eq, Bool.and_true]
    omega
  | false =>
    obtain ⟨_, _, _, hn⟩ := hp
    obtain ⟨rfl, rfl, rfl, rfl, rfl, rfl⟩ : fo = 0 ∧ ro = 0 ∧ ze = false ∧ ma = 0 ∧ co = false ∧ f4 = false := by
      simpa [Pfx.none] using hn rfl
    refine ⟨_, rfl, rfl, ?_⟩
    show fits [kf 0 2 0, kf 2 6 0x20, kf 26 6 6, pf 20 6, pf 14 6, rf 8 6] [d, a] = true
    simp only [fits_par, fits_key, fits_rf, fits_cf, fits_zf, fits_nil, Bool.and_eq_true, decide_eq_true_eq, Bool.and_true]
    omega

theorem Shape.vfnegF32 (d : Nat) (a : Nat) (p : Pfx) : Shape.Statement (.vfnegF32 d a p) := by
  intro h hf _
  have hf : ckV h d (20 + p.shift) ++ ckV h a (14 + p.shift) ++ p.rounding h = [] := hf
  simp only [List.append_eq_nil_iff] at hf
  have e0 := (ckV_nil ..).1 hf.1.1
  have e1 := (ckV_nil ..).1 hf.1.2
  have hp := rounding_fits hf.2
  have l416 := lim_le h 4 16 (by decide)
  simp only [pfxFits] at hp
  obtain ⟨pr, fo, ro, ze, ma, co, f4⟩ := p
  dsimp only at hp
  cases pr with
  | true =>
    refine ⟨_, rfl, by
      show Instr.vfnegF32 (d) (a) ⟨true, (fo), (ro), bit (bitN ze), (ma), bit (bitN co), bit (bitN f4)⟩ = _
      simp only [bit_bitN, BitVec.ofNat_toNat, BitVec.setWidth_eq], ?_⟩
    show fits [kf 0 2 1, kf 2 6 0x3E, rf 8 9, pf 17 1, pf 18 1, pf 19 3, pf 22 1, pf 23 3, pf 26 6, kf 32 2 0, kf 34 6 0x20, kf 58 6 7, pf 52 6, pf 46 6, rf 40 6] [bitN f4, bitN co, ma, bitN ze, ro, fo, d, a] = true
    have b_co := bitN_lt co
    have b_f4 := bitN_lt f4
    have b_ze := bitN_lt ze
    simp only [fits_par, fits_key, fits_rf, fits_cf, fits_zf, fits_nil, Bool.and_eq_true, decide_eq_true_eq, Bool.and_true]
    omega
  | false =>
    obtain ⟨_, _, _, hn⟩ := hp
    obtain ⟨rfl, rfl, rfl, rfl, rfl, rfl⟩ : fo = 0 ∧ ro = 0 ∧ ze = false ∧ ma = 0 ∧ co = false ∧ f4 = false := by
      simpa [Pfx.none] using hn rfl
    refine ⟨_, rfl, rfl, ?_⟩
    show fits [kf 0 2 0, kf 2 6 0x20, kf 26 6 7, pf 20 6, pf 14 6, rf 8 6] [d, a] = true
    simp only [fits_par, fits_key, fits_rf, fits_cf, fits_zf, fits_nil, Bool.and_eq_true, decide_eq_true_eq, Bool.and_true]
    omega

theorem Shape.vcvtF32I32 (d : Nat) (a : Nat) (p : Pfx) : Shape.Statement (.vcvtF32I32 d a p) := by
  intro h hf _
  have hf : ckV h d (20 + p.shift) ++ ckV h a (14 + p.shift) ++ p.rounding h = [] := hf
  simp only [List.append_eq_nil_iff] at hf
  have e0 := (ckV_nil ..).1 hf.1.1
  have e1 := (ckV_nil ..).1 hf.1.2
  have hp := rounding_fits hf.2
  have l416 := lim_le h 4 16 (by decide)
  simp only [pfxFits] at hp
  obtain ⟨pr, fo, ro, ze, ma, co, f4⟩ := p
  dsimp only at hp
  cases pr with
  | true =>
    refine ⟨_, rfl, by
      show Instr.vcvtF32I32 (d) (a) ⟨true, (fo), (ro), bit (bitN ze), (ma), bit (bitN co), bit (bitN f4)⟩ = _
      simp only [bit_bitN, BitVec.ofNat_toNat, BitVec.setWidth_eq], ?_⟩
    show fits [kf 0 2 1, kf 2 6 0x3E, rf 8 9, pf 17 1, pf 18 1, pf 19 3, pf 22 1, pf 23 3, pf 26 6, kf 32 2 0, kf 34 6 0x20, kf 58 6 8, pf 52 6, pf 46 6, rf 40 6] [bitN f4, bitN co, ma, bitN ze, ro, fo, d, a] = true
    have b_co := bitN_lt co
    have b_f4 := bitN_lt f4
    have b_ze := bitN_lt ze
    simp only [fits_par, fits_key, fits_rf, fits_cf, fits_zf, fits_nil, Bool.and_eq_true, decide_eq_true_eq, Bool.and_true]
    omega
  | false =>
    obtain ⟨_, _, _, hn⟩ := hp
    obtain ⟨rfl, rfl, rfl, rfl, rfl, rfl⟩ : fo = 0 ∧ ro = 0 ∧ ze = false ∧ ma = 0 ∧ co = false ∧ f4 = false := by
      simpa [Pfx.none] using hn rfl
    refine ⟨_, rfl, rfl, ?_⟩
    show fits [kf 0 2 0, kf 2 6 0x20, kf 26 6 8, pf 20 6, pf 14 6, rf 8 6] [d, a] = true
    simp only [fits_par, fits_key, fits_rf, fits_cf, fits_zf, fits_nil, Bool.and_eq_true, decide_eq_true_eq, Bool.and_true]
    omega

theorem Shape.vcvtI32F32 (d : Nat) (a : Nat) (p : Pfx) : Shape.Statement (.vcvtI32F32 d a p) := by
  intro h hf _
  have hf : ckV h d (20 + p.shift) ++ ckV h a (14 + p.shift) ++ p.rounding h = [] := hf
  simp only [List.append_eq_nil_iff] at hf
  have e0 := (ckV_nil ..).1 hf.1.1
  have e1 := (ckV_nil ..).1 hf.1.2
  have hp := rounding_fits hf.2
  have l416 := lim_le h 4 16 (by decide)
  simp only [pfxFits] at hp
  obtain ⟨pr, fo, ro, ze, ma, co, f4⟩ := p
  dsimp only at hp
  cases pr with
  | true =>
    refine ⟨_, rfl, by
      show Instr.vcvtI32F32 (d) (a) ⟨true, (fo), (ro), bit (bitN ze), (ma), bit (bitN co), bit (bitN f4)⟩ = _
      simp only [bit_bitN, BitVec.ofNat_toNat, BitVec.setWidth_eq], ?_⟩
    show fits [kf 0 2 1, kf 2 6 0x3E, rf 8 9, pf 17 1, pf 18 1, pf 19 3, pf 22 1, pf 23 3, pf 26 6, kf 32 2 0, kf 34 6 0x20, kf 58 6 9, pf 52 6, pf 46 6, rf 40 6] [bitN f4, bitN co, ma, bitN ze, ro, fo, d, a] = true
    have b_co := bitN_lt co
    have b_f4 := bitN_lt f4
    have b_ze := bitN_lt ze
    simp only [fits_par, fits_key, fits_rf, fits_cf, fits_zf, fits_nil, Bool.and_eq_true, decide_eq_true_eq, Bool.and_true]
    omega
  | false =>
    obtain ⟨_, _, _, hn⟩ := hp
    obtain ⟨rfl, rfl, rfl, rfl, rfl, rfl⟩ : fo = 0 ∧ ro = 0 ∧ ze = false ∧ ma = 0 ∧ co = false ∧ f4 = false := by
      simpa [Pfx.none] using hn rfl
    refine ⟨_, rfl, rfl, ?_⟩
    show fits [kf 0 2 0, kf 2 6 0x20, kf 26 6 9, pf 20 6, pf 14 6, rf 8 6] [d, a] = true
    simp only [fits_par, fits_key, fits_rf, fits_cf, fits_zf, fits_nil, Bool.and_eq_true, decide_eq_true_eq, Bool.and_true]
    omega

theorem Shape.vcvtF32N32 (d : Nat) (a : Nat) (p : Pfx) : Shape.Statement (.vcvtF32N32 d a p) := by
  intro h hf _
  have hf : ckV h d (20 + p.shift) ++ ckV h a (14 + p.shift) ++ p.rounding h = [] := hf
  simp only [List.append_eq_nil_iff] at hf
  have e0 := (ckV_nil ..).1 hf.1.1
  have e1 := (ckV_nil ..).1 hf.1.2
  have hp := rounding_fits hf.2
  have l416 := lim_le h 4 16 (by decide)
  simp only [pfxFits] at hp
  obtain ⟨pr, fo, ro, ze, ma, co, f4⟩ := p
  dsimp only at hp
  cases pr with
  | true =>
    refine ⟨_, rfl, by
      show Instr.vcvtF32N32 (d) (a) ⟨true, (fo), (ro), bit (bitN ze), (ma), bit (bitN co), bit (bitN f4)⟩ = _
      simp only [bit_bitN, BitVec.ofNat_toNat, BitVec.setWidth_eq], ?_⟩
    show fits [kf 0 2 1, kf 2 6 0x3E, rf 8 9, pf 17 1, pf 18 1, pf 19 3, pf 22 1, pf 23 3, pf 26 6, kf 32 2 0, kf 34 6 0x20, kf 58 6 10, pf 52 6, pf 46 6, rf 40 6] [bitN f4, bitN co, ma, bitN ze, ro, fo, d, a] = true
    have b_co := bitN_lt co
    have b_f4 := bitN_lt f4
    have b_ze := bitN_lt ze
    simp only [fits_par, fits_key, fits_rf, fits_cf, fits_zf, fits_nil, Bool.and_eq_true, decide_eq_true_eq, Bool.and_true]
    omega
  | false =>
    obtain ⟨_, _, _, hn⟩ := hp
    obtain ⟨rfl, rfl, rfl, rfl, rfl, rfl⟩ : fo = 0 ∧ ro = 0 ∧ ze = false ∧ ma = 0 ∧ co = false ∧ f4 = false := by
      simpa [Pfx.none] using hn rfl
    refine ⟨_, rfl, rfl, ?_⟩
    show fits [kf 0 2 0, kf 2 6 0x20, kf 26 6 10, pf 20 6, pf 14 6, rf 8 6] [d, a] = true
    simp only [fits_par, fits_key, fits_rf, fits_cf, fits_zf, fits_nil, Bool.and_eq_true, decide_eq_true_eq, Bool.and_true]
    omega

theorem Shape.vcvtN32F32 (d : Nat) (a : Nat) (p : Pfx) : Shape.Statement (.vcvtN32F32 d a p) := by
  intro h hf _
  have hf : ckV h d (20 + p.shift) ++ ckV h a (14 + p.shift) ++ p.rounding h = [] := hf
  simp only [List.append_eq_nil_iff] at hf
  have e0 := (ckV_nil ..).1 hf.1.1
  have e1 := (ckV_nil ..).1 hf.1.2
  have hp := rounding_fits hf.2
  have l416 := lim_le h 4 16 (by decide)
  simp only [pfxFits] at hp
  obtain ⟨pr, fo, ro, ze, ma, co, f4⟩ := p
  dsimp only at hp
  cases pr with
  | true =>
    refine ⟨_, rfl, by
      show Instr.vcvtN32F32 (d) (a) ⟨true, (fo), (ro), bit (bitN ze), (ma), bit (bitN co), bit (bitN f4)⟩ = _
      simp only [bit_bitN, BitVec.ofNat_toNat, BitVec.setWidth_eq], ?_⟩
    show fits [kf 0 2 1, kf 2 6 0x3E, rf 8 9, pf 17 1, pf 18 1, pf 19 3, pf 22 1, pf 23 3, pf 26 6, kf 32 2 0, kf 34 6 0x20, kf 58 6 11, pf 52 6, pf 46 6, rf 40 6] [bitN f4, bitN co, ma, bitN ze, ro, fo, d, a] = true
    have b_co := bitN_lt co
    have b_f4 := bitN_lt f4
    have b_ze := bitN_lt ze
    simp only [fits_par, fits_key, fits_rf, fits_cf, fits_zf, fits_nil, Bool.and_eq_true, decide_eq_true_eq, Bool.and_true]
    omega
  | false =>
    obtain ⟨_, _, _, hn⟩ := hp
    obtain ⟨rfl, rfl, rfl, rfl, rfl, rfl⟩ : fo = 0 ∧ ro = 0 ∧ ze = false ∧ ma = 0 ∧ co = false ∧ f4 = false := by
      simpa [Pfx.none] using hn rfl
    refine ⟨_, rfl, rfl, ?_⟩
    show fits [kf 0 2 0, kf 2 6 0x20, kf 26 6 11, pf 20 6, pf 14 6, rf 8 6] [d, a] = true
    simp only [fits_par, fits_key, fits_rf, fits_cf, fits_zf, fits_nil, Bool.and_eq_true, decide_eq_true_eq, Bool.and_true]
    omega

theorem Shape.vcvtB16F32 (d : Nat) (a : Nat) (p : Pfx) : Shape.Statement (.vcvtB16F32 d a p) := by
  intro h hf _
  have hf : ckV h d (20 + p.shift) ++ ckV h a (14 + p.shift) ++ p.rounding h = [] := hf
  simp only [List.append_eq_nil_iff] at hf
  have e0 := (ckV_nil ..).1 hf.1.1
  have e1 := (ckV_nil ..).1 hf.1.2
  have hp := rounding_fits hf.2
  have l416 := lim_le h 4 16 (by decide)
  simp only [pfxFits] at hp
  obtain ⟨pr, fo, ro, ze, ma, co, f4⟩ := p
  dsimp only at hp
  cases pr with
  | true =>
    refine ⟨_, rfl, by
      show Instr.vcvtB16F32 (d) (a) ⟨true, (fo), (ro), bit (bitN ze), (ma), bit (bitN co), bit (bitN f4)⟩ = _
      simp only [bit_bitN, BitVec.ofNat_toNat, BitVec.setWidth_eq], ?_⟩
    show fits [kf 0 2 1, kf 2 6 0x3E, rf 8 9, pf 17 1, pf 18 1, pf 19 3, pf 22 1, pf 23 3, pf 26 6, kf 32 2 0, kf 34 6 0x20, kf 58 6 12, pf 52 6, pf 46 6, rf 40 6] [bitN f4, bitN co, ma, bitN ze, ro, fo, d, a] = true
    have b_co := bitN_lt co
    have b_f4 := bitN_lt f4
    have b_ze := bitN_lt ze
    simp only [fits_par, fits_key, fits_rf, fits_cf, fits_zf, fits_nil, Bool.and_eq_true, decide_eq_true_eq, Bool.and_true]
    omega
  | false =>
    obtain ⟨_, _, _, hn⟩ := hp
    obtain ⟨rfl, rfl, rfl, rfl, rfl, rfl⟩ : fo = 0 ∧ ro = 0 ∧ ze = false ∧ ma = 0 ∧ co = false ∧ f4 = false := by
      simpa [Pfx.none] using hn rfl
    refine ⟨_, rfl, rfl, ?_⟩
    show fits [kf 0 2 0, kf 2 6 0x20, kf 26 6 12, pf 20 6, pf 14 6, rf 8 6] [d, a] = true
    simp only [fits_par, fits_key, fits_rf, fits_cf, fits_zf, fits_nil, Bool.and_eq_true, decide_eq_true_eq, Bool.and_true]
    omega

theorem Shape.vcvtF32B16 (d : Nat) (a : Nat) (p : Pfx) : Shape.Statement (.vcvtF32B16 d a p) := by
  intro h hf _
  have hf : ckV h d (20 + p.shift) ++ ckV h a (14 + p.shift) ++ p.rounding h = [] := hf
  simp only [List.append_eq_nil_iff] at hf
  have e0 := (ckV_nil ..).1 hf.1.1
  have e1 := (ckV_nil ..).1 hf.1.2
  have hp := rounding_fits hf.2
  have l416 := lim_le h 4 16 (by decide)
  simp only [pfxFits] at hp
  obtain ⟨pr, fo, ro, ze, ma, co, f4⟩ := p
  dsimp only at hp
  cases pr with
  | true =>
    refine ⟨_, rfl, by
      show Instr.vcvtF32B16 (d) (a) ⟨true, (fo), (ro), bit (bitN ze), (ma), bit (bitN co), bit (bitN f4)⟩ = _
      simp only [bit_bitN, BitVec.ofNat_toNat, BitVec.setWidth_eq], ?_⟩
    show fits [kf 0 2 1, kf 2 6 0x3E, rf 8 9, pf 17 1, pf 18 1, pf 19 3, pf 22 1, pf 23 3, pf 26 6, kf 32 2 0, kf 34 6 0x20, kf 58 6 13, pf 52 6, pf 46 6, rf 40 6] [bitN f4, bitN co, ma, bitN ze, ro, fo, d, a] = true
    have b_co := bitN_lt co
    have b_f4 := bitN_lt f4
    have b_ze := bitN_lt ze
    simp only [fits_par, fits_key, fits_rf, fits_cf, fits_zf, fits_nil, Bool.and_eq_true, decide_eq_true_eq, Bool.and_true]
    omega
  | false =>
    obtain ⟨_, _, _, hn⟩ := hp
    obtain ⟨rfl, rfl, rfl, rfl, rfl, rfl⟩ : fo = 0 ∧ ro = 0 ∧ ze = false ∧ ma = 0 ∧ co = false ∧ f4 = false := by
      simpa [Pfx.none] using hn rfl
    refine ⟨_, rfl, rfl, ?_⟩
    show fits [kf 0 2 0, kf 2 6 0x20, kf 26 6 13, pf 20 6, pf 14 6, rf 8 6] [d, a] = true
    simp only [fits_par, fits_key, fits_rf, fits_cf, fits_zf, fits_nil, Bool.and_eq_true, decide_eq_true_eq, Bool.and_true]
    omega

theorem Shape.vmov (d : Nat) (a : Nat) (p : Pfx) : Shape.Statement (.vmov d a p) := by
  intro h hf _
  have hf : ckV h d (20 + p.shift) ++ ckV h a (14 + p.shift) ++ p.plain h = [] := hf
  simp only [List.append_eq_nil_iff] at hf
  have e0 := (ckV_nil ..).1 hf.1.1
  have e1 := (ckV_nil ..).1 hf.1.2
  have hp := plain_fits hf.2
  have l416 := lim_le h 4 16 (by decide)
  simp only [pfxFits] at hp
  obtain ⟨pr, fo, ro, ze, ma, co, f4⟩ := p
  dsimp only at hp
  cases pr with
  | true =>
    refine ⟨_, rfl, by
      show Instr.vmov (d) (a) ⟨true, (fo), (ro), bit (bitN ze), (ma), bit (bitN co), bit (bitN f4)⟩ = _
      simp only [bit_bitN, BitVec.ofNat_toNat, BitVec.setWidth_eq], ?_⟩
    show fits [kf 0 2 1, kf 2 6 0x3E, rf 8 9, pf 17 1, pf 18 1, pf 19 3, pf 22 1, pf 23 3, pf 26 6, kf 32 2 0, kf 34 6 0x21, kf 58 6 0, pf 52 6, pf 46 6, rf 40 6] [bitN f4, bitN co, ma, bitN ze, ro, fo, d, a] = true
    have b_co := bitN_lt co
    have b_f4 := bitN_lt f4
    have b_ze := bitN_lt ze
    simp only [fits_par, fits_key, fits_rf, fits_cf, fits_zf, fits_nil, Bool.and_eq_true, decide_eq_true_eq, Bool.and_true]
    omega
  | false =>
    obtain ⟨_, _, _, hn⟩ := hp
    obtain ⟨rfl, rfl, rfl, rfl, rfl, rfl⟩ : fo = 0 ∧ ro = 0 ∧ ze = false ∧ ma = 0 ∧ co = false ∧ f4 = false := by
      simpa [Pfx.none] using hn rfl
    refine ⟨_, rfl, rfl, ?_⟩
    show fits [kf 0 2 0, kf 2 6 0x21, kf 26 6 0, pf 20 6, pf 14 6, rf 8 6] [d, a] = true
    simp only [fits_par, fits_key, fits_rf, fits_cf, fits_zf, fits_nil, Bool.and_eq_true, decide_eq_true_eq, Bool.and_true]
    omega

theorem Shape.vsplat (d : Nat) (a : Nat) (b : Nat) (p : Pfx) : Shape.Statement (.vsplat d a b p) := by
  intro h hf _
  have hf : ckV h d (20 + p.shift) ++ ckSs h a (14 + p.shift) ++ ckSs h b (8 + p.shift) ++ p.plain h = [] := hf
  simp only [List.append_eq_nil_iff] at hf
  have e0 := (ckV_nil ..).1 hf.1.1.1
  have e1 := (ckSs_nil ..).1 hf.1.1.2
  have e2 := (ckSs_nil ..).1 hf.1.2
  have hp := plain_fits hf.2
  have l1648 := lim_le h 16 48 (by decide)
  have l416 := lim_le h 4 16 (by decide)
  simp only [pfxFits] at hp
  obtain ⟨pr, fo, ro, ze, ma, co, f4⟩ := p
  dsimp only at hp
  cases pr with
  | true =>
    refine ⟨_, rfl, by
      show Instr.vsplat (d) (a) (b) ⟨true, (fo), (ro), bit (bitN ze), (ma), bit (bitN co), bit (bitN f4)⟩ = _
      simp only [bit_bitN, BitVec.ofNat_toNat, BitVec.setWidth_eq], ?_⟩
    show fits [kf 0 2 1, kf 2 6 0x3E, rf 8 9, pf 17 1, pf 18 1, pf 19 3, pf 22 1, pf 23 3, pf 26 6, kf 32 2 0, kf 34 6 0x21, kf 58 6 1, pf 52 6, pf 46 6, pf 40 6] [bitN f4, bitN co, ma, bitN ze, ro, fo, d, a, b] = true
    have b_co := bitN_lt co
    have b_f4 := bitN_lt f4
    have b_ze := bitN_lt ze
    simp only [fits_par, fits_key, fits_rf, fits_cf, fits_zf, fits_nil, Bool.and_eq_true, decide_eq_true_eq, Bool.and_true]
    omega
  | false =>
    obtain ⟨_, _, _, hn⟩ := hp
    obtain ⟨rfl, rfl, rfl, rfl, rfl, rfl⟩ : fo = 0 ∧ ro = 0 ∧ ze = false ∧ ma = 0 ∧ co = false ∧ f4 = false := by
      simpa [Pfx.none] using hn rfl
    refine ⟨_, rfl, rfl, ?_⟩
    show fits [kf 0 2 0, kf 2 6 0x21, kf 26 6 1, pf 20 6, pf 14 6, pf 8 6] [d, a, b] = true
    simp only [fits_par, fits_key, fits_rf, fits_cf, fits_zf, fits_nil, Bool.and_eq_true, decide_eq_true_eq, Bool.and_true]
    omega

theorem Shape.vrun (d : Nat) (a : Nat) (b : Nat) (p : Pfx) : Shape.Statement (.vrun d a b p) := by
  intro h hf _
  have hf : ckV h d (20 + p.shift) ++ ckSs h a (14 + p.shift) ++ ckSs h b (8 + p.shift) ++ p.k0 h = [] := hf
  simp only [List.append_eq_nil_iff] at hf
  have e0 := (ckV_nil ..).1 hf.1.1.1
  have e1 := (ckSs_nil ..).1 hf.1.1.2
  have e2 := (ckSs_nil ..).1 hf.1.2
  have hp := k0_fits hf.2
  have l1648 := lim_le h 16 48 (by decide)
  have l416 := lim_le h 4 16 (by decide)
  simp only [pfxFits] at hp
  obtain ⟨pr, fo, ro, ze, ma, co, f4⟩ := p
  dsimp only at hp
  cases pr with
  | true =>
    refine ⟨_, rfl, by
      show Instr.vrun (d) (a) (b) ⟨true, (fo), (ro), bit (bitN ze), (ma), bit (bitN co), bit (bitN f4)⟩ = _
      simp only [bit_bitN, BitVec.ofNat_toNat, BitVec.setWidth_eq], ?_⟩
    show fits [kf 0 2 1, kf 2 6 0x3E, rf 8 9, pf 17 1, pf 18 1, pf 19 3, pf 22 1, pf 23 3, pf 26 6, kf 32 2 0, kf 34 6 0x21, kf 58 6 2, pf 52 6, pf 46 6, pf 40 6] [bitN f4, bitN co, ma, bitN ze, ro, fo, d, a, b] = true
    have b_co := bitN_lt co
    have b_f4 := bitN_lt f4
    have b_ze := bitN_lt ze
    simp only [fits_par, fits_key, fits_rf, fits_cf, fits_zf, fits_nil, Bool.and_eq_true, decide_eq_true_eq, Bool.and_true]
    omega
  | false =>
    obtain ⟨_, _, _, hn⟩ := hp
    obtain ⟨rfl, rfl, rfl, rfl, rfl, rfl⟩ : fo = 0 ∧ ro = 0 ∧ ze = false ∧ ma = 0 ∧ co = false ∧ f4 = false := by
      simpa [Pfx.none] using hn rfl
    refine ⟨_, rfl, rfl, ?_⟩
    show fits [kf 0 2 0, kf 2 6 0x21, kf 26 6 2, pf 20 6, pf 14 6, pf 8 6] [d, a, b] = true
    simp only [fits_par, fits_key, fits_rf, fits_cf, fits_zf, fits_nil, Bool.and_eq_true, decide_eq_true_eq, Bool.and_true]
    omega

theorem Shape.vsel (d : Nat) (a : Nat) (b : Nat) (p : Pfx) : Shape.Statement (.vsel d a b p) := by
  intro h hf _
  have hf : ckV h d (20 + p.shift) ++ ckV h a (14 + p.shift) ++ ckV h b (8 + p.shift) ++ p.plain h = [] := hf
  simp only [List.append_eq_nil_iff] at hf
  have e0 := (ckV_nil ..).1 hf.1.1.1
  have e1 := (ckV_nil ..).1 hf.1.1.2
  have e2 := (ckV_nil ..).1 hf.1.2
  have hp := plain_fits hf.2
  have l416 := lim_le h 4 16 (by decide)
  simp only [pfxFits] at hp
  obtain ⟨pr, fo, ro, ze, ma, co, f4⟩ := p
  dsimp only at hp
  cases pr with
  | true =>
    refine ⟨_, rfl, by
      show Instr.vsel (d) (a) (b) ⟨true, (fo), (ro), bit (bitN ze), (ma), bit (bitN co), bit (bitN f4)⟩ = _
      simp only [bit_bitN, BitVec.ofNat_toNat, BitVec.setWidth_eq], ?_⟩
    show fits [kf 0 2 1, kf 2 6 0x3E, rf 8 9, pf 17 1, pf 18 1, pf 19 3, pf 22 1, pf 23 3, pf 26 6, kf 32 2 0, kf 34 6 0x21, kf 58 6 3, pf 52 6, pf 46 6, pf 40 6] [bitN f4, bitN co, ma, bitN ze, ro, fo, d, a, b] = true
    have b_co := bitN_lt co
    have b_f4 := bitN_lt f4
    have b_ze := bitN_lt ze
    simp only [fits_par, fits_key, fits_rf, fits_cf, fits_zf, fits_nil, Bool.and_eq_true, decide_eq_true_eq, Bool.and_true]
    omega
  | false =>
    obtain ⟨_, _, _, hn⟩ := hp
    obtain ⟨rfl, rfl, rfl, rfl, rfl, rfl⟩ : fo = 0 ∧ ro = 0 ∧ ze = false ∧ ma = 0 ∧ co = false ∧ f4 = false := by
      simpa [Pfx.none] using hn rfl
    refine ⟨_, rfl, rfl, ?_⟩
    show fits [kf 0 2 0, kf 2 6 0x21, kf 26 6 3, pf 20 6, pf 14 6, pf 8 6] [d, a, b] = true
    simp only [fits_par, fits_key, fits_rf, fits_cf, fits_zf, fits_nil, Bool.and_eq_true, decide_eq_true_eq, Bool.and_true]
    omega

theorem Shape.vcoal (d : Nat) (a : Nat) (p : Pfx) : Shape.Statement (.vcoal d a p) := by
  intro h hf _
  have hf : ckV h d (20 + p.shift) ++ ckV h a (14 + p.shift) ++ p.k0 h = [] := hf
  simp only [List.append_eq_nil_iff] at hf
  have e0 := (ckV_nil ..).1 hf.1.1
  have e1 := (ckV_nil ..).1 hf.1.2
  have hp := k0_fits hf.2
  have l416 := lim_le h 4 16 (by decide)
  simp only [pfxFits] at hp
  obtain ⟨pr, fo, ro, ze, ma, co, f4⟩ := p
  dsimp only at hp
  cases pr with
  | true =>
    refine ⟨_, rfl, by
      show Instr.vcoal (d) (a) ⟨true, (fo), (ro), bit (bitN ze), (ma), bit (bitN co), bit (bitN f4)⟩ = _
      simp only [bit_bitN, BitVec.ofNat_toNat, BitVec.setWidth_eq], ?_⟩
    show fits [kf 0 2 1, kf 2 6 0x3E, rf 8 9, pf 17 1, pf 18 1, pf 19 3, pf 22 1, pf 23 3, pf 26 6, kf 32 2 0, kf 34 6 0x21, kf 58 6 4, pf 52 6, pf 46 6, rf 40 6] [bitN f4, bitN co, ma, bitN ze, ro, fo, d, a] = true
    have b_co := bitN_lt co
    have b_f4 := bitN_lt f4
    have b_ze := bitN_lt ze
    simp only [fits_par, fits_key, fits_rf, fits_cf, fits_zf, fits_nil, Bool.and_eq_true, decide_eq_true_eq, Bool.and_true]
    omega
  | false =>
    obtain ⟨_, _, _, hn⟩ := hp
    obtain ⟨rfl, rfl, rfl, rfl, rfl, rfl⟩ : fo = 0 ∧ ro = 0 ∧ ze = false ∧ ma = 0 ∧ co = false ∧ f4 = false := by
      simpa [Pfx.none] using hn rfl
    refine ⟨_, rfl, rfl, ?_⟩
    show fits [kf 0 2 0, kf 2 6 0x21, kf 26 6 4, pf 20 6, pf 14 6, rf 8 6] [d, a] = true
    simp only [fits_par, fits_key, fits_rf, fits_cf, fits_zf, fits_nil, Bool.and_eq_true, decide_eq_true_eq, Bool.and_true]
    omega

theorem Shape.viota (d : Nat) (a : Nat) (b : Nat) (p : Pfx) : Shape.Statement (.viota d a b p) := by
  intro h hf _
  have hf : ckV h d (20 + p.shift) ++ ckSs h a (14 + p.shift) ++ ckSs h b (8 + p.shift) ++ p.plain h = [] := hf
  simp only [List.append_eq_nil_iff] at hf
  have e0 := (ckV_nil ..).1 hf.1.1.1
  have e1 := (ckSs_nil ..).1 hf.1.1.2
  have e2 := (ckSs_nil ..).1 hf.1.2
  have hp := plain_fits hf.2
  have l1648 := lim_le h 16 48 (by decide)
  have l416 := lim_le h 4 16 (by decide)
  simp only [pfxFits] at hp
  obtain ⟨pr, fo, ro, ze, ma, co, f4⟩ := p
  dsimp only at hp
  cases pr with
  | true =>
    refine ⟨_, rfl, by
      show Instr.viota (d) (a) (b) ⟨true, (fo), (ro), bit (bitN ze), (ma), bit (bitN co), bit (bitN f4)⟩ = _
      simp only [bit_bitN, BitVec.ofNat_toNat, BitVec.setWidth_eq], ?_⟩
    show fits [kf 0 2 1, kf 2 6 0x3E, rf 8 9, pf 17 1, pf 18 1, pf 19 3, pf 22 1, pf 23 3, pf 26 6, kf 32 2 0, kf 34 6 0x21, kf 58 6 5, pf 52 6, pf 46 6, pf 40 6] [bitN f4, bitN co, ma, bitN ze, ro, fo, d, a, b] = true
    have b_co := bitN_lt co
    have b_f4 := bitN_lt f4
    have b_ze := bitN_lt ze
    simp only [fits_par, fits_key, fits_rf, fits_cf, fits_zf, fits_nil, Bool.and_eq_true, decide_eq_true_eq, Bool.and_true]
    omega
  | false =>
    obtain ⟨_, _, _, hn⟩ := hp
    obtain ⟨rfl, rfl, rfl, rfl, rfl, rfl⟩ : fo = 0 ∧ ro = 0 ∧ ze = false ∧ ma = 0 ∧ co = false ∧ f4 = false := by
      simpa [Pfx.none] using hn rfl
    refine ⟨_, rfl, rfl, ?_⟩
    show fits [kf 0 2 0, kf 2 6 0x21, kf 26 6 5, pf 20 6, pf 14 6, pf 8 6] [d, a, b] = true
    simp only [fits_par, fits_key, fits_rf, fits_cf, fits_zf, fits_nil, Bool.and_eq_true, decide_eq_true_eq, Bool.and_true]
    omega

theorem Shape.vcomp (d : Nat) (a : Nat) (p : Pfx) : Shape.Statement (.vcomp d a p) := by
  intro h hf _
  have hf : ckV h d (20 + p.shift) ++ ckV h a (14 + p.shift) ++ p.plain h = [] := hf
  simp only [List.append_eq_nil_iff] at hf
  have e0 := (ckV_nil ..).1 hf.1.1
  have e1 := (ckV_nil ..).1 hf.1.2
  have hp := plain_fits hf.2
  have l416 := lim_le h 4 16 (by decide)
  simp only [pfxFits] at hp
  obtain ⟨pr, fo, ro, ze, ma, co, f4⟩ := p
  dsimp only at hp
  cases pr with
  | true =>
    refine ⟨_, rfl, by
      show Instr.vcomp (d) (a) ⟨true, (fo), (ro), bit (bitN ze), (ma), bit (bitN co), bit (bitN f4)⟩ = _
      simp only [bit_bitN, BitVec.ofNat_toNat, BitVec.setWidth_eq], ?_⟩
    show fits [kf 0 2 1, kf 2 6 0x3E, rf 8 9, pf 17 1, pf 18 1, pf 19 3, pf 22 1, pf 23 3, pf 26 6, kf 32 2 0, kf 34 6 0x21, kf 58 6 6, pf 52 6, pf 46 6, rf 40 6] [bitN f4, bitN co, ma, bitN ze, ro, fo, d, a] = true
    have b_co := bitN_lt co
    have b_f4 := bitN_lt f4
    have b_ze := bitN_lt ze
    simp only [fits_par, fits_key, fits_rf, fits_cf, fits_zf, fits_nil, Bool.and_eq_true, decide_eq_true_eq, Bool.and_true]
    omega
  | false =>
    obtain ⟨_, _, _, hn⟩ := hp
    obtain ⟨rfl, rfl, rfl, rfl, rfl, rfl⟩ : fo = 0 ∧ ro = 0 ∧ ze = false ∧ ma = 0 ∧ co = false ∧ f4 = false := by
      simpa [Pfx.none] using hn rfl
    refine ⟨_, rfl, rfl, ?_⟩
    show fits [kf 0 2 0, kf 2 6 0x21, kf 26 6 6, pf 20 6, pf 14 6, rf 8 6] [d, a] = true
    simp only [fits_par, fits_key, fits_rf, fits_cf, fits_zf, fits_nil, Bool.and_eq_true, decide_eq_true_eq, Bool.and_true]
    omega

theorem Shape.vexp (d : Nat) (a : Nat) (p : Pfx) : Shape.Statement (.vexp d a p) := by
  intro h hf _
  have hf : ckV h d (20 + p.shift) ++ ckV h a (14 + p.shift) ++ p.plain h = [] := hf
  simp only [List.append_eq_nil_iff] at hf
  have e0 := (ckV_nil ..).1 hf.1.1
  have e1 := (ckV_nil ..).1 hf.1.2
  have hp := plain_fits hf.2
  have l416 := lim_le h 4 16 (by decide)
  simp only [pfxFits] at hp
  obtain ⟨pr, fo, ro, ze, ma, co, f4⟩ := p
  dsimp only at hp
  cases pr with
  | true =>
    refine ⟨_, rfl, by
      show Instr.vexp (d) (a) ⟨true, (fo), (ro), bit (bitN ze), (ma), bit (bitN co), bit (bitN f4)⟩ = _
      simp only [bit_bitN, BitVec.ofNat_toNat, BitVec.setWidth_eq], ?_⟩
    show fits [kf 0 2 1, kf 2 6 0x3E, rf 8 9, pf 17 1, pf 18 1, pf 19 3, pf 22 1, pf 23 3, pf 26 6, kf 32 2 0, kf 34 6 0x21, kf 58 6 7, pf 52 6, pf 46 6, rf 40 6] [bitN f4, bitN co, ma, bitN ze, ro, fo, d, a] = true
    have b_co := bitN_lt co
    have b_f4 := bitN_lt f4
    have b_ze := bitN_lt ze
    simp only [fits_par, fits_key, fits_rf, fits_cf, fits_zf, fits_nil, Bool.and_eq_true, decide_eq_true_eq, Bool.and_true]
    omega
  | false =>
    obtain ⟨_, _, _, hn⟩ := hp
    obtain ⟨rfl, rfl, rfl, rfl, rfl, rfl⟩ : fo = 0 ∧ ro = 0 ∧ ze = false ∧ ma = 0 ∧ co = false ∧ f4 = false := by
      simpa [Pfx.none] using hn rfl
    refine ⟨_, rfl, rfl, ?_⟩
    show fits [kf 0 2 0, kf 2 6 0x21, kf 26 6 7, pf 20 6, pf 14 6, rf 8 6] [d, a] = true
    simp only [fits_par, fits_key, fits_rf, fits_cf, fits_zf, fits_nil, Bool.and_eq_true, decide_eq_true_eq, Bool.and_true]
    omega

theorem Shape.vrsumI32 (d : Nat) (a : Nat) (b : Nat) (p : Pfx) : Shape.Statement (.vrsumI32 d a b p) := by
  intro h hf _
  have hf : ckSd h d (20 + p.shift) ++ ckV h a (14 + p.shift) ++ ckSs h b (8 + p.shift) ++ p.red h = [] := hf
  simp only [List.append_eq_nil_iff] at hf
  have e0 := (ckSd_nil ..).1 hf.1.1.1
  have e1 := (ckV_nil ..).1 hf.1.1.2
  have e2 := (ckSs_nil ..).1 hf.1.2
  have hp := red_fits hf.2
  have l1648 := lim_le h 16 48 (by decide)
  have l416 := lim_le h 4 16 (by decide)
  simp only [pfxFits] at hp
  obtain ⟨pr, fo, ro, ze, ma, co, f4⟩ := p
  dsimp only at hp
  cases pr with
  | true =>
    refine ⟨_, rfl, by
      show Instr.vrsumI32 (d) (a) (b) ⟨true, (fo), (ro), bit (bitN ze), (ma), bit (bitN co), bit (bitN f4)⟩ = _
      simp only [bit_bitN, BitVec.ofNat_toNat, BitVec.setWidth_eq], ?_⟩
    show fits [kf 0 2 1, kf 2 6 0x3E, rf 8 9, pf 17 1, pf 18 1, pf 19 3, pf 22 1, pf 23 3, pf 26 6, kf 32 2 0, kf 34 6 0x21, kf 58 6 8, pf 52 6, pf 46 6, pf 40 6] [bitN f4, bitN co, ma, bitN ze, ro, fo, d, a, b] = true
    have b_co := bitN_lt co
    have b_f4 := bitN_lt f4
    have b_ze := bitN_lt ze
    simp only [fits_par, fits_key, fits_rf, fits_cf, fits_zf, fits_nil, Bool.and_eq_true, decide_eq_true_eq, Bool.and_true]
    omega
  | false =>
    obtain ⟨_, _, _, hn⟩ := hp
    obtain ⟨rfl, rfl, rfl, rfl, rfl, rfl⟩ : fo = 0 ∧ ro = 0 ∧ ze = false ∧ ma = 0 ∧ co = false ∧ f4 = false := by
      simpa [Pfx.none] using hn rfl
    refine ⟨_, rfl, rfl, ?_⟩
    show fits [kf 0 2 0, kf 2 6 0x21, kf 26 6 8, pf 20 6, pf 14 6, pf 8 6] [d, a, b] = true
    simp only [fits_par, fits_key, fits_rf, fits_cf, fits_zf, fits_nil, Bool.and_eq_true, decide_eq_true_eq, Bool.and_true]
    omega

theorem Shape.vrsumF32 (d : Nat) (a : Nat) (b : Nat) (p : Pfx) : Shape.Statement (.vrsumF32 d a b p) := by
  intro h hf _
  have hf : ckSd h d (20 + p.shift) ++ ckV h a (14 + p.shift) ++ ckSs h b (8 + p.shift) ++ p.red h = [] := hf
  simp only [List.append_eq_nil_iff] at hf
  have e0 := (ckSd_nil ..).1 hf.1.1.1
  have e1 := (ckV_nil ..).1 hf.1.1.2
  have e2 := (ckSs_nil ..).1 hf.1.2
  have hp := red_fits hf.2
  have l1648 := lim_le h 16 48 (by decide)
  have l416 := lim_le h 4 16 (by decide)
  simp only [pfxFits] at hp
  obtain ⟨pr, fo, ro, ze, ma, co, f4⟩ := p
  dsimp only at hp
  cases pr with
  | true =>
    refine ⟨_, rfl, by
      show Instr.vrsumF32 (d) (a) (b) ⟨true, (fo), (ro), bit (bitN ze), (ma), bit (bitN co), bit (bitN f4)⟩ = _
      simp only [bit_bitN, BitVec.ofNat_toNat, BitVec.setWidth_eq], ?_⟩
    show fits [kf 0 2 1, kf 2 6 0x3E, rf 8 9, pf 17 1, pf 18 1, pf 19 3, pf 22 1, pf 23 3, pf 26 6, kf 32 2 0, kf 34 6 0x21, kf 58 6 9, pf 52 6, pf 46 6, pf 40 6] [bitN f4, bitN co, ma, bitN ze, ro, fo, d, a, b] = true
    have b_co := bitN_lt co
    have b_f4 := bitN_lt f4
    have b_ze := bitN_lt ze
    simp only [fits_par, fits_key, fits_rf, fits_cf, fits_zf, fits_nil, Bool.and_eq_true, decide_eq_true_eq, Bool.and_true]
    omega
  | false =>
    obtain ⟨_, _, _, hn⟩ := hp
    obtain ⟨rfl, rfl, rfl, rfl, rfl, rfl⟩ : fo = 0 ∧ ro = 0 ∧ ze = false ∧ ma = 0 ∧ co = false ∧ f4 = false := by
      simpa [Pfx.none] using hn rfl
    refine ⟨_, rfl, rfl, ?_⟩
    show fits [kf 0 2 0, kf 2 6 0x21, kf 26 6 9, pf 20 6, pf 14 6, pf 8 6] [d, a, b] = true
    simp only [fits_par, fits_key, fits_rf, fits_cf, fits_zf, fits_nil, Bool.and_eq_true, decide_eq_true_eq, Bool.and_true]
    omega

theorem Shape.vrminI32 (d : Nat) (a : Nat) (b : Nat) (p : Pfx) : Shape.Statement (.vrminI32 d a b p) := by
  intro h hf _
  have hf : ckSd h d (20 + p.shift) ++ ckV h a (14 + p.shift) ++ ckSs h b (8 + p.shift) ++ p.red h = [] := hf
  simp only [List.append_eq_nil_iff] at hf
  have e0 := (ckSd_nil ..).1 hf.1.1.1
  have e1 := (ckV_nil ..).1 hf.1.1.2
  have e2 := (ckSs_nil ..).1 hf.1.2
  have hp := red_fits hf.2
  have l1648 := lim_le h 16 48 (by decide)
  have l416 := lim_le h 4 16 (by decide)
  simp only [pfxFits] at hp
  obtain ⟨pr, fo, ro, ze, ma, co, f4⟩ := p
  dsimp only at hp
  cases pr with
  | true =>
    refine ⟨_, rfl, by
      show Instr.vrminI32 (d) (a) (b) ⟨true, (fo), (ro), bit (bitN ze), (ma), bit (bitN co), bit (bitN f4)⟩ = _
      simp only [bit_bitN, BitVec.ofNat_toNat, BitVec.setWidth_eq], ?_⟩
    show fits [kf 0 2 1, kf 2 6 0x3E, rf 8 9, pf 17 1, pf 18 1, pf 19 3, pf 22 1, pf 23 3, pf 26 6, kf 32 2 0, kf 34 6 0x21, kf 58 6 10, pf 52 6, pf 46 6, pf 40 6] [bitN f4, bitN co, ma, bitN ze, ro, fo, d, a, b] = true
    have b_co := bitN_lt co
    have b_f4 := bitN_lt f4
    have b_ze := bitN_lt ze
    simp only [fits_par, fits_key, fits_rf, fits_cf, fits_zf, fits_nil, Bool.and_eq_true, decide_eq_true_eq, Bool.and_true]
    omega
  | false =>
    obtain ⟨_, _, _, hn⟩ := hp
    obtain ⟨rfl, rfl, rfl, rfl, rfl, rfl⟩ : fo = 0 ∧ ro = 0 ∧ ze = false ∧ ma = 0 ∧ co = false ∧ f4 = false := by
      simpa [Pfx.none] using hn rfl
    refine ⟨_, rfl, rfl, ?_⟩
    show fits [kf 0 2 0, kf 2 6 0x21, kf 26 6 10, pf 20 6, pf 14 6, pf 8 6] [d, a, b] = true
    simp only [fits_par, fits_key, fits_rf, fits_cf, fits_zf, fits_nil, Bool.and_eq_true, decide_eq_true_eq, Bool.and_true]
    omega

theorem Shape.vrminN32 (d : Nat) (a : Nat) (b : Nat) (p : Pfx) : Shape.Statement (.vrminN32 d a b p) := by
  intro h hf _
  have hf : ckSd h d (20 + p.shift) ++ ckV h a (14 + p.shift) ++ ckSs h b (8 + p.shift) ++ p.red h = [] := hf
  simp only [List.append_eq_nil_iff] at hf
  have e0 := (ckSd_nil ..).1 hf.1.1.1
  have e1 := (ckV_nil ..).1 hf.1.1.2
  have e2 := (ckSs_nil ..).1 hf.1.2
  have hp := red_fits hf.2
  have l1648 := lim_le h 16 48 (by decide)
  have l416 := lim_le h 4 16 (by decide)
  simp only [pfxFits] at hp
  obtain ⟨pr, fo, ro, ze, ma, co, f4⟩ := p
  dsimp only at hp
  cases pr with
  | true =>
    refine ⟨_, rfl, by
      show Instr.vrminN32 (d) (a) (b) ⟨true, (fo), (ro), bit (bitN ze), (ma), bit (bitN co), bit (bitN f4)⟩ = _
      simp only [bit_bitN, BitVec.ofNat_toNat, BitVec.setWidth_eq], ?_⟩
    show fits [kf 0 2 1, kf 2 6 0x3E, rf 8 9, pf 17 1, pf 18 1, pf 19 3, pf 22 1, pf 23 3, pf 26 6, kf 32 2 0, kf 34 6 0x21, kf 58 6 11, pf 52 6, pf 46 6, pf 40 6] [bitN f4, bitN co, ma, bitN ze, ro, fo, d, a, b] = true
    have b_co := bitN_lt co
    have b_f4 := bitN_lt f4
    have b_ze := bitN_lt ze
    simp only [fits_par, fits_key, fits_rf, fits_cf, fits_zf, fits_nil, Bool.and_eq_true, decide_eq_true_eq, Bool.and_true]
    omega
  | false =>
    obtain ⟨_, _, _, hn⟩ := hp
    obtain ⟨rfl, rfl, rfl, rfl, rfl, rfl⟩ : fo = 0 ∧ ro = 0 ∧ ze = false ∧ ma = 0 ∧ co = false ∧ f4 = false := by
      simpa [Pfx.none] using hn rfl
    refine ⟨_, rfl, rfl, ?_⟩
    show fits [kf 0 2 0, kf 2 6 0x21, kf 26 6 11, pf 20 6, pf 14 6, pf 8 6] [d, a, b] = true
    simp only [fits_par, fits_key, fits_rf, fits_cf, fits_zf, fits_nil, Bool.and_eq_true, decide_eq_true_eq, Bool.and_true]
    omega

theorem Shape.vrminF32 (d : Nat) (a : Nat) (b : Nat) (p : Pfx) : Shape.Statement (.vrminF32 d a b p) := by
  intro h hf _
  have hf : ckSd h d (20 + p.shift) ++ ckV h a (14 + p.shift) ++ ckSs h b (8 + p.shift) ++ p.red h = [] := hf
  simp only [List.append_eq_nil_iff] at hf
  have e0 := (ckSd_nil ..).1 hf.1.1.1
  have e1 := (ckV_nil ..).1 hf.1.1.2
  have e2 := (ckSs_nil ..).1 hf.1.2
  have hp := red_fits hf.2
  have l1648 := lim_le h 16 48 (by decide)
  have l416 := lim_le h 4 16 (by decide)
  simp only [pfxFits] at hp
  obtain ⟨pr, fo, ro, ze, ma, co, f4⟩ := p
  dsimp only at hp
  cases pr with
  | true =>
    refine ⟨_, rfl, by
      show Instr.vrminF32 (d) (a) (b) ⟨true, (fo), (ro), bit (bitN ze), (ma), bit (bitN co), bit (bitN f4)⟩ = _
      simp only [bit_bitN, BitVec.ofNat_toNat, BitVec.setWidth_eq], ?_⟩
    show fits [kf 0 2 1, kf 2 6 0x3E, rf 8 9, pf 17 1, pf 18 1, pf 19 3, pf 22 1, pf 23 3, pf 26 6, kf 32 2 0, kf 34 6 0x21, kf 58 6 12, pf 52 6, pf 46 6, pf 40 6] [bitN f4, bitN co, ma, bitN ze, ro, fo, d, a, b] = true
    have b_co := bitN_lt co
    have b_f4 := bitN_lt f4
    have b_ze := bitN_lt ze
    simp only [fits_par, fits_key, fits_rf, fits_cf, fits_zf, fits_nil, Bool.and_eq_true, decide_eq_true_eq, Bool.and_true]
    omega
  | false =>
    obtain ⟨_, _, _, hn⟩ := hp
    obtain ⟨rfl, rfl, rfl, rfl, rfl, rfl⟩ : fo = 0 ∧ ro = 0 ∧ ze = false ∧ ma = 0 ∧ co = false ∧ f4 = false := by
      simpa [Pfx.none] using hn rfl
    refine ⟨_, rfl, rfl, ?_⟩
    show fits [kf 0 2 0, kf 2 6 0x21, kf 26 6 12, pf 20 6, pf 14 6, pf 8 6] [d, a, b] = true
    simp only [fits_par, fits_key, fits_rf, fits_cf, fits_zf, fits_nil, Bool.and_eq_true, decide_eq_true_eq, Bool.and_true]
    omega

theorem Shape.vrmaxI32 (d : Nat) (a : Nat) (b : Nat) (p : Pfx) : Shape.Statement (.vrmaxI32 d a b p) := by
  intro h hf _
  have hf : ckSd h d (20 + p.shift) ++ ckV h a (14 + p.shift) ++ ckSs h b (8 + p.shift) ++ p.red h = [] := hf
  simp only [List.append_eq_nil_iff] at hf
  have e0 := (ckSd_nil ..).1 hf.1.1.1
  have e1 := (ckV_nil ..).1 hf.1.1.2
  have e2 := (ckSs_nil ..).1 hf.1.2
  have hp := red_fits hf.2
  have l1648 := lim_le h 16 48 (by decide)
  have l416 := lim_le h 4 16 (by decide)
  simp only [pfxFits] at hp
  obtain ⟨pr, fo, ro, ze, ma, co, f4⟩ := p
  dsimp only at hp
  cases pr with
  | true =>
    refine ⟨_, rfl, by
      show Instr.vrmaxI32 (d) (a) (b) ⟨true, (fo), (ro), bit (bitN ze), (ma), bit (bitN co), bit (bitN f4)⟩ = _
      simp only [bit_bitN, BitVec.ofNat_toNat, BitVec.setWidth_eq], ?_⟩
    show fits [kf 0 2 1, kf 2 6 0x3E, rf 8 9, pf 17 1, pf 18 1, pf 19 3, pf 22 1, pf 23 3, pf 26 6, kf 32 2 0, kf 34 6 0x21, kf 58 6 13, pf 52 6, pf 46 6, pf 40 6] [bitN f4, bitN co, ma, bitN ze, ro, fo, d, a, b] = true
    have b_co := bitN_lt co
    have b_f4 := bitN_lt f4
    have b_ze := bitN_lt ze
    simp only [fits_par, fits_key, fits_rf, fits_cf, fits_zf, fits_nil, Bool.and_eq_true, decide_eq_true_eq, Bool.and_true]
    omega
  | false =>
    obtain ⟨_, _, _, hn⟩ := hp
    obtain ⟨rfl, rfl, rfl, rfl, rfl, rfl⟩ : fo = 0 ∧ ro = 0 ∧ ze = false ∧ ma = 0 ∧ co = false ∧ f4 = false := by
      simpa [Pfx.none] using hn rfl
    refine ⟨_, rfl, rfl, ?_⟩
    show fits [kf 0 2 0, kf 2 6 0x21, kf 26 6 13, pf 20 6, pf 14 6, pf 8 6] [d, a, b] = true
    simp only [fits_par, fits_key, fits_rf, fits_cf, fits_zf, fits_nil, Bool.and_eq_true, decide_eq_true_eq, Bool.and_true]
    omega

theorem Shape.vrmaxN32 (d : Nat) (a : Nat) (b : Nat) (p : Pfx) : Shape.Statement (.vrmaxN32 d a b p) := by
  intro h hf _
  have hf : ckSd h d (20 + p.shift) ++ ckV h a (14 + p.shift) ++ ckSs h b (8 + p.shift) ++ p.red h = [] := hf
  simp only [List.append_eq_nil_iff] at hf
  have e0 := (ckSd_nil ..).1 hf.1.1.1
  have e1 := (ckV_nil ..).1 hf.1.1.2
  have e2 := (ckSs_nil ..).1 hf.1.2
  have hp := red_fits hf.2
  have l1648 := lim_le h 16 48 (by decide)
  have l416 := lim_le h 4 16 (by decide)
  simp only [pfxFits] at hp
  obtain ⟨pr, fo, ro, ze, ma, co, f4⟩ := p
  dsimp only at hp
  cases pr with
  | true =>
    refine ⟨_, rfl, by
      show Instr.vrmaxN32 (d) (a) (b) ⟨true, (fo), (ro), bit (bitN ze), (ma), bit (bitN co), bit (bitN f4)⟩ = _
      simp only [bit_bitN, BitVec.ofNat_toNat, BitVec.setWidth_eq], ?_⟩
    show fits [kf 0 2 1, kf 2 6 0x3E, rf 8 9, pf 17 1, pf 18 1, pf 19 3, pf 22 1, pf 23 3, pf 26 6, kf 32 2 0, kf 34 6 0x21, kf 58 6 14, pf 52 6, pf 46 6, pf 40 6] [bitN f4, bitN co, ma, bitN ze, ro, fo, d, a, b] = true
    have b_co := bitN_lt co
    have b_f4 := bitN_lt f4
    have b_ze := bitN_lt ze
    simp only [fits_par, fits_key, fits_rf, fits_cf, fits_zf, fits_nil, Bool.and_eq_true, decide_eq_true_eq, Bool.and_true]
    omega
  | false =>
    obtain ⟨_, _, _, hn⟩ := hp
    obtain ⟨rfl, rfl, rfl, rfl, rfl, rfl⟩ : fo = 0 ∧ ro = 0 ∧ ze = false ∧ ma = 0 ∧ co = false ∧ f4 = false := by
      simpa [Pfx.none] using hn rfl
    refine ⟨_, rfl, rfl, ?_⟩
    show fits [kf 0 2 0, kf 2 6 0x21, kf 26 6 14, pf 20 6, pf 14 6, pf 8 6] [d, a, b] = true
    simp only [fits_par, fits_key, fits_rf, fits_cf, fits_zf, fits_nil, Bool.and_eq_true, decide_eq_true_eq, Bool.and_true]
    omega

theorem Shape.vrmaxF32 (d : Nat) (a : Nat) (b : Nat) (p : Pfx) : Shape.Statement (.vrmaxF32 d a b p) := by
  intro h hf _
  have hf : ckSd h d (20 + p.shift) ++ ckV h a (14 + p.shift) ++ ckSs h b (8 + p.shift) ++ p.red h = [] := hf
  simp only [List.append_eq_nil_iff] at hf
  have e0 := (ckSd_nil ..).1 hf.1.1.1
  have e1 := (ckV_nil ..).1 hf.1.1.2
  have e2 := (ckSs_nil ..).1 hf.1.2
  have hp := red_fits hf.2
  have l1648 := lim_le h 16 48 (by decide)
  have l416 := lim_le h 4 16 (by decide)
  simp only [pfxFits] at hp
  obtain ⟨pr, fo, ro, ze, ma, co, f4⟩ := p
  dsimp only at hp
  cases pr with
  | true =>
    refine ⟨_, rfl, by
      show Instr.vrmaxF32 (d) (a) (b) ⟨true, (fo), (ro), bit (bitN ze), (ma), bit (bitN co), bit (bitN f4)⟩ = _
      simp only [bit_bitN, BitVec.ofNat_toNat, BitVec.setWidth_eq], ?_⟩
    show fits [kf 0 2 1, kf 2 6 0x3E, rf 8 9, pf 17 1, pf 18 1, pf 19 3, pf 22 1, pf 23 3, pf 26 6, kf 32 2 0, kf 34 6 0x21, kf 58 6 15, pf 52 6, pf 46 6, pf 40 6] [bitN f4, bitN co, ma, bitN ze, ro, fo, d, a, b] = true
    have b_co := bitN_lt co
    have b_f4 := bitN_lt f4
    have b_ze := bitN_lt ze
    simp only [fits_par, fits_key, fits_rf, fits_cf, fits_zf, fits_nil, Bool.and_eq_true, decide_eq_true_eq, Bool.and_true]
    omega
  | false =>
    obtain ⟨_, _, _, hn⟩ := hp
    obtain ⟨rfl, rfl, rfl, rfl, rfl, rfl⟩ : fo = 0 ∧ ro = 0 ∧ ze = false ∧ ma = 0 ∧ co = false ∧ f4 = false := by
      simpa [Pfx.none] using hn rfl
    refine ⟨_, rfl, rfl, ?_⟩
    show fits [kf 0 2 0, kf 2 6 0x21, kf 26 6 15, pf 20 6, pf 14 6, pf 8 6] [d, a, b] = true
    simp only [fits_par, fits_key, fits_rf, fits_cf, fits_zf, fits_nil, Bool.and_eq_true, decide_eq_true_eq, Bool.and_true]
    omega

theorem Shape.vrand (d : Nat) (a : Nat) (b : Nat) (p : Pfx) : Shape.Statement (.vrand d a b p) := by
  intro h hf _
  have hf : ckSd h d (20 + p.shift) ++ ckV h a (14 + p.shift) ++ ckSs h b (8 + p.shift) ++ p.red h = [] := hf
  simp only [List.append_eq_nil_iff] at hf
  have e0 := (ckSd_nil ..).1 hf.1.1.1
  have e1 := (ckV_nil ..).1 hf.1.1.2
  have e2 := (ckSs_nil ..).1 hf.1.2
  have hp := red_fits hf.2
  have l1648 := lim_le h 16 48 (by decide)
  have l416 := lim_le h 4 16 (by decide)
  simp only [pfxFits] at hp
  obtain ⟨pr, fo, ro, ze, ma, co, f4⟩ := p
  dsimp only at hp
  cases pr with
  | true =>
    refine ⟨_, rfl, by
      show Instr.vrand (d) (a) (b) ⟨true, (fo), (ro), bit (bitN ze), (ma), bit (bitN co), bit (bitN f4)⟩ = _
      simp only [bit_bitN, BitVec.ofNat_toNat, BitVec.setWidth_eq], ?_⟩
    show fits [kf 0 2 1, kf 2 6 0x3E, rf 8 9, pf 17 1, pf 18 1, pf 19 3, pf 22 1, pf 23 3, pf 26 6, kf 32 2 0, kf 34 6 0x21, kf 58 6 16, pf 52 6, pf 46 6, pf 40 6] [bitN f4, bitN co, ma, bitN ze, ro, fo, d, a, b] = true
    have b_co := bitN_lt co
    have b_f4 := bitN_lt f4
    have b_ze := bitN_lt ze
    simp only [fits_par, fits_key, fits_rf, fits_cf, fits_zf, fits_nil, Bool.and_eq_true, decide_eq_true_eq, Bool.and_true]
    omega
  | false =>
    obtain ⟨_, _, _, hn⟩ := hp
    obtain ⟨rfl, rfl, rfl, rfl, rfl, rfl⟩ : fo = 0 ∧ ro = 0 ∧ ze = false ∧ ma = 0 ∧ co = false ∧ f4 = false := by
      simpa [Pfx.none] using hn rfl
    refine ⟨_, rfl, rfl, ?_⟩
    show fits [kf 0 2 0, kf 2 6 0x21, kf 26 6 16, pf 20 6, pf 14 6, pf 8 6] [d, a, b] = true
    simp only [fits_par, fits_key, fits_rf, fits_cf, fits_zf, fits_nil, Bool.and_eq_true, decide_eq_true_eq, Bool.and_true]
    omega

theorem Shape.vror (d : Nat) (a : Nat) (b : Nat) (p : Pfx) : Shape.Statement (.vror d a b p) := by
  intro h hf _
  have hf : ckSd h d (20 + p.shift) ++ ckV h a (14 + p.shift) ++ ckSs h b (8 + p.shift) ++ p.red h = [] := hf
  simp only [List.append_eq_nil_iff] at hf
  have e0 := (ckSd_nil ..).1 hf.1.1.1
  have e1 := (ckV_nil ..).1 hf.1.1.2
  have e2 := (ckSs_nil ..).1 hf.1.2
  have hp := red_fits hf.2
  have l1648 := lim_le h 16 48 (by decide)
  have l416 := lim_le h 4 16 (by decide)
  simp only [pfxFits] at hp
  obtain ⟨pr, fo, ro, ze, ma, co, f4⟩ := p
  dsimp only at hp
  cases pr with
  | true =>
    refine ⟨_, rfl, by
      show Instr.vror (d) (a) (b) ⟨true, (fo), (ro), bit (bitN ze), (ma), bit (bitN co), bit (bitN f4)⟩ = _
      simp only [bit_bitN, BitVec.ofNat_toNat, BitVec.setWidth_eq], ?_⟩
    show fits [kf 0 2 1, kf 2 6 0x3E, rf 8 9, pf 17 1, pf 18 1, pf 19 3, pf 22 1, pf 23 3, pf 26 6, kf 32 2 0, kf 34 6 0x21, kf 58 6 17, pf 52 6, pf 46 6, pf 40 6] [bitN f4, bitN co, ma, bitN ze, ro, fo, d, a, b] = true
    have b_co := bitN_lt co
    have b_f4 := bitN_lt f4
    have b_ze := bitN_lt ze
    simp only [fits_par, fits_key, fits_rf, fits_cf, fits_zf, fits_nil, Bool.and_eq_true, decide_eq_true_eq, Bool.and_true]
    omega
  | false =>
    obtain ⟨_, _, _, hn⟩ := hp
    obtain ⟨rfl, rfl, rfl, rfl, rfl, rfl⟩ : fo = 0 ∧ ro = 0 ∧ ze = false ∧ ma = 0 ∧ co = false ∧ f4 = false := by
      simpa [Pfx.none] using hn rfl
    refine ⟨_, rfl, rfl, ?_⟩
    show fits [kf 0 2 0, kf 2 6 0x21, kf 26 6 17, pf 20 6, pf 14 6, pf 8 6] [d, a, b] = true
    simp only [fits_par, fits_key, fits_rf, fits_cf, fits_zf, fits_nil, Bool.and_eq_true, decide_eq_true_eq, Bool.and_true]
    omega

theorem Shape.vrxor (d : Nat) (a : Nat) (b : Nat) (p : Pfx) : Shape.Statement (.vrxor d a b p) := by
  intro h hf _
  have hf : ckSd h d (20 + p.shift) ++ ckV h a (14 + p.shift) ++ ckSs h b (8 + p.shift) ++ p.red h = [] := hf
  simp only [List.append_eq_nil_iff] at hf
  have e0 := (ckSd_nil ..).1 hf.1.1.1
  have e1 := (ckV_nil ..).1 hf.1.1.2
  have e2 := (ckSs_nil ..).1 hf.1.2
  have hp := red_fits hf.2
  have l1648 := lim_le h 16 48 (by decide)
  have l416 := lim_le h 4 16 (by decide)
  simp only [pfxFits] at hp
  obtain ⟨pr, fo, ro, ze, ma, co, f4⟩ := p
  dsimp only at hp
  cases pr with
  | true =>
    refine ⟨_, rfl, by
      show Instr.vrxor (d) (a) (b) ⟨true, (fo), (ro), bit (bitN ze), (ma), bit (bitN co), bit (bitN f4)⟩ = _
      simp only [bit_bitN, BitVec.ofNat_toNat, BitVec.setWidth_eq], ?_⟩
    show fits [kf 0 2 1, kf 2 6 0x3E, rf 8 9, pf 17 1, pf 18 1, pf 19 3, pf 22 1, pf 23 3, pf 26 6, kf 32 2 0, kf 34 6 0x21, kf 58 6 18, pf 52 6, pf 46 6, pf 40 6] [bitN f4, bitN co, ma, bitN ze, ro, fo, d, a, b] = true
    have b_co := bitN_lt co
    have b_f4 := bitN_lt f4
    have b_ze := bitN_lt ze
    simp only [fits_par, fits_key, fits_rf, fits_cf, fits_zf, fits_nil, Bool.and_eq_true, decide_eq_true_eq, Bool.and_true]
    omega
  | false =>
    obtain ⟨_, _, _, hn⟩ := hp
    obtain ⟨rfl, rfl, rfl, rfl, rfl, rfl⟩ : fo = 0 ∧ ro = 0 ∧ ze = false ∧ ma = 0 ∧ co = false ∧ f4 = false := by
      simpa [Pfx.none] using hn rfl
    refine ⟨_, rfl, rfl, ?_⟩
    show fits [kf 0 2 0, kf 2 6 0x21, kf 26 6 18, pf 20 6, pf 14 6, pf 8 6] [d, a, b] = true
    simp only [fits_par, fits_key, fits_rf, fits_cf, fits_zf, fits_nil, Bool.and_eq_true, decide_eq_true_eq, Bool.and_true]
    omega

theorem Shape.vssumI32 (d : Nat) (a : Nat) (b : Nat) (p : Pfx) : Shape.Statement (.vssumI32 d a b p) := by
  intro h hf _
  have hf : ckV h d (20 + p.shift) ++ ckV h a (14 + p.shift) ++ ckSs h b (8 + p.shift) ++ p.plain h = [] := hf
  simp only [List.append_eq_nil_iff] at hf
  have e0 := (ckV_nil ..).1 hf.1.1.1
  have e1 := (ckV_nil ..).1 hf.1.1.2
  have e2 := (ckSs_nil ..).1 hf.1.2
  have hp := plain_fits hf.2
  have l1648 := lim_le h 16 48 (by decide)
  have l416 := lim_le h 4 16 (by decide)
  simp only [pfxFits] at hp
  obtain ⟨pr, fo, ro, ze, ma, co, f4⟩ := p
  dsimp only at hp
  cases pr with
  | true =>
    refine ⟨_, rfl, by
      show Instr.vssumI32 (d) (a) (b) ⟨true, (fo), (ro), bit (bitN ze), (ma), bit (bitN co), bit (bitN f4)⟩ = _
      simp only [bit_bitN, BitVec.ofNat_toNat, BitVec.setWidth_eq], ?_⟩
    show fits [kf 0 2 1, kf 2 6 0x3E, rf 8 9, pf 17 1, pf 18 1, pf 19 3, pf 22 1, pf 23 3, pf 26 6, kf 32 2 0, kf 34 6 0x21, kf 58 6 19, pf 52 6, pf 46 6, pf 40 6] [bitN f4, bitN co, ma, bitN ze, ro, fo, d, a, b] = true
    have b_co := bitN_lt co
    have b_f4 := bitN_lt f4
    have b_ze := bitN_lt ze
    simp only [fits_par, fits_key, fits_rf, fits_cf, fits_zf, fits_nil, Bool.and_eq_true, decide_eq_true_eq, Bool.and_true]
    omega
  | false =>
    obtain ⟨_, _, _, hn⟩ := hp
    obtain ⟨rfl, rfl, rfl, rfl, rfl, rfl⟩ : fo = 0 ∧ ro = 0 ∧ ze = false ∧ ma = 0 ∧ co = false ∧ f4 = false := by
      simpa [Pfx.none] using hn rfl
    refine ⟨_, rfl, rfl, ?_⟩
    show fits [kf 0 2 0, kf 2 6 0x21, kf 26 6 19, pf 20 6, pf 14 6, pf 8 6] [d, a, b] = true
    simp only [fits_par, fits_key, fits_rf, fits_cf, fits_zf, fits_nil, Bool.and_eq_true, decide_eq_true_eq, Bool.and_true]
    omega

theorem Shape.vssumF32 (d : Nat) (a : Nat) (b : Nat) (p : Pfx) : Shape.Statement (.vssumF32 d a b p) := by
  intro h hf _
  have hf : ckV h d (20 + p.shift) ++ ckV h a (14 + p.shift) ++ ckSs h b (8 + p.shift) ++ p.plain h = [] := hf
  simp only [List.append_eq_nil_iff] at hf
  have e0 := (ckV_nil ..).1 hf.1.1.1
  have e1 := (ckV_nil ..).1 hf.1.1.2
  have e2 := (ckSs_nil ..).1 hf.1.2
  have hp := plain_fits hf.2
  have l1648 := lim_le h 16 48 (by decide)
  have l416 := lim_le h 4 16 (by decide)
  simp only [pfxFits] at hp
  obtain ⟨pr, fo, ro, ze, ma, co, f4⟩ := p
  dsimp only at hp
  cases pr with
  | true =>
    refine ⟨_, rfl, by
      show Instr.vssumF32 (d) (a) (b) ⟨true, (fo), (ro), bit (bitN ze), (ma), bit (bitN co), bit (bitN f4)⟩ = _
      simp only [bit_bitN, BitVec.ofNat_toNat, BitVec.setWidth_eq], ?_⟩
    show fits [kf 0 2 1, kf 2 6 0x3E, rf 8 9, pf 17 1, pf 18 1, pf 19 3, pf 22 1, pf 23 3, pf 26 6, kf 32 2 0, kf 34 6 0x21, kf 58 6 20, pf 52 6, pf 46 6, pf 40 6] [bitN f4, bitN co, ma, bitN ze, ro, fo, d, a, b] = true
    have b_co := bitN_lt co
    have b_f4 := bitN_lt f4
    have b_ze := bitN_lt ze
    simp only [fits_par, fits_key, fits_rf, fits_cf, fits_zf, fits_nil, Bool.and_eq_true, decide_eq_true_eq, Bool.and_true]
    omega
  | false =>
    obtain ⟨_, _, _, hn⟩ := hp
    obtain ⟨rfl, rfl, rfl, rfl, rfl, rfl⟩ : fo = 0 ∧ ro = 0 ∧ ze = false ∧ ma = 0 ∧ co = false ∧ f4 = false := by
      simpa [Pfx.none] using hn rfl
    refine ⟨_, rfl, rfl, ?_⟩
    show fits [kf 0 2 0, kf 2 6 0x21, kf 26 6 20, pf 20 6, pf 14 6, pf 8 6] [d, a, b] = true
    simp only [fits_par, fits_key, fits_rf, fits_cf, fits_zf, fits_nil, Bool.and_eq_true, decide_eq_true_eq, Bool.and_true]
    omega

theorem Shape.vsminI32 (d : Nat) (a : Nat) (b : Nat) (p : Pfx) : Shape.Statement (.vsminI32 d a b p) := by
  intro h hf _
  have hf : ckV h d (20 + p.shift) ++ ckV h a (14 + p.shift) ++ ckSs h b (8 + p.shift) ++ p.plain h = [] := hf
  simp only [List.append_eq_nil_iff] at hf
  have e0 := (ckV_nil ..).1 hf.1.1.1
  have e1 := (ckV_nil ..).1 hf.1.1.2
  have e2 := (ckSs_nil ..).1 hf.1.2
  have hp := plain_fits hf.2
  have l1648 := lim_le h 16 48 (by decide)
  have l416 := lim_le h 4 16 (by decide)
  simp only [pfxFits] at hp
  obtain ⟨pr, fo, ro, ze, ma, co, f4⟩ := p
  dsimp only at hp
  cases pr with
  | true =>
    refine ⟨_, rfl, by
      show Instr.vsminI32 (d) (a) (b) ⟨true, (fo), (ro), bit (bitN ze), (ma), bit (bitN co), bit (bitN f4)⟩ = _
      simp only [bit_bitN, BitVec.ofNat_toNat, BitVec.setWidth_eq], ?_⟩
    show fits [kf 0 2 1, kf 2 6 0x3E, rf 8 9, pf 17 1, pf 18 1, pf 19 3, pf 22 1, pf 23 3, pf 26 6, kf 32 2 0, kf 34 6 0x21, kf 58 6 21, pf 52 6, pf 46 6, pf 40 6] [bitN f4, bitN co, ma, bitN ze, ro, fo, d, a, b] = true
    have b_co := bitN_lt co
    have b_f4 := bitN_lt f4
    have b_ze := bitN_lt ze
    simp only [fits_par, fits_key, fits_rf, fits_cf, fits_zf, fits_nil, Bool.and_eq_true, decide_eq_true_eq, Bool.and_true]
    omega
  | false =>
    obtain ⟨_, _, _, hn⟩ := hp
    obtain ⟨rfl, rfl, rfl, rfl, rfl, rfl⟩ : fo = 0 ∧ ro = 0 ∧ ze = false ∧ ma = 0 ∧ co = false ∧ f4 = false := by
      simpa [Pfx.none] using hn rfl
    refine ⟨_, rfl, rfl, ?_⟩
    show fits [kf 0 2 0, kf 2 6 0x21, kf 26 6 21, pf 20 6, pf 14 6, pf 8 6] [d, a, b] = true
    simp only [fits_par, fits_key, fits_rf, fits_cf, fits_zf, fits_nil, Bool.and_eq_true, decide_eq_true_eq, Bool.and_true]
    omega

theorem Shape.vsmaxI32 (d : Nat) (a : Nat) (b : Nat) (p : Pfx) : Shape.Statement (.vsmaxI32 d a b p) := by
  intro h hf _
  have hf : ckV h d (20 + p.shift) ++ ckV h a (14 + p.shift) ++ ckSs h b (8 + p.shift) ++ p.plain h = [] := hf
  simp only [List.append_eq_nil_iff] at hf
  have e0 := (ckV_nil ..).1 hf.1.1.1
  have e1 := (ckV_nil ..).1 hf.1.1.2
  have e2 := (ckSs_nil ..).1 hf.1.2
  have hp := plain_fits hf.2
  have l1648 := lim_le h 16 48 (by decide)
  have l416 := lim_le h 4 16 (by decide)
  simp only [pfxFits] at hp
  obtain ⟨pr, fo, ro, ze, ma, co, f4⟩ := p
  dsimp only at hp
  cases pr with
  | true =>
    refine ⟨_, rfl, by
      show Instr.vsmaxI32 (d) (a) (b) ⟨true, (fo), (ro), bit (bitN ze), (ma), bit (bitN co), bit (bitN f4)⟩ = _
      simp only [bit_bitN, BitVec.ofNat_toNat, BitVec.setWidth_eq], ?_⟩
    show fits [kf 0 2 1, kf 2 6 0x3E, rf 8 9, pf 17 1, pf 18 1, pf 19 3, pf 22 1, pf 23 3, pf 26 6, kf 32 2 0, kf 34 6 0x21, kf 58 6 22, pf 52 6, pf 46 6, pf 40 6] [bitN f4, bitN co, ma, bitN ze, ro, fo, d, a, b] = true
    have b_co := bitN_lt co
    have b_f4 := bitN_lt f4
    have b_ze := bitN_lt ze
    simp only [fits_par, fits_key, fits_rf, fits_cf, fits_zf, fits_nil, Bool.and_eq_true, decide_eq_true_eq, Bool.and_true]
    omega
  | false =>
    obtain ⟨_, _, _, hn⟩ := hp
    obtain ⟨rfl, rfl, rfl, rfl, rfl, rfl⟩ : fo = 0 ∧ ro = 0 ∧ ze = false ∧ ma = 0 ∧ co = false ∧ f4 = false := by
      simpa [Pfx.none] using hn rfl
    refine ⟨_, rfl, rfl, ?_⟩
    show fits [kf 0 2 0, kf 2 6 0x21, kf 26 6 22, pf 20 6, pf 14 6, pf 8 6] [d, a, b] = true
    simp only [fits_par, fits_key, fits_rf, fits_cf, fits_zf, fits_nil, Bool.and_eq_true, decide_eq_true_eq, Bool.and_true]
    omega

theorem Shape.vlen (d : Nat) (a : Nat) (p : Pfx) : Shape.Statement (.vlen d a p) := by
  intro h hf _
  have hf : ckSd h d (20 + p.shift) ++ ckV h a (14 + p.shift) ++ p.scalar h = [] := hf
  simp only [List.append_eq_nil_iff] at hf
  have e0 := (ckSd_nil ..).1 hf.1.1
  have e1 := (ckV_nil ..).1 hf.1.2
  have hp := scalar_fits hf.2
  have l1648 := lim_le h 16 48 (by decide)
  have l416 := lim_le h 4 16 (by decide)
  simp only [pfxFits] at hp
  obtain ⟨pr, fo, ro, ze, ma, co, f4⟩ := p
  dsimp only at hp
  cases pr with
  | true =>
    refine ⟨_, rfl, by
      show Instr.vlen (d) (a) ⟨true, (fo), (ro), bit (bitN ze), (ma), bit (bitN co), bit (bitN f4)⟩ = _
      simp only [bit_bitN, BitVec.ofNat_toNat, BitVec.setWidth_eq], ?_⟩
    show fits [kf 0 2 1, kf 2 6 0x3E, rf 8 9, pf 17 1, pf 18 1, pf 19 3, pf 22 1, pf 23 3, pf 26 6, kf 32 2 0, kf 34 6 0x21, kf 58 6 23, pf 52 6, pf 46 6, rf 40 6] [bitN f4, bitN co, ma, bitN ze, ro, fo, d, a] = true
    have b_co := bitN_lt co
    have b_f4 := bitN_lt f4
    have b_ze := bitN_lt ze
    simp only [fits_par, fits_key, fits_rf, fits_cf, fits_zf, fits_nil, Bool.and_eq_true, decide_eq_true_eq, Bool.and_true]
    omega
  | false =>
    obtain ⟨_, _, _, hn⟩ := hp
    obtain ⟨rfl, rfl, rfl, rfl, rfl, rfl⟩ : fo = 0 ∧ ro = 0 ∧ ze = false ∧ ma = 0 ∧ co = false ∧ f4 = false := by
      simpa [Pfx.none] using hn rfl
    refine ⟨_, rfl, rfl, ?_⟩
    show fits [kf 0 2 0, kf 2 6 0x21, kf 26 6 23, pf 20 6, pf 14 6, rf 8 6] [d, a] = true
    simp only [fits_par, fits_key, fits_rf, fits_cf, fits_zf, fits_nil, Bool.and_eq_true, decide_eq_true_eq, Bool.and_true]
    omega

theorem Shape.vnrun (d : Nat) (a : Nat) (p : Pfx) : Shape.Statement (.vnrun d a p) := by
  intro h hf _
  have hf : ckSd h d (20 + p.shift) ++ ckV h a (14 + p.shift) ++ p.scalar h = [] := hf
  simp only [List.append_eq_nil_iff] at hf
  have e0 := (ckSd_nil ..).1 hf.1.1
  have e1 := (ckV_nil ..).1 hf.1.2
  have hp := scalar_fits hf.2
  have l1648 := lim_le h 16 48 (by decide)
  have l416 := lim_le h 4 16 (by decide)
  simp only [pfxFits] at hp
  obtain ⟨pr, fo, ro, ze, ma, co, f4⟩ := p
  dsimp only at hp
  cases pr with
  | true =>
    refine ⟨_, rfl, by
      show Instr.vnrun (d) (a) ⟨true, (fo), (ro), bit (bitN ze), (ma), bit (bitN co), bit (bitN f4)⟩ = _
      simp only [bit_bitN, BitVec.ofNat_toNat, BitVec.setWidth_eq], ?_⟩
    show fits [kf 0 2 1, kf 2 6 0x3E, rf 8 9, pf 17 1, pf 18 1, pf 19 3, pf 22 1, pf 23 3, pf 26 6, kf 32 2 0, kf 34 6 0x21, kf 58 6 24, pf 52 6, pf 46 6, rf 40 6] [bitN f4, bitN co, ma, bitN ze, ro, fo, d, a] = true
    have b_co := bitN_lt co
    have b_f4 := bitN_lt f4
    have b_ze := bitN_lt ze
    simp only [fits_par, fits_key, fits_rf, fits_cf, fits_zf, fits_nil, Bool.and_eq_true, decide_eq_true_eq, Bool.and_true]
    omega
  | false =>
    obtain ⟨_, _, _, hn⟩ := hp
    obtain ⟨rfl, rfl, rfl, rfl, rfl, rfl⟩ : fo = 0 ∧ ro = 0 ∧ ze = false ∧ ma = 0 ∧ co = false ∧ f4 = false := by
      simpa [Pfx.none] using hn rfl
    refine ⟨_, rfl, rfl, ?_⟩
    show fits [kf 0 2 0, kf 2 6 0x21, kf 26 6 24, pf 20 6, pf 14 6, rf 8 6] [d, a] = true
    simp only [fits_par, fits_key, fits_rf, fits_cf, fits_zf, fits_nil, Bool.and_eq_true, decide_eq_true_eq, Bool.and_true]
    omega

theorem Shape.vsetlen (d : Nat) (a : Nat) (b : Nat) (p : Pfx) : Shape.Statement (.vsetlen d a b p) := by
  intro h hf _
  have hf : ckV h d (20 + p.shift) ++ ckV h a (14 + p.shift) ++ ckSs h b (8 + p.shift) ++ p.k0 h = [] := hf
  simp only [List.append_eq_nil_iff] at hf
  have e0 := (ckV_nil ..).1 hf.1.1.1
  have e1 := (ckV_nil ..).1 hf.1.1.2
  have e2 := (ckSs_nil ..).1 hf.1.2
  have hp := k0_fits hf.2
  have l1648 := lim_le h 16 48 (by decide)
  have l416 := lim_le h 4 16 (by decide)
  simp only [pfxFits] at hp
  obtain ⟨pr, fo, ro, ze, ma, co, f4⟩ := p
  dsimp only at hp
  cases pr with
  | true =>
    refine ⟨_, rfl, by
      show Instr.vsetlen (d) (a) (b) ⟨true, (fo), (ro), bit (bitN ze), (ma), bit (bitN co), bit (bitN f4)⟩ = _
      simp only [bit_bitN, BitVec.ofNat_toNat, BitVec.setWidth_eq], ?_⟩
    show fits [kf 0 2 1, kf 2 6 0x3E, rf 8 9, pf 17 1, pf 18 1, pf 19 3, pf 22 1, pf 23 3, pf 26 6, kf 32 2 0, kf 34 6 0x21, kf 58 6 25, pf 52 6, pf 46 6, pf 40 6] [bitN f4, bitN co, ma, bitN ze, ro, fo, d, a, b] = true
    have b_co := bitN_lt co
    have b_f4 := bitN_lt f4
    have b_ze := bitN_lt ze
    simp only [fits_par, fits_key, fits_rf, fits_cf, fits_zf, fits_nil, Bool.and_eq_true, decide_eq_true_eq, Bool.and_true]
    omega
  | false =>
    obtain ⟨_, _, _, hn⟩ := hp
    obtain ⟨rfl, rfl, rfl, rfl, rfl, rfl⟩ : fo = 0 ∧ ro = 0 ∧ ze = false ∧ ma = 0 ∧ co = false ∧ f4 = false := by
      simpa [Pfx.none] using hn rfl
    refine ⟨_, rfl, rfl, ?_⟩
    show fits [kf 0 2 0, kf 2 6 0x21, kf 26 6 25, pf 20 6, pf 14 6, pf 8 6] [d, a, b] = true
    simp only [fits_par, fits_key, fits_rf, fits_cf, fits_zf, fits_nil, Bool.and_eq_true, decide_eq_true_eq, Bool.and_true]
    omega

theorem Shape.vtos (d : Nat) (a : Nat) (b : Nat) (p : Pfx) : Shape.Statement (.vtos d a b p) := by
  intro h hf _
  have hf : ckSd h d (20 + p.shift) ++ ckV h a (14 + p.shift) ++ ckSs h b (8 + p.shift) ++ p.scalar h = [] := hf
  simp only [List.append_eq_nil_iff] at hf
  have e0 := (ckSd_nil ..).1 hf.1.1.1
  have e1 := (ckV_nil ..).1 hf.1.1.2
  have e2 := (ckSs_nil ..).1 hf.1.2
  have hp := scalar_fits hf.2
  have l1648 := lim_le h 16 48 (by decide)
  have l416 := lim_le h 4 16 (by decide)
  simp only [pfxFits] at hp
  obtain ⟨pr, fo, ro, ze, ma, co, f4⟩ := p
  dsimp only at hp
  cases pr with
  | true =>
    refine ⟨_, rfl, by
      show Instr.vtos (d) (a) (b) ⟨true, (fo), (ro), bit (bitN ze), (ma), bit (bitN co), bit (bitN f4)⟩ = _
      simp only [bit_bitN, BitVec.ofNat_toNat, BitVec.setWidth_eq], ?_⟩
    show fits [kf 0 2 1, kf 2 6 0x3E, rf 8 9, pf 17 1, pf 18 1, pf 19 3, pf 22 1, pf 23 3, pf 26 6, kf 32 2 0, kf 34 6 0x21, kf 58 6 26, pf 52 6, pf 46 6, pf 40 6] [bitN f4, bitN co, ma, bitN ze, ro, fo, d, a, b] = true
    have b_co := bitN_lt co
    have b_f4 := bitN_lt f4
    have b_ze := bitN_lt ze
    simp only [fits_par, fits_key, fits_rf, fits_cf, fits_zf, fits_nil, Bool.and_eq_true, decide_eq_true_eq, Bool.and_true]
    omega
  | false =>
    obtain ⟨_, _, _, hn⟩ := hp
    obtain ⟨rfl, rfl, rfl, rfl, rfl, rfl⟩ : fo = 0 ∧ ro = 0 ∧ ze = false ∧ ma = 0 ∧ co = false ∧ f4 = false := by
      simpa [Pfx.none] using hn rfl
    refine ⟨_, rfl, rfl, ?_⟩
    show fits [kf 0 2 0, kf 2 6 0x21, kf 26 6 26, pf 20 6, pf 14 6, pf 8 6] [d, a, b] = true
    simp only [fits_par, fits_key, fits_rf, fits_cf, fits_zf, fits_nil, Bool.and_eq_true, decide_eq_true_eq, Bool.and_true]
    omega

theorem Shape.kand (d : Nat) (a : Nat) (b : Nat) (p : Pfx) : Shape.Statement (.kand d a b p) := by
  intro h hf _
  have hf : ckK h d (20 + p.shift) ++ ckK h a (14 + p.shift) ++ ckK h b (8 + p.shift) ++ p.plain h = [] := hf
  simp only [List.append_eq_nil_iff] at hf
  have e0 := (ckK_nil ..).1 hf.1.1.1
  have e1 := (ckK_nil ..).1 hf.1.1.2
  have e2 := (ckK_nil ..).1 hf.1.2
  have hp := plain_fits hf.2
  have l48 := lim_le h 4 8 (by decide)
  simp only [pfxFits] at hp
  obtain ⟨pr, fo, ro, ze, ma, co, f4⟩ := p
  dsimp only at hp
  cases pr with
  | true =>
    refine ⟨_, rfl, by
      show Instr.kand (d) (a) (b) ⟨true, (fo), (ro), bit (bitN ze), (ma), bit (bitN co), bit (bitN f4)⟩ = _
      simp only [bit_bitN, BitVec.ofNat_toNat, BitVec.setWidth_eq], ?_⟩
    show fits [kf 0 2 1, kf 2 6 0x3E, rf 8 9, pf 17 1, pf 18 1, pf 19 3, pf 22 1, pf 23 3, pf 26 6, kf 32 2 0, kf 34 6 0x22, kf 58 6 0, pf 52 6, pf 46 6, pf 40 6] [bitN f4, bitN co, ma, bitN ze, ro, fo, d, a, b] = true
    have b_co := bitN_lt co
    have b_f4 := bitN_lt f4
    have b_ze := bitN_lt ze
    simp only [fits_par, fits_key, fits_rf, fits_cf, fits_zf, fits_nil, Bool.and_eq_true, decide_eq_true_eq, Bool.and_true]
    omega
  | false =>
    obtain ⟨_, _, _, hn⟩ := hp
    obtain ⟨rfl, rfl, rfl, rfl, rfl, rfl⟩ : fo = 0 ∧ ro = 0 ∧ ze = false ∧ ma = 0 ∧ co = false ∧ f4 = false := by
      simpa [Pfx.none] using hn rfl
    refine ⟨_, rfl, rfl, ?_⟩
    show fits [kf 0 2 0, kf 2 6 0x22, kf 26 6 0, pf 20 6, pf 14 6, pf 8 6] [d, a, b] = true
    simp only [fits_par, fits_key, fits_rf, fits_cf, fits_zf, fits_nil, Bool.and_eq_true, decide_eq_true_eq, Bool.and_true]
    omega

theorem Shape.kor (d : Nat) (a : Nat) (b : Nat) (p : Pfx) : Shape.Statement (.kor d a b p) := by
  intro h hf _
  have hf : ckK h d (20 + p.shift) ++ ckK h a (14 + p.shift) ++ ckK h b (8 + p.shift) ++ p.plain h = [] := hf
  simp only [List.append_eq_nil_iff] at hf
  have e0 := (ckK_nil ..).1 hf.1.1.1
  have e1 := (ckK_nil ..).1 hf.1.1.2
  have e2 := (ckK_nil ..).1 hf.1.2
  have hp := plain_fits hf.2
  have l48 := lim_le h 4 8 (by decide)
  simp only [pfxFits] at hp
  obtain ⟨pr, fo, ro, ze, ma, co, f4⟩ := p
  dsimp only at hp
  cases pr with
  | true =>
    refine ⟨_, rfl, by
      show Instr.kor (d) (a) (b) ⟨true, (fo), (ro), bit (bitN ze), (ma), bit (bitN co), bit (bitN f4)⟩ = _
      simp only [bit_bitN, BitVec.ofNat_toNat, BitVec.setWidth_eq], ?_⟩
    show fits [kf 0 2 1, kf 2 6 0x3E, rf 8 9, pf 17 1, pf 18 1, pf 19 3, pf 22 1, pf 23 3, pf 26 6, kf 32 2 0, kf 34 6 0x22, kf 58 6 1, pf 52 6, pf 46 6, pf 40 6] [bitN f4, bitN co, ma, bitN ze, ro, fo, d, a, b] = true
    have b_co := bitN_lt co
    have b_f4 := bitN_lt f4
    have b_ze := bitN_lt ze
    simp only [fits_par, fits_key, fits_rf, fits_cf, fits_zf, fits_nil, Bool.and_eq_true, decide_eq_true_eq, Bool.and_true]
    omega
  | false =>
    obtain ⟨_, _, _, hn⟩ := hp
    obtain ⟨rfl, rfl, rfl, rfl, rfl, rfl⟩ : fo = 0 ∧ ro = 0 ∧ ze = false ∧ ma = 0 ∧ co = false ∧ f4 = false := by
      simpa [Pfx.none] using hn rfl
    refine ⟨_, rfl, rfl, ?_⟩
    show fits [kf 0 2 0, kf 2 6 0x22, kf 26 6 1, pf 20 6, pf 14 6, pf 8 6] [d, a, b] = true
    simp only [fits_par, fits_key, fits_rf, fits_cf, fits_zf, fits_nil, Bool.and_eq_true, decide_eq_true_eq, Bool.and_true]
    omega

theorem Shape.kxor (d : Nat) (a : Nat) (b : Nat) (p : Pfx) : Shape.Statement (.kxor d a b p) := by
  intro h hf _
  have hf : ckK h d (20 + p.shift) ++ ckK h a (14 + p.shift) ++ ckK h b (8 + p.shift) ++ p.plain h = [] := hf
  simp only [List.append_eq_nil_iff] at hf
  have e0 := (ckK_nil ..).1 hf.1.1.1
  have e1 := (ckK_nil ..).1 hf.1.1.2
  have e2 := (ckK_nil ..).1 hf.1.2
  have hp := plain_fits hf.2
  have l48 := lim_le h 4 8 (by decide)
  simp only [pfxFits] at hp
  obtain ⟨pr, fo, ro, ze, ma, co, f4⟩ := p
  dsimp only at hp
  cases pr with
  | true =>
    refine ⟨_, rfl, by
      show Instr.kxor (d) (a) (b) ⟨true, (fo), (ro), bit (bitN ze), (ma), bit (bitN co), bit (bitN f4)⟩ = _
      simp only [bit_bitN, BitVec.ofNat_toNat, BitVec.setWidth_eq], ?_⟩
    show fits [kf 0 2 1, kf 2 6 0x3E, rf 8 9, pf 17 1, pf 18 1, pf 19 3, pf 22 1, pf 23 3, pf 26 6, kf 32 2 0, kf 34 6 0x22, kf 58 6 2, pf 52 6, pf 46 6, pf 40 6] [bitN f4, bitN co, ma, bitN ze, ro, fo, d, a, b] = true
    have b_co := bitN_lt co
    have b_f4 := bitN_lt f4
    have b_ze := bitN_lt ze
    simp only [fits_par, fits_key, fits_rf, fits_cf, fits_zf, fits_nil, Bool.and_eq_true, decide_eq_true_eq, Bool.and_true]
    omega
  | false =>
    obtain ⟨_, _, _, hn⟩ := hp
    obtain ⟨rfl, rfl, rfl, rfl, rfl, rfl⟩ : fo = 0 ∧ ro = 0 ∧ ze = false ∧ ma = 0 ∧ co = false ∧ f4 = false := by
      simpa [Pfx.none] using hn rfl
    refine ⟨_, rfl, rfl, ?_⟩
    show fits [kf 0 2 0, kf 2 6 0x22, kf 26 6 2, pf 20 6, pf 14 6, pf 8 6] [d, a, b] = true
    simp only [fits_par, fits_key, fits_rf, fits_cf, fits_zf, fits_nil, Bool.and_eq_true, decide_eq_true_eq, Bool.and_true]
    omega

theorem Shape.kandn (d : Nat) (a : Nat) (b : Nat) (p : Pfx) : Shape.Statement (.kandn d a b p) := by
  intro h hf _
  have hf : ckK h d (20 + p.shift) ++ ckK h a (14 + p.shift) ++ ckK h b (8 + p.shift) ++ p.plain h = [] := hf
  simp only [List.append_eq_nil_iff] at hf
  have e0 := (ckK_nil ..).1 hf.1.1.1
  have e1 := (ckK_nil ..).1 hf.1.1.2
  have e2 := (ckK_nil ..).1 hf.1.2
  have hp := plain_fits hf.2
  have l48 := lim_le h 4 8 (by decide)
  simp only [pfxFits] at hp
  obtain ⟨pr, fo, ro, ze, ma, co, f4⟩ := p
  dsimp only at hp
  cases pr with
  | true =>
    refine ⟨_, rfl, by
      show Instr.kandn (d) (a) (b) ⟨true, (fo), (ro), bit (bitN ze), (ma), bit (bitN co), bit (bitN f4)⟩ = _
      simp only [bit_bitN, BitVec.ofNat_toNat, BitVec.setWidth_eq], ?_⟩
    show fits [kf 0 2 1, kf 2 6 0x3E, rf 8 9, pf 17 1, pf 18 1, pf 19 3, pf 22 1, pf 23 3, pf 26 6, kf 32 2 0, kf 34 6 0x22, kf 58 6 3, pf 52 6, pf 46 6, pf 40 6] [bitN f4, bitN co, ma, bitN ze, ro, fo, d, a, b] = true
    have b_co := bitN_lt co
    have b_f4 := bitN_lt f4
    have b_ze := bitN_lt ze
    simp only [fits_par, fits_key, fits_rf, fits_cf, fits_zf, fits_nil, Bool.and_eq_true, decide_eq_true_eq, Bool.and_true]
    omega
  | false =>
    obtain ⟨_, _, _, hn⟩ := hp
    obtain ⟨rfl, rfl, rfl, rfl, rfl, rfl⟩ : fo = 0 ∧ ro = 0 ∧ ze = false ∧ ma = 0 ∧ co = false ∧ f4 = false := by
      simpa [Pfx.none] using hn rfl
    refine ⟨_, rfl, rfl, ?_⟩
    show fits [kf 0 2 0, kf 2 6 0x22, kf 26 6 3, pf 20 6, pf 14 6, pf 8 6] [d, a, b] = true
    simp only [fits_par, fits_key, fits_rf, fits_cf, fits_zf, fits_nil, Bool.and_eq_true, decide_eq_true_eq, Bool.and_true]
    omega

theorem Shape.knot (d : Nat) (a : Nat) (p : Pfx) : Shape.Statement (.knot d a p) := by
  intro h hf _
  have hf : ckK h d (20 + p.shift) ++ ckK h a (14 + p.shift) ++ p.plain h = [] := hf
  simp only [List.append_eq_nil_iff] at hf
  have e0 := (ckK_nil ..).1 hf.1.1
  have e1 := (ckK_nil ..).1 hf.1.2
  have hp := plain_fits hf.2
  have l48 := lim_le h 4 8 (by decide)
  simp only [pfxFits] at hp
  obtain ⟨pr, fo, ro, ze, ma, co, f4⟩ := p
  dsimp only at hp
  cases pr with
  | true =>
    refine ⟨_, rfl, by
      show Instr.knot (d) (a) ⟨true, (fo), (ro), bit (bitN ze), (ma), bit (bitN co), bit (bitN f4)⟩ = _
      simp only [bit_bitN, BitVec.ofNat_toNat, BitVec.setWidth_eq], ?_⟩
    show fits [kf 0 2 1, kf 2 6 0x3E, rf 8 9, pf 17 1, pf 18 1, pf 19 3, pf 22 1, pf 23 3, pf 26 6, kf 32 2 0, kf 34 6 0x22, kf 58 6 4, pf 52 6, pf 46 6, rf 40 6] [bitN f4, bitN co, ma, bitN ze, ro, fo, d, a] = true
    have b_co := bitN_lt co
    have b_f4 := bitN_lt f4
    have b_ze := bitN_lt ze
    simp only [fits_par, fits_key, fits_rf, fits_cf, fits_zf, fits_nil, Bool.and_eq_true, decide_eq_true_eq, Bool.and_true]
    omega
  | false =>
    obtain ⟨_, _, _, hn⟩ := hp
    obtain ⟨rfl, rfl, rfl, rfl, rfl, rfl⟩ : fo = 0 ∧ ro = 0 ∧ ze = false ∧ ma = 0 ∧ co = false ∧ f4 = false := by
      simpa [Pfx.none] using hn rfl
    refine ⟨_, rfl, rfl, ?_⟩
    show fits [kf 0 2 0, kf 2 6 0x22, kf 26 6 4, pf 20 6, pf 14 6, rf 8 6] [d, a] = true
    simp only [fits_par, fits_key, fits_rf, fits_cf, fits_zf, fits_nil, Bool.and_eq_true, decide_eq_true_eq, Bool.and_true]
    omega

theorem Shape.kmov (d : Nat) (a : Nat) (p : Pfx) : Shape.Statement (.kmov d a p) := by
  intro h hf _
  have hf : ckK h d (20 + p.shift) ++ ckK h a (14 + p.shift) ++ p.plain h = [] := hf
  simp only [List.append_eq_nil_iff] at hf
  have e0 := (ckK_nil ..).1 hf.1.1
  have e1 := (ckK_nil ..).1 hf.1.2
  have hp := plain_fits hf.2
  have l48 := lim_le h 4 8 (by decide)
  simp only [pfxFits] at hp
  obtain ⟨pr, fo, ro, ze, ma, co, f4⟩ := p
  dsimp only at hp
  cases pr with
  | true =>
    refine ⟨_, rfl, by
      show Instr.kmov (d) (a) ⟨true, (fo), (ro), bit (bitN ze), (ma), bit (bitN co), bit (bitN f4)⟩ = _
      simp only [bit_bitN, BitVec.ofNat_toNat, BitVec.setWidth_eq], ?_⟩
    show fits [kf 0 2 1, kf 2 6 0x3E, rf 8 9, pf 17 1, pf 18 1, pf 19 3, pf 22 1, pf 23 3, pf 26 6, kf 32 2 0, kf 34 6 0x22, kf 58 6 5, pf 52 6, pf 46 6, rf 40 6] [bitN f4, bitN co, ma, bitN ze, ro, fo, d, a] = true
    have b_co := bitN_lt co
    have b_f4 := bitN_lt f4
    have b_ze := bitN_lt ze
    simp only [fits_par, fits_key, fits_rf, fits_cf, fits_zf, fits_nil, Bool.and_eq_true, decide_eq_true_eq, Bool.and_true]
    omega
  | false =>
    obtain ⟨_, _, _, hn⟩ := hp
    obtain ⟨rfl, rfl, rfl, rfl, rfl, rfl⟩ : fo = 0 ∧ ro = 0 ∧ ze = false ∧ ma = 0 ∧ co = false ∧ f4 = false := by
      simpa [Pfx.none] using hn rfl
    refine ⟨_, rfl, rfl, ?_⟩
    show fits [kf 0 2 0, kf 2 6 0x22, kf 26 6 5, pf 20 6, pf 14 6, rf 8 6] [d, a] = true
    simp only [fits_par, fits_key, fits_rf, fits_cf, fits_zf, fits_nil, Bool.and_eq_true, decide_eq_true_eq, Bool.and_true]
    omega

theorem Shape.kpxor (d : Nat) (a : Nat) (b : Nat) (p : Pfx) : Shape.Statement (.kpxor d a b p) := by
  intro h hf _
  have hf : ckK h d (20 + p.shift) ++ ckK h a (14 + p.shift) ++ ckSs h b (8 + p.shift) ++ p.k0 h = [] := hf
  simp only [List.append_eq_nil_iff] at hf
  have e0 := (ckK_nil ..).1 hf.1.1.1
  have e1 := (ckK_nil ..).1 hf.1.1.2
  have e2 := (ckSs_nil ..).1 hf.1.2
  have hp := k0_fits hf.2
  have l1648 := lim_le h 16 48 (by decide)
  have l48 := lim_le h 4 8 (by decide)
  simp only [pfxFits] at hp
  obtain ⟨pr, fo, ro, ze, ma, co, f4⟩ := p
  dsimp only at hp
  cases pr with
  | true =>
    refine ⟨_, rfl, by
      show Instr.kpxor (d) (a) (b) ⟨true, (fo), (ro), bit (bitN ze), (ma), bit (bitN co), bit (bitN f4)⟩ = _
      simp only [bit_bitN, BitVec.ofNat_toNat, BitVec.setWidth_eq], ?_⟩
    show fits [kf 0 2 1, kf 2 6 0x3E, rf 8 9, pf 17 1, pf 18 1, pf 19 3, pf 22 1, pf 23 3, pf 26 6, kf 32 2 0, kf 34 6 0x22, kf 58 6 6, pf 52 6, pf 46 6, pf 40 6] [bitN f4, bitN co, ma, bitN ze, ro, fo, d, a, b] = true
    have b_co := bitN_lt co
    have b_f4 := bitN_lt f4
    have b_ze := bitN_lt ze
    simp only [fits_par, fits_key, fits_rf, fits_cf, fits_zf, fits_nil, Bool.and_eq_true, decide_eq_true_eq, Bool.and_true]
    omega
  | false =>
    obtain ⟨_, _, _, hn⟩ := hp
    obtain ⟨rfl, rfl, rfl, rfl, rfl, rfl⟩ : fo = 0 ∧ ro = 0 ∧ ze = false ∧ ma = 0 ∧ co = false ∧ f4 = false := by
      simpa [Pfx.none] using hn rfl
    refine ⟨_, rfl, rfl, ?_⟩
    show fits [kf 0 2 0, kf 2 6 0x22, kf 26 6 6, pf 20 6, pf 14 6, pf 8 6] [d, a, b] = true
    simp only [fits_par, fits_key, fits_rf, fits_cf, fits_zf, fits_nil, Bool.and_eq_true, decide_eq_true_eq, Bool.and_true]
    omega

theorem Shape.ktos (d : Nat) (a : Nat) (b : Nat) (p : Pfx) : Shape.Statement (.ktos d a b p) := by
  intro h hf _
  have hf : ckSd h d (20 + p.shift) ++ ckK h a (14 + p.shift) ++ ckSs h b (8 + p.shift) ++ p.scalar h = [] := hf
  simp only [List.append_eq_nil_iff] at hf
  have e0 := (ckSd_nil ..).1 hf.1.1.1
  have e1 := (ckK_nil ..).1 hf.1.1.2
  have e2 := (ckSs_nil ..).1 hf.1.2
  have hp := scalar_fits hf.2
  have l1648 := lim_le h 16 48 (by decide)
  have l48 := lim_le h 4 8 (by decide)
  simp only [pfxFits] at hp
  obtain ⟨pr, fo, ro, ze, ma, co, f4⟩ := p
  dsimp only at hp
  cases pr with
  | true =>
    refine ⟨_, rfl, by
      show Instr.ktos (d) (a) (b) ⟨true, (fo), (ro), bit (bitN ze), (ma), bit (bitN co), bit (bitN f4)⟩ = _
      simp only [bit_bitN, BitVec.ofNat_toNat, BitVec.setWidth_eq], ?_⟩
    show fits [kf 0 2 1, kf 2 6 0x3E, rf 8 9, pf 17 1, pf 18 1, pf 19 3, pf 22 1, pf 23 3, pf 26 6, kf 32 2 0, kf 34 6 0x22, kf 58 6 7, pf 52 6, pf 46 6, pf 40 6] [bitN f4, bitN co, ma, bitN ze, ro, fo, d, a, b] = true
    have b_co := bitN_lt co
    have b_f4 := bitN_lt f4
    have b_ze := bitN_lt ze
    simp only [fits_par, fits_key, fits_rf, fits_cf, fits_zf, fits_nil, Bool.and_eq_true, decide_eq_true_eq, Bool.and_true]
    omega
  | false =>
    obtain ⟨_, _, _, hn⟩ := hp
    obtain ⟨rfl, rfl, rfl, rfl, rfl, rfl⟩ : fo = 0 ∧ ro = 0 ∧ ze = false ∧ ma = 0 ∧ co = false ∧ f4 = false := by
      simpa [Pfx.none] using hn rfl
    refine ⟨_, rfl, rfl, ?_⟩
    show fits [kf 0 2 0, kf 2 6 0x22, kf 26 6 7, pf 20 6, pf 14 6, pf 8 6] [d, a, b] = true
    simp only [fits_par, fits_key, fits_rf, fits_cf, fits_zf, fits_nil, Bool.and_eq_true, decide_eq_true_eq, Bool.and_true]
    omega

theorem Shape.stok (d : Nat) (a : Nat) (b : Nat) (p : Pfx) : Shape.Statement (.stok d a b p) := by
  intro h hf _
  have hf : ckK h d (20 + p.shift) ++ ckSs h a (14 + p.shift) ++ ckSs h b (8 + p.shift) ++ p.k0 h = [] := hf
  simp only [List.append_eq_nil_iff] at hf
  have e0 := (ckK_nil ..).1 hf.1.1.1
  have e1 := (ckSs_nil ..).1 hf.1.1.2
  have e2 := (ckSs_nil ..).1 hf.1.2
  have hp := k0_fits hf.2
  have l1648 := lim_le h 16 48 (by decide)
  have l48 := lim_le h 4 8 (by decide)
  simp only [pfxFits] at hp
  obtain ⟨pr, fo, ro, ze, ma, co, f4⟩ := p
  dsimp only at hp
  cases pr with
  | true =>
    refine ⟨_, rfl, by
      show Instr.stok (d) (a) (b) ⟨true, (fo), (ro), bit (bitN ze), (ma), bit (bitN co), bit (bitN f4)⟩ = _
      simp only [bit_bitN, BitVec.ofNat_toNat, BitVec.setWidth_eq], ?_⟩
    show fits [kf 0 2 1, kf 2 6 0x3E, rf 8 9, pf 17 1, pf 18 1, pf 19 3, pf 22 1, pf 23 3, pf 26 6, kf 32 2 0, kf 34 6 0x22, kf 58 6 8, pf 52 6, pf 46 6, pf 40 6] [bitN f4, bitN co, ma, bitN ze, ro, fo, d, a, b] = true
    have b_co := bitN_lt co
    have b_f4 := bitN_lt f4
    have b_ze := bitN_lt ze
    simp only [fits_par, fits_key, fits_rf, fits_cf, fits_zf, fits_nil, Bool.and_eq_true, decide_eq_true_eq, Bool.and_true]
    omega
  | false =>
    obtain ⟨_, _, _, hn⟩ := hp
    obtain ⟨rfl, rfl, rfl, rfl, rfl, rfl⟩ : fo = 0 ∧ ro = 0 ∧ ze = false ∧ ma = 0 ∧ co = false ∧ f4 = false := by
      simpa [Pfx.none] using hn rfl
    refine ⟨_, rfl, rfl, ?_⟩
    show fits [kf 0 2 0, kf 2 6 0x22, kf 26 6 8, pf 20 6, pf 14 6, pf 8 6] [d, a, b] = true
    simp only [fits_par, fits_key, fits_rf, fits_cf, fits_zf, fits_nil, Bool.and_eq_true, decide_eq_true_eq, Bool.and_true]
    omega

theorem Shape.kpopc (d : Nat) (a : Nat) (p : Pfx) : Shape.Statement (.kpopc d a p) := by
  intro h hf _
  have hf : ckSd h d (20 + p.shift) ++ ckK h a (14 + p.shift) ++ p.scalar h = [] := hf
  simp only [List.append_eq_nil_iff] at hf
  have e0 := (ckSd_nil ..).1 hf.1.1
  have e1 := (ckK_nil ..).1 hf.1.2
  have hp := scalar_fits hf.2
  have l1648 := lim_le h 16 48 (by decide)
  have l48 := lim_le h 4 8 (by decide)
  simp only [pfxFits] at hp
  obtain ⟨pr, fo, ro, ze, ma, co, f4⟩ := p
  dsimp only at hp
  cases pr with
  | true =>
    refine ⟨_, rfl, by
      show Instr.kpopc (d) (a) ⟨true, (fo), (ro), bit (bitN ze), (ma), bit (bitN co), bit (bitN f4)⟩ = _
      simp only [bit_bitN, BitVec.ofNat_toNat, BitVec.setWidth_eq], ?_⟩
    show fits [kf 0 2 1, kf 2 6 0x3E, rf 8 9, pf 17 1, pf 18 1, pf 19 3, pf 22 1, pf 23 3, pf 26 6, kf 32 2 0, kf 34 6 0x22, kf 58 6 9, pf 52 6, pf 46 6, rf 40 6] [bitN f4, bitN co, ma, bitN ze, ro, fo, d, a] = true
    have b_co := bitN_lt co
    have b_f4 := bitN_lt f4
    have b_ze := bitN_lt ze
    simp only [fits_par, fits_key, fits_rf, fits_cf, fits_zf, fits_nil, Bool.and_eq_true, decide_eq_true_eq, Bool.and_true]
    omega
  | false =>
    obtain ⟨_, _, _, hn⟩ := hp
    obtain ⟨rfl, rfl, rfl, rfl, rfl, rfl⟩ : fo = 0 ∧ ro = 0 ∧ ze = false ∧ ma = 0 ∧ co = false ∧ f4 = false := by
      simpa [Pfx.none] using hn rfl
    refine ⟨_, rfl, rfl, ?_⟩
    show fits [kf 0 2 0, kf 2 6 0x22, kf 26 6 9, pf 20 6, pf 14 6, rf 8 6] [d, a] = true
    simp only [fits_par, fits_key, fits_rf, fits_cf, fits_zf, fits_nil, Bool.and_eq_true, decide_eq_true_eq, Bool.and_true]
    omega

theorem Shape.klen (d : Nat) (a : Nat) (p : Pfx) : Shape.Statement (.klen d a p) := by
  intro h hf _
  have hf : ckSd h d (20 + p.shift) ++ ckK h a (14 + p.shift) ++ p.scalar h = [] := hf
  simp only [List.append_eq_nil_iff] at hf
  have e0 := (ckSd_nil ..).1 hf.1.1
  have e1 := (ckK_nil ..).1 hf.1.2
  have hp := scalar_fits hf.2
  have l1648 := lim_le h 16 48 (by decide)
  have l48 := lim_le h 4 8 (by decide)
  simp only [pfxFits] at hp
  obtain ⟨pr, fo, ro, ze, ma, co, f4⟩ := p
  dsimp only at hp
  cases pr with
  | true =>
    refine ⟨_, rfl, by
      show Instr.klen (d) (a) ⟨true, (fo), (ro), bit (bitN ze), (ma), bit (bitN co), bit (bitN f4)⟩ = _
      simp only [bit_bitN, BitVec.ofNat_toNat, BitVec.setWidth_eq], ?_⟩
    show fits [kf 0 2 1, kf 2 6 0x3E, rf 8 9, pf 17 1, pf 18 1, pf 19 3, pf 22 1, pf 23 3, pf 26 6, kf 32 2 0, kf 34 6 0x22, kf 58 6 10, pf 52 6, pf 46 6, rf 40 6] [bitN f4, bitN co, ma, bitN ze, ro, fo, d, a] = true
    have b_co := bitN_lt co
    have b_f4 := bitN_lt f4
    have b_ze := bitN_lt ze
    simp only [fits_par, fits_key, fits_rf, fits_cf, fits_zf, fits_nil, Bool.and_eq_true, decide_eq_true_eq, Bool.and_true]
    omega
  | false =>
    obtain ⟨_, _, _, hn⟩ := hp
    obtain ⟨rfl, rfl, rfl, rfl, rfl, rfl⟩ : fo = 0 ∧ ro = 0 ∧ ze = false ∧ ma = 0 ∧ co = false ∧ f4 = false := by
      simpa [Pfx.none] using hn rfl
    refine ⟨_, rfl, rfl, ?_⟩
    show fits [kf 0 2 0, kf 2 6 0x22, kf 26 6 10, pf 20 6, pf 14 6, rf 8 6] [d, a] = true
    simp only [fits_par, fits_key, fits_rf, fits_cf, fits_zf, fits_nil, Bool.and_eq_true, decide_eq_true_eq, Bool.and_true]
    omega

theorem Shape.vld (d : Nat) (a : Nat) (b : Nat) (w : Nat) (mask : Nat) (zero : Bool) (m : Addr) (x : Ext) : Shape.Statement (.vld d a b w mask zero m x) := by
  intro h hf _
  have hf : ckV h d 20 ++ ckSs h a 14 ++ ckSs h b 8 ++ ckN 3 w 41 ++ ckK h mask 38 ++ m.faults ++ x.load h = [] := hf
  simp only [List.append_eq_nil_iff] at hf
  have e0 := (ckV_nil ..).1 hf.1.1.1.1.1.1
  have e1 := (ckSs_nil ..).1 hf.1.1.1.1.1.2
  have e2 := (ckSs_nil ..).1 hf.1.1.1.1.2
  have e3 := (ckN_nil ..).1 hf.1.1.1.2
  have e4 := (ckK_nil ..).1 hf.1.1.2
  have hm := addr_fits hf.1.2
  have hx := load_fits hf.2
  have l1648 := lim_le h 16 48 (by decide)
  have l416 := lim_le h 4 16 (by decide)
  have l48 := lim_le h 4 8 (by decide)
  simp only [extFits] at hx
  obtain ⟨sp, cs, off⟩ := m
  dsimp only at hm
  cases off with
  | disp o =>
    refine ⟨_, rfl, by
      show Instr.vld (d) (a) (b) (w) (mask) (bit (bitN zero)) ⟨(sp), (cs), .disp (BitVec.ofNat 32 (o.toNat))⟩ ⟨(x.ahead), (x.scope), (x.ord), (x.wait), bit (bitN x.g), (x.gslot), bit (bitN x.ginv)⟩ = _
      simp only [bit_bitN, BitVec.ofNat_toNat, BitVec.setWidth_eq], ?_⟩
    show fits [kf 0 2 2, kf 2 6 35, kf 26 6 0, pf 20 6, pf 14 6, pf 8 6, pf 41 2, pf 38 3, pf 37 1, rf 35 2, rf 32 3, pf 45 2, pf 43 2, pf 60 4, pf 57 3, pf 55 2, pf 53 2, pf 52 1, pf 48 4, pf 47 1, pf 64 32] [d, a, b, w, mask, bitN zero, sp, cs, x.ahead, x.scope, x.ord, x.wait, bitN x.g, x.gslot, bitN x.ginv, o.toNat] = true
    have b_x_g := bitN_lt x.g
    have b_x_ginv := bitN_lt x.ginv
    have b_zero := bitN_lt zero
    have t_o := o.isLt
    simp only [fits_par, fits_key, fits_rf, fits_cf, fits_zf, fits_nil, Bool.and_eq_true, decide_eq_true_eq, Bool.and_true]
    omega
  | lit o =>
    refine ⟨_, rfl, by
      show Instr.vld (d) (a) (b) (w) (mask) (bit (bitN zero)) ⟨(sp), (cs), .lit (BitVec.ofNat 64 (o.toNat))⟩ ⟨(x.ahead), (x.scope), (x.ord), (x.wait), bit (bitN x.g), (x.gslot), bit (bitN x.ginv)⟩ = _
      simp only [bit_bitN, BitVec.ofNat_toNat, BitVec.setWidth_eq], ?_⟩
    show fits [kf 0 2 3, kf 2 6 35, kf 26 6 0, pf 20 6, pf 14 6, pf 8 6, pf 41 2, pf 38 3, pf 37 1, rf 35 2, rf 32 3, pf 45 2, pf 43 2, pf 60 4, pf 57 3, pf 55 2, pf 53 2, pf 52 1, pf 48 4, pf 47 1, zf 64 32, pf 96 64] [d, a, b, w, mask, bitN zero, sp, cs, x.ahead, x.scope, x.ord, x.wait, bitN x.g, x.gslot, bitN x.ginv, o.toNat] = true
    have b_x_g := bitN_lt x.g
    have b_x_ginv := bitN_lt x.ginv
    have b_zero := bitN_lt zero
    have t_o := o.isLt
    simp only [fits_par, fits_key, fits_rf, fits_cf, fits_zf, fits_nil, Bool.and_eq_true, decide_eq_true_eq, Bool.and_true]
    omega

theorem Shape.vst (d : Nat) (a : Nat) (w : Nat) (mask : Nat) (m : Addr) (x : Ext) : Shape.Statement (.vst d a w mask m x) := by
  intro h hf _
  have hf : ckV h d 20 ++ ckSs h a 14 ++ ckN 3 w 41 ++ ckK h mask 38 ++ m.faults ++ x.store h = [] := hf
  simp only [List.append_eq_nil_iff] at hf
  have e0 := (ckV_nil ..).1 hf.1.1.1.1.1
  have e1 := (ckSs_nil ..).1 hf.1.1.1.1.2
  have e2 := (ckN_nil ..).1 hf.1.1.1.2
  have e3 := (ckK_nil ..).1 hf.1.1.2
  have hm := addr_fits hf.1.2
  have hx := store_fits hf.2
  have l1648 := lim_le h 16 48 (by decide)
  have l416 := lim_le h 4 16 (by decide)
  have l48 := lim_le h 4 8 (by decide)
  simp only [extFits] at hx
  obtain ⟨sp, cs, off⟩ := m
  dsimp only at hm
  cases off with
  | disp o =>
    refine ⟨_, rfl, by
      show Instr.vst (d) (a) (w) (mask) ⟨(sp), (cs), .disp (BitVec.ofNat 32 (o.toNat))⟩ ⟨(x.ahead), (x.scope), (x.ord), (x.wait), bit (bitN x.g), (x.gslot), bit (bitN x.ginv)⟩ = _
      simp only [bit_bitN, BitVec.ofNat_toNat, BitVec.setWidth_eq], ?_⟩
    show fits [kf 0 2 2, kf 2 6 35, kf 26 6 1, pf 20 6, pf 14 6, rf 8 6, pf 41 2, pf 38 3, rf 37 1, rf 35 2, rf 32 3, pf 45 2, pf 43 2, pf 60 4, pf 57 3, pf 55 2, pf 53 2, pf 52 1, pf 48 4, pf 47 1, pf 64 32] [d, a, w, mask, sp, cs, x.ahead, x.scope, x.ord, x.wait, bitN x.g, x.gslot, bitN x.ginv, o.toNat] = true
    have b_x_g := bitN_lt x.g
    have b_x_ginv := bitN_lt x.ginv
    have t_o := o.isLt
    simp only [fits_par, fits_key, fits_rf, fits_cf, fits_zf, fits_nil, Bool.and_eq_true, decide_eq_true_eq, Bool.and_true]
    omega
  | lit o =>
    refine ⟨_, rfl, by
      show Instr.vst (d) (a) (w) (mask) ⟨(sp), (cs), .lit (BitVec.ofNat 64 (o.toNat))⟩ ⟨(x.ahead), (x.scope), (x.ord), (x.wait), bit (bitN x.g), (x.gslot), bit (bitN x.ginv)⟩ = _
      simp only [bit_bitN, BitVec.ofNat_toNat, BitVec.setWidth_eq], ?_⟩
    show fits [kf 0 2 3, kf 2 6 35, kf 26 6 1, pf 20 6, pf 14 6, rf 8 6, pf 41 2, pf 38 3, rf 37 1, rf 35 2, rf 32 3, pf 45 2, pf 43 2, pf 60 4, pf 57 3, pf 55 2, pf 53 2, pf 52 1, pf 48 4, pf 47 1, zf 64 32, pf 96 64] [d, a, w, mask, sp, cs, x.ahead, x.scope, x.ord, x.wait, bitN x.g, x.gslot, bitN x.ginv, o.toNat] = true
    have b_x_g := bitN_lt x.g
    have b_x_ginv := bitN_lt x.ginv
    have t_o := o.isLt
    simp only [fits_par, fits_key, fits_rf, fits_cf, fits_zf, fits_nil, Bool.and_eq_true, decide_eq_true_eq, Bool.and_true]
    omega

theorem Shape.vldr (d : Nat) (a : Nat) (b : Nat) (m : Addr) (x : Ext) : Shape.Statement (.vldr d a b m x) := by
  intro h hf _
  have hf : ckV h d 20 ++ ckSs h a 14 ++ ckSs h b 8 ++ m.faults ++ x.load h = [] := hf
  simp only [List.append_eq_nil_iff] at hf
  have e0 := (ckV_nil ..).1 hf.1.1.1.1
  have e1 := (ckSs_nil ..).1 hf.1.1.1.2
  have e2 := (ckSs_nil ..).1 hf.1.1.2
  have hm := addr_fits hf.1.2
  have hx := load_fits hf.2
  have l1648 := lim_le h 16 48 (by decide)
  have l416 := lim_le h 4 16 (by decide)
  simp only [extFits] at hx
  obtain ⟨sp, cs, off⟩ := m
  dsimp only at hm
  cases off with
  | disp o =>
    refine ⟨_, rfl, by
      show Instr.vldr (d) (a) (b) ⟨(sp), (cs), .disp (BitVec.ofNat 32 (o.toNat))⟩ ⟨(x.ahead), (x.scope), (x.ord), (x.wait), bit (bitN x.g), (x.gslot), bit (bitN x.ginv)⟩ = _
      simp only [bit_bitN, BitVec.ofNat_toNat, BitVec.setWidth_eq], ?_⟩
    show fits [kf 0 2 2, kf 2 6 35, kf 26 6 2, pf 20 6, pf 14 6, pf 8 6, rf 41 2, rf 38 3, rf 37 1, rf 35 2, rf 32 3, pf 45 2, pf 43 2, pf 60 4, pf 57 3, pf 55 2, pf 53 2, pf 52 1, pf 48 4, pf 47 1, pf 64 32] [d, a, b, sp, cs, x.ahead, x.scope, x.ord, x.wait, bitN x.g, x.gslot, bitN x.ginv, o.toNat] = true
    have b_x_g := bitN_lt x.g
    have b_x_ginv := bitN_lt x.ginv
    have t_o := o.isLt
    simp only [fits_par, fits_key, fits_rf, fits_cf, fits_zf, fits_nil, Bool.and_eq_true, decide_eq_true_eq, Bool.and_true]
    omega
  | lit o =>
    refine ⟨_, rfl, by
      show Instr.vldr (d) (a) (b) ⟨(sp), (cs), .lit (BitVec.ofNat 64 (o.toNat))⟩ ⟨(x.ahead), (x.scope), (x.ord), (x.wait), bit (bitN x.g), (x.gslot), bit (bitN x.ginv)⟩ = _
      simp only [bit_bitN, BitVec.ofNat_toNat, BitVec.setWidth_eq], ?_⟩
    show fits [kf 0 2 3, kf 2 6 35, kf 26 6 2, pf 20 6, pf 14 6, pf 8 6, rf 41 2, rf 38 3, rf 37 1, rf 35 2, rf 32 3, pf 45 2, pf 43 2, pf 60 4, pf 57 3, pf 55 2, pf 53 2, pf 52 1, pf 48 4, pf 47 1, zf 64 32, pf 96 64] [d, a, b, sp, cs, x.ahead, x.scope, x.ord, x.wait, bitN x.g, x.gslot, bitN x.ginv, o.toNat] = true
    have b_x_g := bitN_lt x.g
    have b_x_ginv := bitN_lt x.ginv
    have t_o := o.isLt
    simp only [fits_par, fits_key, fits_rf, fits_cf, fits_zf, fits_nil, Bool.and_eq_true, decide_eq_true_eq, Bool.and_true]
    omega

theorem Shape.vstr (d : Nat) (a : Nat) (m : Addr) (x : Ext) : Shape.Statement (.vstr d a m x) := by
  intro h hf _
  have hf : ckV h d 20 ++ ckSs h a 14 ++ m.faults ++ x.store h = [] := hf
  simp only [List.append_eq_nil_iff] at hf
  have e0 := (ckV_nil ..).1 hf.1.1.1
  have e1 := (ckSs_nil ..).1 hf.1.1.2
  have hm := addr_fits hf.1.2
  have hx := store_fits hf.2
  have l1648 := lim_le h 16 48 (by decide)
  have l416 := lim_le h 4 16 (by decide)
  simp only [extFits] at hx
  obtain ⟨sp, cs, off⟩ := m
  dsimp only at hm
  cases off with
  | disp o =>
    refine ⟨_, rfl, by
      show Instr.vstr (d) (a) ⟨(sp), (cs), .disp (BitVec.ofNat 32 (o.toNat))⟩ ⟨(x.ahead), (x.scope), (x.ord), (x.wait), bit (bitN x.g), (x.gslot), bit (bitN x.ginv)⟩ = _
      simp only [bit_bitN, BitVec.ofNat_toNat, BitVec.setWidth_eq], ?_⟩
    show fits [kf 0 2 2, kf 2 6 35, kf 26 6 3, pf 20 6, pf 14 6, rf 8 6, rf 41 2, rf 38 3, rf 37 1, rf 35 2, rf 32 3, pf 45 2, pf 43 2, pf 60 4, pf 57 3, pf 55 2, pf 53 2, pf 52 1, pf 48 4, pf 47 1, pf 64 32] [d, a, sp, cs, x.ahead, x.scope, x.ord, x.wait, bitN x.g, x.gslot, bitN x.ginv, o.toNat] = true
    have b_x_g := bitN_lt x.g
    have b_x_ginv := bitN_lt x.ginv
    have t_o := o.isLt
    simp only [fits_par, fits_key, fits_rf, fits_cf, fits_zf, fits_nil, Bool.and_eq_true, decide_eq_true_eq, Bool.and_true]
    omega
  | lit o =>
    refine ⟨_, rfl, by
      show Instr.vstr (d) (a) ⟨(sp), (cs), .lit (BitVec.ofNat 64 (o.toNat))⟩ ⟨(x.ahead), (x.scope), (x.ord), (x.wait), bit (bitN x.g), (x.gslot), bit (bitN x.ginv)⟩ = _
      simp only [bit_bitN, BitVec.ofNat_toNat, BitVec.setWidth_eq], ?_⟩
    show fits [kf 0 2 3, kf 2 6 35, kf 26 6 3, pf 20 6, pf 14 6, rf 8 6, rf 41 2, rf 38 3, rf 37 1, rf 35 2, rf 32 3, pf 45 2, pf 43 2, pf 60 4, pf 57 3, pf 55 2, pf 53 2, pf 52 1, pf 48 4, pf 47 1, zf 64 32, pf 96 64] [d, a, sp, cs, x.ahead, x.scope, x.ord, x.wait, bitN x.g, x.gslot, bitN x.ginv, o.toNat] = true
    have b_x_g := bitN_lt x.g
    have b_x_ginv := bitN_lt x.ginv
    have t_o := o.isLt
    simp only [fits_par, fits_key, fits_rf, fits_cf, fits_zf, fits_nil, Bool.and_eq_true, decide_eq_true_eq, Bool.and_true]
    omega

theorem Shape.vgath (d : Nat) (a : Nat) (b : Nat) (w : Nat) (mask : Nat) (zero : Bool) (iscale : Nat) (m : Addr) (x : Ext) : Shape.Statement (.vgath d a b w mask zero iscale m x) := by
  intro h hf _
  have hf : ckV h d 20 ++ ckSs h a 14 ++ ckV h b 8 ++ ckN 3 w 41 ++ ckK h mask 38 ++ ckN 4 iscale 35 ++ m.faults ++ x.load h = [] := hf
  simp only [List.append_eq_nil_iff] at hf
  have e0 := (ckV_nil ..).1 hf.1.1.1.1.1.1.1
  have e1 := (ckSs_nil ..).1 hf.1.1.1.1.1.1.2
  have e2 := (ckV_nil ..).1 hf.1.1.1.1.1.2
  have e3 := (ckN_nil ..).1 hf.1.1.1.1.2
  have e4 := (ckK_nil ..).1 hf.1.1.1.2
  have e5 := (ckN_nil ..).1 hf.1.1.2
  have hm := addr_fits hf.1.2
  have hx := load_fits hf.2
  have l1648 := lim_le h 16 48 (by decide)
  have l416 := lim_le h 4 16 (by decide)
  have l48 := lim_le h 4 8 (by decide)
  simp only [extFits] at hx
  obtain ⟨sp, cs, off⟩ := m
  dsimp only at hm
  cases off with
  | disp o =>
    refine ⟨_, rfl, by
      show Instr.vgath (d) (a) (b) (w) (mask) (bit (bitN zero)) (iscale) ⟨(sp), (cs), .disp (BitVec.ofNat 32 (o.toNat))⟩ ⟨(x.ahead), (x.scope), (x.ord), (x.wait), bit (bitN x.g), (x.gslot), bit (bitN x.ginv)⟩ = _
      simp only [bit_bitN, BitVec.ofNat_toNat, BitVec.setWidth_eq], ?_⟩
    show fits [kf 0 2 2, kf 2 6 35, kf 26 6 4, pf 20 6, pf 14 6, pf 8 6, pf 41 2, pf 38 3, pf 37 1, pf 35 2, rf 32 3, pf 45 2, pf 43 2, pf 60 4, pf 57 3, pf 55 2, pf 53 2, pf 52 1, pf 48 4, pf 47 1, pf 64 32] [d, a, b, w, mask, bitN zero, iscale, sp, cs, x.ahead, x.scope, x.ord, x.wait, bitN x.g, x.gslot, bitN x.ginv, o.toNat] = true
    have b_x_g := bitN_lt x.g
    have b_x_ginv := bitN_lt x.ginv
    have b_zero := bitN_lt zero
    have t_o := o.isLt
    simp only [fits_par, fits_key, fits_rf, fits_cf, fits_zf, fits_nil, Bool.and_eq_true, decide_eq_true_eq, Bool.and_true]
    omega
  | lit o =>
    refine ⟨_, rfl, by
      show Instr.vgath (d) (a) (b) (w) (mask) (bit (bitN zero)) (iscale) ⟨(sp), (cs), .lit (BitVec.ofNat 64 (o.toNat))⟩ ⟨(x.ahead), (x.scope), (x.ord), (x.wait), bit (bitN x.g), (x.gslot), bit (bitN x.ginv)⟩ = _
      simp only [bit_bitN, BitVec.ofNat_toNat, BitVec.setWidth_eq], ?_⟩
    show fits [kf 0 2 3, kf 2 6 35, kf 26 6 4, pf 20 6, pf 14 6, pf 8 6, pf 41 2, pf 38 3, pf 37 1, pf 35 2, rf 32 3, pf 45 2, pf 43 2, pf 60 4, pf 57 3, pf 55 2, pf 53 2, pf 52 1, pf 48 4, pf 47 1, zf 64 32, pf 96 64] [d, a, b, w, mask, bitN zero, iscale, sp, cs, x.ahead, x.scope, x.ord, x.wait, bitN x.g, x.gslot, bitN x.ginv, o.toNat] = true
    have b_x_g := bitN_lt x.g
    have b_x_ginv := bitN_lt x.ginv
    have b_zero := bitN_lt zero
    have t_o := o.isLt
    simp only [fits_par, fits_key, fits_rf, fits_cf, fits_zf, fits_nil, Bool.and_eq_true, decide_eq_true_eq, Bool.and_true]
    omega

theorem Shape.vscat (d : Nat) (a : Nat) (b : Nat) (w : Nat) (mask : Nat) (iscale : Nat) (m : Addr) (x : Ext) : Shape.Statement (.vscat d a b w mask iscale m x) := by
  intro h hf _
  have hf : ckV h d 20 ++ ckSs h a 14 ++ ckV h b 8 ++ ckN 3 w 41 ++ ckK h mask 38 ++ ckN 4 iscale 35 ++ m.faults ++ x.store h = [] := hf
  simp only [List.append_eq_nil_iff] at hf
  have e0 := (ckV_nil ..).1 hf.1.1.1.1.1.1.1
  have e1 := (ckSs_nil ..).1 hf.1.1.1.1.1.1.2
  have e2 := (ckV_nil ..).1 hf.1.1.1.1.1.2
  have e3 := (ckN_nil ..).1 hf.1.1.1.1.2
  have e4 := (ckK_nil ..).1 hf.1.1.1.2
  have e5 := (ckN_nil ..).1 hf.1.1.2
  have hm := addr_fits hf.1.2
  have hx := store_fits hf.2
  have l1648 := lim_le h 16 48 (by decide)
  have l416 := lim_le h 4 16 (by decide)
  have l48 := lim_le h 4 8 (by decide)
  simp only [extFits] at hx
  obtain ⟨sp, cs, off⟩ := m
  dsimp only at hm
  cases off with
  | disp o =>
    refine ⟨_, rfl, by
      show Instr.vscat (d) (a) (b) (w) (mask) (iscale) ⟨(sp), (cs), .disp (BitVec.ofNat 32 (o.toNat))⟩ ⟨(x.ahead), (x.scope), (x.ord), (x.wait), bit (bitN x.g), (x.gslot), bit (bitN x.ginv)⟩ = _
      simp only [bit_bitN, BitVec.ofNat_toNat, BitVec.setWidth_eq], ?_⟩
    show fits [kf 0 2 2, kf 2 6 35, kf 26 6 5, pf 20 6, pf 14 6, pf 8 6, pf 41 2, pf 38 3, rf 37 1, pf 35 2, rf 32 3, pf 45 2, pf 43 2, pf 60 4, pf 57 3, pf 55 2, pf 53 2, pf 52 1, pf 48 4, pf 47 1, pf 64 32] [d, a, b, w, mask, iscale, sp, cs, x.ahead, x.scope, x.ord, x.wait, bitN x.g, x.gslot, bitN x.ginv, o.toNat] = true
    have b_x_g := bitN_lt x.g
    have b_x_ginv := bitN_lt x.ginv
    have t_o := o.isLt
    simp only [fits_par, fits_key, fits_rf, fits_cf, fits_zf, fits_nil, Bool.and_eq_true, decide_eq_true_eq, Bool.and_true]
    omega
  | lit o =>
    refine ⟨_, rfl, by
      show Instr.vscat (d) (a) (b) (w) (mask) (iscale) ⟨(sp), (cs), .lit (BitVec.ofNat 64 (o.toNat))⟩ ⟨(x.ahead), (x.scope), (x.ord), (x.wait), bit (bitN x.g), (x.gslot), bit (bitN x.ginv)⟩ = _
      simp only [bit_bitN, BitVec.ofNat_toNat, BitVec.setWidth_eq], ?_⟩
    show fits [kf 0 2 3, kf 2 6 35, kf 26 6 5, pf 20 6, pf 14 6, pf 8 6, pf 41 2, pf 38 3, rf 37 1, pf 35 2, rf 32 3, pf 45 2, pf 43 2, pf 60 4, pf 57 3, pf 55 2, pf 53 2, pf 52 1, pf 48 4, pf 47 1, zf 64 32, pf 96 64] [d, a, b, w, mask, iscale, sp, cs, x.ahead, x.scope, x.ord, x.wait, bitN x.g, x.gslot, bitN x.ginv, o.toNat] = true
    have b_x_g := bitN_lt x.g
    have b_x_ginv := bitN_lt x.ginv
    have t_o := o.isLt
    simp only [fits_par, fits_key, fits_rf, fits_cf, fits_zf, fits_nil, Bool.and_eq_true, decide_eq_true_eq, Bool.and_true]
    omega

theorem Shape.tld (d : Nat) (a : Nat) (b : Nat) (tag : Nat) (pcnt : Nat) (sgn : Bool) (m : Addr) (x : Ext) : Shape.Statement (.tld d a b tag pcnt sgn m x) := by
  intro h hf _
  have hf : ckT d 20 ++ ckSs h a 14 ++ ckSs h b 8 ++ ckN 4 tag 41 ++ ckN 16 pcnt 37 ++ m.faults ++ x.tload h ++ ckTag tag pcnt sgn = [] := hf
  simp only [List.append_eq_nil_iff] at hf
  have e0 := (ckT_nil ..).1 hf.1.1.1.1.1.1.1
  have e1 := (ckSs_nil ..).1 hf.1.1.1.1.1.1.2
  have e2 := (ckSs_nil ..).1 hf.1.1.1.1.1.2
  have e3 := (ckN_nil ..).1 hf.1.1.1.1.2
  have e4 := (ckN_nil ..).1 hf.1.1.1.2
  have hm := addr_fits hf.1.1.2
  have hx := tload_fits hf.1.2
  have l1648 := lim_le h 16 48 (by decide)
  simp only [extFits] at hx
  obtain ⟨sp, cs, off⟩ := m
  dsimp only at hm
  cases off with
  | disp o =>
    refine ⟨_, rfl, by
      show Instr.tld (d) (a) (b) (tag) (pcnt) (bit (bitN sgn)) ⟨(sp), (cs), .disp (BitVec.ofNat 32 (o.toNat))⟩ ⟨(x.ahead), (x.scope), (x.ord), (x.wait), bit (bitN x.g), (x.gslot), bit (bitN x.ginv)⟩ = _
      simp only [bit_bitN, BitVec.ofNat_toNat, BitVec.setWidth_eq], ?_⟩
    show fits [kf 0 2 2, kf 2 6 36, kf 26 6 0, pf 20 6, pf 14 6, pf 8 6, pf 41 2, pf 37 4, pf 36 1, rf 32 4, pf 45 2, pf 43 2, pf 60 4, pf 57 3, pf 55 2, pf 53 2, pf 52 1, pf 48 4, pf 47 1, pf 64 32] [d, a, b, tag, pcnt, bitN sgn, sp, cs, x.ahead, x.scope, x.ord, x.wait, bitN x.g, x.gslot, bitN x.ginv, o.toNat] = true
    have b_sgn := bitN_lt sgn
    have b_x_g := bitN_lt x.g
    have b_x_ginv := bitN_lt x.ginv
    have t_o := o.isLt
    simp only [fits_par, fits_key, fits_rf, fits_cf, fits_zf, fits_nil, Bool.and_eq_true, decide_eq_true_eq, Bool.and_true]
    omega
  | lit o =>
    refine ⟨_, rfl, by
      show Instr.tld (d) (a) (b) (tag) (pcnt) (bit (bitN sgn)) ⟨(sp), (cs), .lit (BitVec.ofNat 64 (o.toNat))⟩ ⟨(x.ahead), (x.scope), (x.ord), (x.wait), bit (bitN x.g), (x.gslot), bit (bitN x.ginv)⟩ = _
      simp only [bit_bitN, BitVec.ofNat_toNat, BitVec.setWidth_eq], ?_⟩
    show fits [kf 0 2 3, kf 2 6 36, kf 26 6 0, pf 20 6, pf 14 6, pf 8 6, pf 41 2, pf 37 4, pf 36 1, rf 32 4, pf 45 2, pf 43 2, pf 60 4, pf 57 3, pf 55 2, pf 53 2, pf 52 1, pf 48 4, pf 47 1, zf 64 32, pf 96 64] [d, a, b, tag, pcnt, bitN sgn, sp, cs, x.ahead, x.scope, x.ord, x.wait, bitN x.g, x.gslot, bitN x.ginv, o.toNat] = true
    have b_sgn := bitN_lt sgn
    have b_x_g := bitN_lt x.g
    have b_x_ginv := bitN_lt x.ginv
    have t_o := o.isLt
    simp only [fits_par, fits_key, fits_rf, fits_cf, fits_zf, fits_nil, Bool.and_eq_true, decide_eq_true_eq, Bool.and_true]
    omega

theorem Shape.tst (d : Nat) (a : Nat) (b : Nat) (m : Addr) (x : Ext) : Shape.Statement (.tst d a b m x) := by
  intro h hf _
  have hf : ckT d 20 ++ ckSs h a 14 ++ ckSs h b 8 ++ m.faults ++ x.tstore h = [] := hf
  simp only [List.append_eq_nil_iff] at hf
  have e0 := (ckT_nil ..).1 hf.1.1.1.1
  have e1 := (ckSs_nil ..).1 hf.1.1.1.2
  have e2 := (ckSs_nil ..).1 hf.1.1.2
  have hm := addr_fits hf.1.2
  have hx := tstore_fits hf.2
  have l1648 := lim_le h 16 48 (by decide)
  simp only [extFits] at hx
  obtain ⟨sp, cs, off⟩ := m
  dsimp only at hm
  cases off with
  | disp o =>
    refine ⟨_, rfl, by
      show Instr.tst (d) (a) (b) ⟨(sp), (cs), .disp (BitVec.ofNat 32 (o.toNat))⟩ ⟨(x.ahead), (x.scope), (x.ord), (x.wait), bit (bitN x.g), (x.gslot), bit (bitN x.ginv)⟩ = _
      simp only [bit_bitN, BitVec.ofNat_toNat, BitVec.setWidth_eq], ?_⟩
    show fits [kf 0 2 2, kf 2 6 36, kf 26 6 1, pf 20 6, pf 14 6, pf 8 6, rf 41 2, rf 37 4, rf 36 1, rf 32 4, pf 45 2, pf 43 2, pf 60 4, pf 57 3, pf 55 2, pf 53 2, pf 52 1, pf 48 4, pf 47 1, pf 64 32] [d, a, b, sp, cs, x.ahead, x.scope, x.ord, x.wait, bitN x.g, x.gslot, bitN x.ginv, o.toNat] = true
    have b_x_g := bitN_lt x.g
    have b_x_ginv := bitN_lt x.ginv
    have t_o := o.isLt
    simp only [fits_par, fits_key, fits_rf, fits_cf, fits_zf, fits_nil, Bool.and_eq_true, decide_eq_true_eq, Bool.and_true]
    omega
  | lit o =>
    refine ⟨_, rfl, by
      show Instr.tst (d) (a) (b) ⟨(sp), (cs), .lit (BitVec.ofNat 64 (o.toNat))⟩ ⟨(x.ahead), (x.scope), (x.ord), (x.wait), bit (bitN x.g), (x.gslot), bit (bitN x.ginv)⟩ = _
      simp only [bit_bitN, BitVec.ofNat_toNat, BitVec.setWidth_eq], ?_⟩
    show fits [kf 0 2 3, kf 2 6 36, kf 26 6 1, pf 20 6, pf 14 6, pf 8 6, rf 41 2, rf 37 4, rf 36 1, rf 32 4, pf 45 2, pf 43 2, pf 60 4, pf 57 3, pf 55 2, pf 53 2, pf 52 1, pf 48 4, pf 47 1, zf 64 32, pf 96 64] [d, a, b, sp, cs, x.ahead, x.scope, x.ord, x.wait, bitN x.g, x.gslot, bitN x.ginv, o.toNat] = true
    have b_x_g := bitN_lt x.g
    have b_x_ginv := bitN_lt x.ginv
    have t_o := o.isLt
    simp only [fits_par, fits_key, fits_rf, fits_cf, fits_zf, fits_nil, Bool.and_eq_true, decide_eq_true_eq, Bool.and_true]
    omega

theorem Shape.tzero (d : Nat) (tag : Nat) (pcnt : Nat) (sgn : Bool) (x : Ext) : Shape.Statement (.tzero d tag pcnt sgn x) := by
  intro h hf _
  have hf : ckT d 20 ++ ckN 4 tag 41 ++ ckN 16 pcnt 37 ++ x.tile h ++ ckTag tag pcnt sgn = [] := hf
  simp only [List.append_eq_nil_iff] at hf
  have e0 := (ckT_nil ..).1 hf.1.1.1.1
  have e1 := (ckN_nil ..).1 hf.1.1.1.2
  have e2 := (ckN_nil ..).1 hf.1.1.2
  have hx := tile_fits hf.1.2
  simp only [extFits] at hx
  refine ⟨_, rfl, by
    show Instr.tzero (d) (tag) (pcnt) (bit (bitN sgn)) ⟨(x.ahead), (x.scope), (x.ord), (x.wait), bit (bitN x.g), (x.gslot), bit (bitN x.ginv)⟩ = _
    simp only [bit_bitN, BitVec.ofNat_toNat, BitVec.setWidth_eq], ?_⟩
  show fits [kf 0 2 2, kf 2 6 37, kf 26 6 0, pf 20 6, rf 14 6, rf 8 6, rf 43 4, pf 41 2, pf 37 4, pf 36 1, rf 32 4, pf 60 4, pf 57 3, pf 55 2, pf 53 2, pf 52 1, pf 48 4, pf 47 1, rf 64 32] [d, tag, pcnt, bitN sgn, x.ahead, x.scope, x.ord, x.wait, bitN x.g, x.gslot, bitN x.ginv] = true
  have b_sgn := bitN_lt sgn
  have b_x_g := bitN_lt x.g
  have b_x_ginv := bitN_lt x.ginv
  simp only [fits_par, fits_key, fits_rf, fits_cf, fits_zf, fits_nil, Bool.and_eq_true, decide_eq_true_eq, Bool.and_true]
  omega

theorem Shape.tmov (d : Nat) (a : Nat) (x : Ext) : Shape.Statement (.tmov d a x) := by
  intro h hf _
  have hf : ckT d 20 ++ ckT a 14 ++ x.tile h = [] := hf
  simp only [List.append_eq_nil_iff] at hf
  have e0 := (ckT_nil ..).1 hf.1.1
  have e1 := (ckT_nil ..).1 hf.1.2
  have hx := tile_fits hf.2
  simp only [extFits] at hx
  refine ⟨_, rfl, by
    show Instr.tmov (d) (a) ⟨(x.ahead), (x.scope), (x.ord), (x.wait), bit (bitN x.g), (x.gslot), bit (bitN x.ginv)⟩ = _
    simp only [bit_bitN, BitVec.ofNat_toNat, BitVec.setWidth_eq], ?_⟩
  show fits [kf 0 2 2, kf 2 6 37, kf 26 6 1, pf 20 6, pf 14 6, rf 8 6, rf 43 4, rf 36 7, rf 32 4, pf 60 4, pf 57 3, pf 55 2, pf 53 2, pf 52 1, pf 48 4, pf 47 1, rf 64 32] [d, a, x.ahead, x.scope, x.ord, x.wait, bitN x.g, x.gslot, bitN x.ginv] = true
  have b_x_g := bitN_lt x.g
  have b_x_ginv := bitN_lt x.ginv
  simp only [fits_par, fits_key, fits_rf, fits_cf, fits_zf, fits_nil, Bool.and_eq_true, decide_eq_true_eq, Bool.and_true]
  omega

theorem Shape.trel (d : Nat) (x : Ext) : Shape.Statement (.trel d x) := by
  intro h hf _
  have hf : ckT d 20 ++ x.noguard h = [] := hf
  simp only [List.append_eq_nil_iff] at hf
  have e0 := (ckT_nil ..).1 hf.1
  have hx := noguard_fits hf.2
  simp only [extFits] at hx
  refine ⟨_, rfl, by
    show Instr.trel (d) ⟨(x.ahead), (x.scope), (x.ord), (x.wait), bit (bitN x.g), (x.gslot), bit (bitN x.ginv)⟩ = _
    simp only [bit_bitN, BitVec.ofNat_toNat, BitVec.setWidth_eq], ?_⟩
  show fits [kf 0 2 2, kf 2 6 37, kf 26 6 2, pf 20 6, rf 14 6, rf 8 6, rf 43 4, rf 36 7, rf 32 4, pf 60 4, pf 57 3, pf 55 2, pf 53 2, pf 52 1, pf 48 4, pf 47 1, rf 64 32] [d, x.ahead, x.scope, x.ord, x.wait, bitN x.g, x.gslot, bitN x.ginv] = true
  have b_x_g := bitN_lt x.g
  have b_x_ginv := bitN_lt x.ginv
  simp only [fits_par, fits_key, fits_rf, fits_cf, fits_zf, fits_nil, Bool.and_eq_true, decide_eq_true_eq, Bool.and_true]
  omega

theorem Shape.mma (d : Nat) (a : Nat) (b : Nat) (fa : Nat) (fb : Nat) (z : Bool) (km1 : Nat) (kao : Nat) (kbo : Nat) (x : Ext) : Shape.Statement (.mma d a b fa fb z km1 kao kbo x) := by
  intro h hf _
  have hf : ckT d 20 ++ ckT a 14 ++ ckT b 8 ++ ckN 16 fa 43 ++ ckN 16 fb 39 ++ ckN 2048 km1 85 ++ ckN 256 kao 77 ++ ckN 256 kbo 69 ++ x.tile h ++ ckMma fa fb km1 kao kbo = [] := hf
  simp only [List.append_eq_nil_iff] at hf
  have e0 := (ckT_nil ..).1 hf.1.1.1.1.1.1.1.1.1
  have e1 := (ckT_nil ..).1 hf.1.1.1.1.1.1.1.1.2
  have e2 := (ckT_nil ..).1 hf.1.1.1.1.1.1.1.2
  have e3 := (ckN_nil ..).1 hf.1.1.1.1.1.1.2
  have e4 := (ckN_nil ..).1 hf.1.1.1.1.1.2
  have e5 := (ckN_nil ..).1 hf.1.1.1.1.2
  have e6 := (ckN_nil ..).1 hf.1.1.1.2
  have e7 := (ckN_nil ..).1 hf.1.1.2
  have hx := tile_fits hf.1.2
  simp only [extFits] at hx
  refine ⟨_, rfl, by
    show Instr.mma (d) (a) (b) (fa) (fb) (bit (bitN z)) (km1) (kao) (kbo) ⟨(x.ahead), (x.scope), (x.ord), (x.wait), bit (bitN x.g), (x.gslot), bit (bitN x.ginv)⟩ = _
    simp only [bit_bitN, BitVec.ofNat_toNat, BitVec.setWidth_eq], ?_⟩
  show fits [kf 0 2 2, kf 2 6 38, kf 26 6 0, pf 20 6, pf 14 6, pf 8 6, pf 43 4, pf 39 4, pf 38 1, rf 32 6, pf 60 4, pf 57 3, pf 55 2, pf 53 2, pf 52 1, pf 48 4, pf 47 1, pf 85 11, pf 77 8, pf 69 8, rf 64 5] [d, a, b, fa, fb, bitN z, x.ahead, x.scope, x.ord, x.wait, bitN x.g, x.gslot, bitN x.ginv, km1, kao, kbo] = true
  have b_x_g := bitN_lt x.g
  have b_x_ginv := bitN_lt x.ginv
  have b_z := bitN_lt z
  simp only [fits_par, fits_key, fits_rf, fits_cf, fits_zf, fits_nil, Bool.and_eq_true, decide_eq_true_eq, Bool.and_true]
  omega

theorem Shape.mmf (d : Nat) (a : Nat) (b : Nat) (fa : Nat) (z : Bool) (km1 : Nat) (kao : Nat) (kbo : Nat) (x : Ext) : Shape.Statement (.mmf d a b fa z km1 kao kbo x) := by
  intro h hf _
  have hf : ckT d 20 ++ ckT a 14 ++ ckT b 8 ++ ckN 16 fa 43 ++ ckN 2048 km1 85 ++ ckN 256 kao 77 ++ ckN 256 kbo 69 ++ x.tile h ++ ckMmf fa km1 kao kbo = [] := hf
  simp only [List.append_eq_nil_iff] at hf
  have e0 := (ckT_nil ..).1 hf.1.1.1.1.1.1.1.1
  have e1 := (ckT_nil ..).1 hf.1.1.1.1.1.1.1.2
  have e2 := (ckT_nil ..).1 hf.1.1.1.1.1.1.2
  have e3 := (ckN_nil ..).1 hf.1.1.1.1.1.2
  have e4 := (ckN_nil ..).1 hf.1.1.1.1.2
  have e5 := (ckN_nil ..).1 hf.1.1.1.2
  have e6 := (ckN_nil ..).1 hf.1.1.2
  have hx := tile_fits hf.1.2
  simp only [extFits] at hx
  refine ⟨_, rfl, by
    show Instr.mmf (d) (a) (b) (fa) (bit (bitN z)) (km1) (kao) (kbo) ⟨(x.ahead), (x.scope), (x.ord), (x.wait), bit (bitN x.g), (x.gslot), bit (bitN x.ginv)⟩ = _
    simp only [bit_bitN, BitVec.ofNat_toNat, BitVec.setWidth_eq], ?_⟩
  show fits [kf 0 2 2, kf 2 6 38, kf 26 6 1, pf 20 6, pf 14 6, pf 8 6, pf 43 4, rf 39 4, pf 38 1, rf 32 6, pf 60 4, pf 57 3, pf 55 2, pf 53 2, pf 52 1, pf 48 4, pf 47 1, pf 85 11, pf 77 8, pf 69 8, rf 64 5] [d, a, b, fa, bitN z, x.ahead, x.scope, x.ord, x.wait, bitN x.g, x.gslot, bitN x.ginv, km1, kao, kbo] = true
  have b_x_g := bitN_lt x.g
  have b_x_ginv := bitN_lt x.ginv
  have b_z := bitN_lt z
  simp only [fits_par, fits_key, fits_rf, fits_cf, fits_zf, fits_nil, Bool.and_eq_true, decide_eq_true_eq, Bool.and_true]
  omega

theorem Shape.scac (d : Nat) (a : Nat) (b : Nat) (sfmt : Bool) (q : Nat) (tsb : Nat) (ca : Nat) (cb : Nat) (x : Ext) : Shape.Statement (.scac d a b sfmt q tsb ca cb x) := by
  intro h hf _
  have hf : ckT d 20 ++ ckT a 14 ++ ckT b 8 ++ ckN 16 q 42 ++ ckN 16 tsb 92 ++ ckN 256 ca 84 ++ ckN 256 cb 76 ++ x.tile h = [] := hf
  simp only [List.append_eq_nil_iff] at hf
  have e0 := (ckT_nil ..).1 hf.1.1.1.1.1.1.1
  have e1 := (ckT_nil ..).1 hf.1.1.1.1.1.1.2
  have e2 := (ckT_nil ..).1 hf.1.1.1.1.1.2
  have e3 := (ckN_nil ..).1 hf.1.1.1.1.2
  have e4 := (ckN_nil ..).1 hf.1.1.1.2
  have e5 := (ckN_nil ..).1 hf.1.1.2
  have e6 := (ckN_nil ..).1 hf.1.2
  have hx := tile_fits hf.2
  simp only [extFits] at hx
  refine ⟨_, rfl, by
    show Instr.scac (d) (a) (b) (bit (bitN sfmt)) (q) (tsb) (ca) (cb) ⟨(x.ahead), (x.scope), (x.ord), (x.wait), bit (bitN x.g), (x.gslot), bit (bitN x.ginv)⟩ = _
    simp only [bit_bitN, BitVec.ofNat_toNat, BitVec.setWidth_eq], ?_⟩
  show fits [kf 0 2 2, kf 2 6 39, kf 26 6 0, pf 20 6, pf 14 6, pf 8 6, pf 46 1, pf 42 4, rf 32 10, pf 60 4, pf 57 3, pf 55 2, pf 53 2, pf 52 1, pf 48 4, pf 47 1, pf 92 4, pf 84 8, pf 76 8, rf 64 12] [d, a, b, bitN sfmt, q, x.ahead, x.scope, x.ord, x.wait, bitN x.g, x.gslot, bitN x.ginv, tsb, ca, cb] = true
  have b_sfmt := bitN_lt sfmt
  have b_x_g := bitN_lt x.g
  have b_x_ginv := bitN_lt x.ginv
  simp only [fits_par, fits_key, fits_rf, fits_cf, fits_zf, fits_nil, Bool.and_eq_true, decide_eq_true_eq, Bool.and_true]
  omega

theorem Shape.scal (d : Nat) (a : Nat) (b : Nat) (x : Ext) : Shape.Statement (.scal d a b x) := by
  intro h hf _
  have hf : ckT d 20 ++ ckSs h a 14 ++ ckSs h b 8 ++ x.tile h = [] := hf
  simp only [List.append_eq_nil_iff] at hf
  have e0 := (ckT_nil ..).1 hf.1.1.1
  have e1 := (ckSs_nil ..).1 hf.1.1.2
  have e2 := (ckSs_nil ..).1 hf.1.2
  have hx := tile_fits hf.2
  have l1648 := lim_le h 16 48 (by decide)
  simp only [extFits] at hx
  refine ⟨_, rfl, by
    show Instr.scal (d) (a) (b) ⟨(x.ahead), (x.scope), (x.ord), (x.wait), bit (bitN x.g), (x.gslot), bit (bitN x.ginv)⟩ = _
    simp only [bit_bitN, BitVec.ofNat_toNat, BitVec.setWidth_eq], ?_⟩
  show fits [kf 0 2 2, kf 2 6 39, kf 26 6 1, pf 20 6, pf 14 6, pf 8 6, rf 46 1, rf 42 4, rf 32 10, pf 60 4, pf 57 3, pf 55 2, pf 53 2, pf 52 1, pf 48 4, pf 47 1, rf 92 4, rf 84 8, rf 76 8, rf 64 12] [d, a, b, x.ahead, x.scope, x.ord, x.wait, bitN x.g, x.gslot, bitN x.ginv] = true
  have b_x_g := bitN_lt x.g
  have b_x_ginv := bitN_lt x.ginv
  simp only [fits_par, fits_key, fits_rf, fits_cf, fits_zf, fits_nil, Bool.and_eq_true, decide_eq_true_eq, Bool.and_true]
  omega

theorem Shape.tadd (d : Nat) (a : Nat) (b : Nat) (fmt : Nat) (rnd : Nat) (sat : Bool) (x : Ext) : Shape.Statement (.tadd d a b fmt rnd sat x) := by
  intro h hf _
  have hf : ckT d 20 ++ ckT a 14 ++ ckT b 8 ++ ckN 16 fmt 43 ++ ckRnd rnd 40 ++ x.tile h ++ ckTarith fmt rnd sat = [] := hf
  simp only [List.append_eq_nil_iff] at hf
  have e0 := (ckT_nil ..).1 hf.1.1.1.1.1.1
  have e1 := (ckT_nil ..).1 hf.1.1.1.1.1.2
  have e2 := (ckT_nil ..).1 hf.1.1.1.1.2
  have e3 := (ckN_nil ..).1 hf.1.1.1.2
  have e4 := (ckRnd_nil ..).1 hf.1.1.2
  have hx := tile_fits hf.1.2
  simp only [extFits] at hx
  refine ⟨_, rfl, by
    show Instr.tadd (d) (a) (b) (fmt) (rnd) (bit (bitN sat)) ⟨(x.ahead), (x.scope), (x.ord), (x.wait), bit (bitN x.g), (x.gslot), bit (bitN x.ginv)⟩ = _
    simp only [bit_bitN, BitVec.ofNat_toNat, BitVec.setWidth_eq], ?_⟩
  show fits [kf 0 2 2, kf 2 6 40, kf 26 6 0, pf 20 6, pf 14 6, pf 8 6, pf 43 4, pf 40 3, rf 33 7, pf 32 1, pf 60 4, pf 57 3, pf 55 2, pf 53 2, pf 52 1, pf 48 4, pf 47 1, rf 64 32] [d, a, b, fmt, rnd, bitN sat, x.ahead, x.scope, x.ord, x.wait, bitN x.g, x.gslot, bitN x.ginv] = true
  have b_sat := bitN_lt sat
  have b_x_g := bitN_lt x.g
  have b_x_ginv := bitN_lt x.ginv
  simp only [fits_par, fits_key, fits_rf, fits_cf, fits_zf, fits_nil, Bool.and_eq_true, decide_eq_true_eq, Bool.and_true]
  omega

theorem Shape.tsub (d : Nat) (a : Nat) (b : Nat) (fmt : Nat) (rnd : Nat) (sat : Bool) (x : Ext) : Shape.Statement (.tsub d a b fmt rnd sat x) := by
  intro h hf _
  have hf : ckT d 20 ++ ckT a 14 ++ ckT b 8 ++ ckN 16 fmt 43 ++ ckRnd rnd 40 ++ x.tile h ++ ckTarith fmt rnd sat = [] := hf
  simp only [List.append_eq_nil_iff] at hf
  have e0 := (ckT_nil ..).1 hf.1.1.1.1.1.1
  have e1 := (ckT_nil ..).1 hf.1.1.1.1.1.2
  have e2 := (ckT_nil ..).1 hf.1.1.1.1.2
  have e3 := (ckN_nil ..).1 hf.1.1.1.2
  have e4 := (ckRnd_nil ..).1 hf.1.1.2
  have hx := tile_fits hf.1.2
  simp only [extFits] at hx
  refine ⟨_, rfl, by
    show Instr.tsub (d) (a) (b) (fmt) (rnd) (bit (bitN sat)) ⟨(x.ahead), (x.scope), (x.ord), (x.wait), bit (bitN x.g), (x.gslot), bit (bitN x.ginv)⟩ = _
    simp only [bit_bitN, BitVec.ofNat_toNat, BitVec.setWidth_eq], ?_⟩
  show fits [kf 0 2 2, kf 2 6 40, kf 26 6 1, pf 20 6, pf 14 6, pf 8 6, pf 43 4, pf 40 3, rf 33 7, pf 32 1, pf 60 4, pf 57 3, pf 55 2, pf 53 2, pf 52 1, pf 48 4, pf 47 1, rf 64 32] [d, a, b, fmt, rnd, bitN sat, x.ahead, x.scope, x.ord, x.wait, bitN x.g, x.gslot, bitN x.ginv] = true
  have b_sat := bitN_lt sat
  have b_x_g := bitN_lt x.g
  have b_x_ginv := bitN_lt x.ginv
  simp only [fits_par, fits_key, fits_rf, fits_cf, fits_zf, fits_nil, Bool.and_eq_true, decide_eq_true_eq, Bool.and_true]
  omega

theorem Shape.temul (d : Nat) (a : Nat) (b : Nat) (fmt : Nat) (rnd : Nat) (sat : Bool) (x : Ext) : Shape.Statement (.temul d a b fmt rnd sat x) := by
  intro h hf _
  have hf : ckT d 20 ++ ckT a 14 ++ ckT b 8 ++ ckN 16 fmt 43 ++ ckRnd rnd 40 ++ x.tile h ++ ckTarith fmt rnd sat = [] := hf
  simp only [List.append_eq_nil_iff] at hf
  have e0 := (ckT_nil ..).1 hf.1.1.1.1.1.1
  have e1 := (ckT_nil ..).1 hf.1.1.1.1.1.2
  have e2 := (ckT_nil ..).1 hf.1.1.1.1.2
  have e3 := (ckN_nil ..).1 hf.1.1.1.2
  have e4 := (ckRnd_nil ..).1 hf.1.1.2
  have hx := tile_fits hf.1.2
  simp only [extFits] at hx
  refine ⟨_, rfl, by
    show Instr.temul (d) (a) (b) (fmt) (rnd) (bit (bitN sat)) ⟨(x.ahead), (x.scope), (x.ord), (x.wait), bit (bitN x.g), (x.gslot), bit (bitN x.ginv)⟩ = _
    simp only [bit_bitN, BitVec.ofNat_toNat, BitVec.setWidth_eq], ?_⟩
  show fits [kf 0 2 2, kf 2 6 40, kf 26 6 2, pf 20 6, pf 14 6, pf 8 6, pf 43 4, pf 40 3, rf 33 7, pf 32 1, pf 60 4, pf 57 3, pf 55 2, pf 53 2, pf 52 1, pf 48 4, pf 47 1, rf 64 32] [d, a, b, fmt, rnd, bitN sat, x.ahead, x.scope, x.ord, x.wait, bitN x.g, x.gslot, bitN x.ginv] = true
  have b_sat := bitN_lt sat
  have b_x_g := bitN_lt x.g
  have b_x_ginv := bitN_lt x.ginv
  simp only [fits_par, fits_key, fits_rf, fits_cf, fits_zf, fits_nil, Bool.and_eq_true, decide_eq_true_eq, Bool.and_true]
  omega

theorem Shape.tmax (d : Nat) (a : Nat) (b : Nat) (fmt : Nat) (rnd : Nat) (sat : Bool) (x : Ext) : Shape.Statement (.tmax d a b fmt rnd sat x) := by
  intro h hf _
  have hf : ckT d 20 ++ ckT a 14 ++ ckT b 8 ++ ckN 16 fmt 43 ++ ckRnd rnd 40 ++ x.tile h ++ ckTarith fmt rnd sat = [] := hf
  simp only [List.append_eq_nil_iff] at hf
  have e0 := (ckT_nil ..).1 hf.1.1.1.1.1.1
  have e1 := (ckT_nil ..).1 hf.1.1.1.1.1.2
  have e2 := (ckT_nil ..).1 hf.1.1.1.1.2
  have e3 := (ckN_nil ..).1 hf.1.1.1.2
  have e4 := (ckRnd_nil ..).1 hf.1.1.2
  have hx := tile_fits hf.1.2
  simp only [extFits] at hx
  refine ⟨_, rfl, by
    show Instr.tmax (d) (a) (b) (fmt) (rnd) (bit (bitN sat)) ⟨(x.ahead), (x.scope), (x.ord), (x.wait), bit (bitN x.g), (x.gslot), bit (bitN x.ginv)⟩ = _
    simp only [bit_bitN, BitVec.ofNat_toNat, BitVec.setWidth_eq], ?_⟩
  show fits [kf 0 2 2, kf 2 6 40, kf 26 6 3, pf 20 6, pf 14 6, pf 8 6, pf 43 4, pf 40 3, rf 33 7, pf 32 1, pf 60 4, pf 57 3, pf 55 2, pf 53 2, pf 52 1, pf 48 4, pf 47 1, rf 64 32] [d, a, b, fmt, rnd, bitN sat, x.ahead, x.scope, x.ord, x.wait, bitN x.g, x.gslot, bitN x.ginv] = true
  have b_sat := bitN_lt sat
  have b_x_g := bitN_lt x.g
  have b_x_ginv := bitN_lt x.ginv
  simp only [fits_par, fits_key, fits_rf, fits_cf, fits_zf, fits_nil, Bool.and_eq_true, decide_eq_true_eq, Bool.and_true]
  omega

theorem Shape.tmin (d : Nat) (a : Nat) (b : Nat) (fmt : Nat) (rnd : Nat) (sat : Bool) (x : Ext) : Shape.Statement (.tmin d a b fmt rnd sat x) := by
  intro h hf _
  have hf : ckT d 20 ++ ckT a 14 ++ ckT b 8 ++ ckN 16 fmt 43 ++ ckRnd rnd 40 ++ x.tile h ++ ckTarith fmt rnd sat = [] := hf
  simp only [List.append_eq_nil_iff] at hf
  have e0 := (ckT_nil ..).1 hf.1.1.1.1.1.1
  have e1 := (ckT_nil ..).1 hf.1.1.1.1.1.2
  have e2 := (ckT_nil ..).1 hf.1.1.1.1.2
  have e3 := (ckN_nil ..).1 hf.1.1.1.2
  have e4 := (ckRnd_nil ..).1 hf.1.1.2
  have hx := tile_fits hf.1.2
  simp only [extFits] at hx
  refine ⟨_, rfl, by
    show Instr.tmin (d) (a) (b) (fmt) (rnd) (bit (bitN sat)) ⟨(x.ahead), (x.scope), (x.ord), (x.wait), bit (bitN x.g), (x.gslot), bit (bitN x.ginv)⟩ = _
    simp only [bit_bitN, BitVec.ofNat_toNat, BitVec.setWidth_eq], ?_⟩
  show fits [kf 0 2 2, kf 2 6 40, kf 26 6 4, pf 20 6, pf 14 6, pf 8 6, pf 43 4, pf 40 3, rf 33 7, pf 32 1, pf 60 4, pf 57 3, pf 55 2, pf 53 2, pf 52 1, pf 48 4, pf 47 1, rf 64 32] [d, a, b, fmt, rnd, bitN sat, x.ahead, x.scope, x.ord, x.wait, bitN x.g, x.gslot, bitN x.ginv] = true
  have b_sat := bitN_lt sat
  have b_x_g := bitN_lt x.g
  have b_x_ginv := bitN_lt x.ginv
  simp only [fits_par, fits_key, fits_rf, fits_cf, fits_zf, fits_nil, Bool.and_eq_true, decide_eq_true_eq, Bool.and_true]
  omega

theorem Shape.tact (d : Nat) (a : Nat) (fmt : Nat) (rnd : Nat) (fn : Nat) (x : Ext) : Shape.Statement (.tact d a fmt rnd fn x) := by
  intro h hf _
  have hf : ckT d 20 ++ ckT a 14 ++ ckN 16 fmt 43 ++ ckRnd rnd 40 ++ ckN 16 fn 32 ++ x.tile h ++ ckTact fmt rnd fn = [] := hf
  simp only [List.append_eq_nil_iff] at hf
  have e0 := (ckT_nil ..).1 hf.1.1.1.1.1.1
  have e1 := (ckT_nil ..).1 hf.1.1.1.1.1.2
  have e2 := (ckN_nil ..).1 hf.1.1.1.1.2
  have e3 := (ckRnd_nil ..).1 hf.1.1.1.2
  have e4 := (ckN_nil ..).1 hf.1.1.2
  have hx := tile_fits hf.1.2
  simp only [extFits] at hx
  refine ⟨_, rfl, by
    show Instr.tact (d) (a) (fmt) (rnd) (fn) ⟨(x.ahead), (x.scope), (x.ord), (x.wait), bit (bitN x.g), (x.gslot), bit (bitN x.ginv)⟩ = _
    simp only [bit_bitN, BitVec.ofNat_toNat, BitVec.setWidth_eq], ?_⟩
  show fits [kf 0 2 2, kf 2 6 40, kf 26 6 5, pf 20 6, pf 14 6, rf 8 6, pf 43 4, pf 40 3, rf 36 4, pf 32 4, pf 60 4, pf 57 3, pf 55 2, pf 53 2, pf 52 1, pf 48 4, pf 47 1, rf 64 32] [d, a, fmt, rnd, fn, x.ahead, x.scope, x.ord, x.wait, bitN x.g, x.gslot, bitN x.ginv] = true
  have b_x_g := bitN_lt x.g
  have b_x_ginv := bitN_lt x.ginv
  simp only [fits_par, fits_key, fits_rf, fits_cf, fits_zf, fits_nil, Bool.and_eq_true, decide_eq_true_eq, Bool.and_true]
  omega

theorem Shape.tcvt (d : Nat) (a : Nat) (fmt : Nat) (rnd : Nat) (dfmt : Nat) (sat : Bool) (sel : Nat) (x : Ext) : Shape.Statement (.tcvt d a fmt rnd dfmt sat sel x) := by
  intro h hf _
  have hf : ckT d 20 ++ ckT a 14 ++ ckN 16 fmt 43 ++ ckRnd rnd 40 ++ ckN 16 dfmt 36 ++ ckN 8 sel 32 ++ x.tile h ++ ckTcvt fmt rnd dfmt sel = [] := hf
  simp only [List.append_eq_nil_iff] at hf
  have e0 := (ckT_nil ..).1 hf.1.1.1.1.1.1.1
  have e1 := (ckT_nil ..).1 hf.1.1.1.1.1.1.2
  have e2 := (ckN_nil ..).1 hf.1.1.1.1.1.2
  have e3 := (ckRnd_nil ..).1 hf.1.1.1.1.2
  have e4 := (ckN_nil ..).1 hf.1.1.1.2
  have e5 := (ckN_nil ..).1 hf.1.1.2
  have hx := tile_fits hf.1.2
  simp only [extFits] at hx
  refine ⟨_, rfl, by
    show Instr.tcvt (d) (a) (fmt) (rnd) (dfmt) (bit (bitN sat)) (sel) ⟨(x.ahead), (x.scope), (x.ord), (x.wait), bit (bitN x.g), (x.gslot), bit (bitN x.ginv)⟩ = _
    simp only [bit_bitN, BitVec.ofNat_toNat, BitVec.setWidth_eq], ?_⟩
  show fits [kf 0 2 2, kf 2 6 40, kf 26 6 6, pf 20 6, pf 14 6, rf 8 6, pf 43 4, pf 40 3, pf 36 4, pf 35 1, pf 32 3, pf 60 4, pf 57 3, pf 55 2, pf 53 2, pf 52 1, pf 48 4, pf 47 1, rf 64 32] [d, a, fmt, rnd, dfmt, bitN sat, sel, x.ahead, x.scope, x.ord, x.wait, bitN x.g, x.gslot, bitN x.ginv] = true
  have b_sat := bitN_lt sat
  have b_x_g := bitN_lt x.g
  have b_x_ginv := bitN_lt x.ginv
  simp only [fits_par, fits_key, fits_rf, fits_cf, fits_zf, fits_nil, Bool.and_eq_true, decide_eq_true_eq, Bool.and_true]
  omega

theorem Shape.ttrn (d : Nat) (a : Nat) (fmt : Nat) (sel : Nat) (x : Ext) : Shape.Statement (.ttrn d a fmt sel x) := by
  intro h hf _
  have hf : ckT d 20 ++ ckT a 14 ++ ckN 16 fmt 43 ++ ckN 8 sel 32 ++ x.tile h ++ ckTtrn fmt sel = [] := hf
  simp only [List.append_eq_nil_iff] at hf
  have e0 := (ckT_nil ..).1 hf.1.1.1.1.1
  have e1 := (ckT_nil ..).1 hf.1.1.1.1.2
  have e2 := (ckN_nil ..).1 hf.1.1.1.2
  have e3 := (ckN_nil ..).1 hf.1.1.2
  have hx := tile_fits hf.1.2
  simp only [extFits] at hx
  refine ⟨_, rfl, by
    show Instr.ttrn (d) (a) (fmt) (sel) ⟨(x.ahead), (x.scope), (x.ord), (x.wait), bit (bitN x.g), (x.gslot), bit (bitN x.ginv)⟩ = _
    simp only [bit_bitN, BitVec.ofNat_toNat, BitVec.setWidth_eq], ?_⟩
  show fits [kf 0 2 2, kf 2 6 40, kf 26 6 7, pf 20 6, pf 14 6, rf 8 6, pf 43 4, rf 40 3, rf 35 5, pf 32 3, pf 60 4, pf 57 3, pf 55 2, pf 53 2, pf 52 1, pf 48 4, pf 47 1, rf 64 32] [d, a, fmt, sel, x.ahead, x.scope, x.ord, x.wait, bitN x.g, x.gslot, bitN x.ginv] = true
  have b_x_g := bitN_lt x.g
  have b_x_ginv := bitN_lt x.ginv
  simp only [fits_par, fits_key, fits_rf, fits_cf, fits_zf, fits_nil, Bool.and_eq_true, decide_eq_true_eq, Bool.and_true]
  omega

theorem Shape.tplane (d : Nat) (a : Nat) (pf : Nat) (sel : Nat) (x : Ext) : Shape.Statement (.tplane d a pf sel x) := by
  intro h hf _
  have hf : ckT d 20 ++ ckT a 14 ++ ckN 16 pf 36 ++ ckN 8 sel 32 ++ x.tile h ++ ckTplane pf sel = [] := hf
  simp only [List.append_eq_nil_iff] at hf
  have e0 := (ckT_nil ..).1 hf.1.1.1.1.1
  have e1 := (ckT_nil ..).1 hf.1.1.1.1.2
  have e2 := (ckN_nil ..).1 hf.1.1.1.2
  have e3 := (ckN_nil ..).1 hf.1.1.2
  have hx := tile_fits hf.1.2
  simp only [extFits] at hx
  refine ⟨_, rfl, by
    show Instr.tplane (d) (a) (pf) (sel) ⟨(x.ahead), (x.scope), (x.ord), (x.wait), bit (bitN x.g), (x.gslot), bit (bitN x.ginv)⟩ = _
    simp only [bit_bitN, BitVec.ofNat_toNat, BitVec.setWidth_eq], ?_⟩
  show fits [kf 0 2 2, kf 2 6 40, kf 26 6 8, Sys2Proof.pf 20 6, Sys2Proof.pf 14 6, rf 8 6, rf 43 4, rf 40 3, Sys2Proof.pf 36 4, rf 35 1, Sys2Proof.pf 32 3, Sys2Proof.pf 60 4, Sys2Proof.pf 57 3, Sys2Proof.pf 55 2, Sys2Proof.pf 53 2, Sys2Proof.pf 52 1, Sys2Proof.pf 48 4, Sys2Proof.pf 47 1, rf 64 32] [d, a, pf, sel, x.ahead, x.scope, x.ord, x.wait, bitN x.g, x.gslot, bitN x.ginv] = true
  have b_x_g := bitN_lt x.g
  have b_x_ginv := bitN_lt x.ginv
  simp only [fits_par, fits_key, fits_rf, fits_cf, fits_zf, fits_nil, Bool.and_eq_true, decide_eq_true_eq, Bool.and_true]
  omega

theorem Shape.tred (d : Nat) (a : Nat) (fmt : Nat) (dir : Bool) (op : Nat) (x : Ext) : Shape.Statement (.tred d a fmt dir op x) := by
  intro h hf _
  have hf : ckV h d 20 ++ ckT a 14 ++ ckN 16 fmt 43 ++ ckN 4 op 32 ++ x.tile h ++ ckTred fmt op = [] := hf
  simp only [List.append_eq_nil_iff] at hf
  have e0 := (ckV_nil ..).1 hf.1.1.1.1.1
  have e1 := (ckT_nil ..).1 hf.1.1.1.1.2
  have e2 := (ckN_nil ..).1 hf.1.1.1.2
  have e3 := (ckN_nil ..).1 hf.1.1.2
  have hx := tile_fits hf.1.2
  have l416 := lim_le h 4 16 (by decide)
  simp only [extFits] at hx
  refine ⟨_, rfl, by
    show Instr.tred (d) (a) (fmt) (bit (bitN dir)) (op) ⟨(x.ahead), (x.scope), (x.ord), (x.wait), bit (bitN x.g), (x.gslot), bit (bitN x.ginv)⟩ = _
    simp only [bit_bitN, BitVec.ofNat_toNat, BitVec.setWidth_eq], ?_⟩
  show fits [kf 0 2 2, kf 2 6 40, kf 26 6 9, pf 20 6, pf 14 6, rf 8 6, pf 43 4, rf 40 3, rf 35 5, pf 34 1, pf 32 2, pf 60 4, pf 57 3, pf 55 2, pf 53 2, pf 52 1, pf 48 4, pf 47 1, rf 64 32] [d, a, fmt, bitN dir, op, x.ahead, x.scope, x.ord, x.wait, bitN x.g, x.gslot, bitN x.ginv] = true
  have b_dir := bitN_lt dir
  have b_x_g := bitN_lt x.g
  have b_x_ginv := bitN_lt x.ginv
  simp only [fits_par, fits_key, fits_rf, fits_cf, fits_zf, fits_nil, Bool.and_eq_true, decide_eq_true_eq, Bool.and_true]
  omega

theorem Shape.tbcast (d : Nat) (a : Nat) (fmt : Nat) (kind : Nat) (dir : Bool) (x : Ext) : Shape.Statement (.tbcast d a fmt kind dir x) := by
  intro h hf _
  have hf : ckT d 20 ++ ckV h a 14 ++ ckN 16 fmt 43 ++ ckN 4 kind 33 ++ x.tile h ++ ckTbcast fmt kind = [] := hf
  simp only [List.append_eq_nil_iff] at hf
  have e0 := (ckT_nil ..).1 hf.1.1.1.1.1
  have e1 := (ckV_nil ..).1 hf.1.1.1.1.2
  have e2 := (ckN_nil ..).1 hf.1.1.1.2
  have e3 := (ckN_nil ..).1 hf.1.1.2
  have hx := tile_fits hf.1.2
  have l416 := lim_le h 4 16 (by decide)
  simp only [extFits] at hx
  refine ⟨_, rfl, by
    show Instr.tbcast (d) (a) (fmt) (kind) (bit (bitN dir)) ⟨(x.ahead), (x.scope), (x.ord), (x.wait), bit (bitN x.g), (x.gslot), bit (bitN x.ginv)⟩ = _
    simp only [bit_bitN, BitVec.ofNat_toNat, BitVec.setWidth_eq], ?_⟩
  show fits [kf 0 2 2, kf 2 6 40, kf 26 6 10, pf 20 6, pf 14 6, rf 8 6, pf 43 4, rf 40 3, rf 35 5, pf 33 2, pf 32 1, pf 60 4, pf 57 3, pf 55 2, pf 53 2, pf 52 1, pf 48 4, pf 47 1, rf 64 32] [d, a, fmt, kind, bitN dir, x.ahead, x.scope, x.ord, x.wait, bitN x.g, x.gslot, bitN x.ginv] = true
  have b_dir := bitN_lt dir
  have b_x_g := bitN_lt x.g
  have b_x_ginv := bitN_lt x.ginv
  simp only [fits_par, fits_key, fits_rf, fits_cf, fits_zf, fits_nil, Bool.and_eq_true, decide_eq_true_eq, Bool.and_true]
  omega

theorem Shape.cpy (len : CLen) (a : Nat) (b : Nat) (ssp : Nat) (scs : Nat) (dsp : Nat) (dcs : Nat) (tc : Nat) (nv : Bool) (nreg : Nat) (ncore : Nat) (x : Ext) : Shape.Statement (.cpy len a b ssp scs dsp dcs tc nv nreg ncore x) := by
  intro h hf _
  have hf : len.faults h ++ ckSs h a 14 ++ ckSs h b 8 ++ ckN 4 ssp 45 ++ ckN 4 scs 43 ++ ckN 4 dsp 41 ++ ckN 4 dcs 39 ++ ckN 8 tc 36 ++ ckN 16 nreg 91 ++ ckN 256 ncore 83 ++ x.cmd h ++ ckCpy ssp scs dsp dcs nv nreg ncore = [] := hf
  simp only [List.append_eq_nil_iff] at hf
  have hlen := hf.1.1.1.1.1.1.1.1.1.1.1
  have e1 := (ckSs_nil ..).1 hf.1.1.1.1.1.1.1.1.1.1.2
  have e2 := (ckSs_nil ..).1 hf.1.1.1.1.1.1.1.1.1.2
  have e3 := (ckN_nil ..).1 hf.1.1.1.1.1.1.1.1.2
  have e4 := (ckN_nil ..).1 hf.1.1.1.1.1.1.1.2
  have e5 := (ckN_nil ..).1 hf.1.1.1.1.1.1.2
  have e6 := (ckN_nil ..).1 hf.1.1.1.1.1.2
  have e7 := (ckN_nil ..).1 hf.1.1.1.1.2
  have e8 := (ckN_nil ..).1 hf.1.1.1.2
  have e9 := (ckN_nil ..).1 hf.1.1.2
  have hx := cmd_fits hf.1.2
  have l1648 := lim_le h 16 48 (by decide)
  simp only [extFits] at hx
  cases len with
  | reg r =>
    have hr := (ckSd_nil ..).1 hlen
    refine ⟨_, rfl, by
      show Instr.cpy (.reg (r)) (a) (b) (ssp) (scs) (dsp) (dcs) (tc) (bit (bitN nv)) (nreg) (ncore) ⟨(x.ahead), (x.scope), (x.ord), (x.wait), bit (bitN x.g), (x.gslot), bit (bitN x.ginv)⟩ = _
      simp only [bit_bitN, BitVec.ofNat_toNat, BitVec.setWidth_eq], ?_⟩
    show fits [kf 0 2 2, kf 2 6 41, kf 26 6 0, pf 14 6, pf 8 6, pf 45 2, pf 43 2, pf 41 2, pf 39 2, pf 36 3, rf 32 4, pf 60 4, pf 57 3, pf 55 2, pf 53 2, pf 52 1, pf 48 4, pf 47 1, pf 95 1, pf 91 4, pf 83 8, rf 77 6, rf 75 2, rf 73 2, rf 64 9, pf 20 6] [a, b, ssp, scs, dsp, dcs, tc, x.ahead, x.scope, x.ord, x.wait, bitN x.g, x.gslot, bitN x.ginv, bitN nv, nreg, ncore, r] = true
    have b_nv := bitN_lt nv
    have b_x_g := bitN_lt x.g
    have b_x_ginv := bitN_lt x.ginv
    simp only [fits_par, fits_key, fits_rf, fits_cf, fits_zf, fits_nil, Bool.and_eq_true, decide_eq_true_eq, Bool.and_true]
    omega
  | lit l =>
    refine ⟨_, rfl, by
      show Instr.cpy (.lit (BitVec.ofNat 64 (l.toNat))) (a) (b) (ssp) (scs) (dsp) (dcs) (tc) (bit (bitN nv)) (nreg) (ncore) ⟨(x.ahead), (x.scope), (x.ord), (x.wait), bit (bitN x.g), (x.gslot), bit (bitN x.ginv)⟩ = _
      simp only [bit_bitN, BitVec.ofNat_toNat, BitVec.setWidth_eq], ?_⟩
    show fits [kf 0 2 3, kf 2 6 41, kf 26 6 0, pf 14 6, pf 8 6, pf 45 2, pf 43 2, pf 41 2, pf 39 2, pf 36 3, rf 32 4, pf 60 4, pf 57 3, pf 55 2, pf 53 2, pf 52 1, pf 48 4, pf 47 1, pf 95 1, pf 91 4, pf 83 8, rf 77 6, rf 75 2, rf 73 2, rf 64 9, rf 20 6, pf 96 64] [a, b, ssp, scs, dsp, dcs, tc, x.ahead, x.scope, x.ord, x.wait, bitN x.g, x.gslot, bitN x.ginv, bitN nv, nreg, ncore, l.toNat] = true
    have b_nv := bitN_lt nv
    have b_x_g := bitN_lt x.g
    have b_x_ginv := bitN_lt x.ginv
    have t_l := l.isLt
    simp only [fits_par, fits_key, fits_rf, fits_cf, fits_zf, fits_nil, Bool.and_eq_true, decide_eq_true_eq, Bool.and_true]
    omega

theorem Shape.cpyw (len : CLen) (a : Nat) (b : Nat) (ssp : Nat) (scs : Nat) (dsp : Nat) (dcs : Nat) (tc : Nat) (nv : Bool) (nreg : Nat) (ncore : Nat) (wreg : Nat) (wsp : Nat) (wcs : Nat) (x : Ext) : Shape.Statement (.cpyw len a b ssp scs dsp dcs tc nv nreg ncore wreg wsp wcs x) := by
  intro h hf _
  have hf : len.faults h ++ ckSs h a 14 ++ ckSs h b 8 ++ ckN 4 ssp 45 ++ ckN 4 scs 43 ++ ckN 4 dsp 41 ++ ckN 4 dcs 39 ++ ckN 8 tc 36 ++ ckN 16 nreg 91 ++ ckN 256 ncore 83 ++ ckSd h wreg 77 ++ ckN 4 wsp 75 ++ ckN 4 wcs 73 ++ x.cmd h ++ ckCpy ssp scs dsp dcs nv nreg ncore ++ ckSpace wsp wcs 75 73 = [] := hf
  simp only [List.append_eq_nil_iff] at hf
  have hlen := hf.1.1.1.1.1.1.1.1.1.1.1.1.1.1.1
  have e1 := (ckSs_nil ..).1 hf.1.1.1.1.1.1.1.1.1.1.1.1.1.1.2
  have e2 := (ckSs_nil ..).1 hf.1.1.1.1.1.1.1.1.1.1.1.1.1.2
  have e3 := (ckN_nil ..).1 hf.1.1.1.1.1.1.1.1.1.1.1.1.2
  have e4 := (ckN_nil ..).1 hf.1.1.1.1.1.1.1.1.1.1.1.2
  have e5 := (ckN_nil ..).1 hf.1.1.1.1.1.1.1.1.1.1.2
  have e6 := (ckN_nil ..).1 hf.1.1.1.1.1.1.1.1.1.2
  have e7 := (ckN_nil ..).1 hf.1.1.1.1.1.1.1.1.2
  have e8 := (ckN_nil ..).1 hf.1.1.1.1.1.1.1.2
  have e9 := (ckN_nil ..).1 hf.1.1.1.1.1.1.2
  have e10 := (ckSd_nil ..).1 hf.1.1.1.1.1.2
  have e11 := (ckN_nil ..).1 hf.1.1.1.1.2
  have e12 := (ckN_nil ..).1 hf.1.1.1.2
  have hx := cmd_fits hf.1.1.2
  have e15 := ckSpace_fits hf.2
  have l1648 := lim_le h 16 48 (by decide)
  simp only [extFits] at hx
  cases len with
  | reg r =>
    have hr := (ckSd_nil ..).1 hlen
    refine ⟨_, rfl, by
      show Instr.cpyw (.reg (r)) (a) (b) (ssp) (scs) (dsp) (dcs) (tc) (bit (bitN nv)) (nreg) (ncore) (wreg) (wsp) (wcs) ⟨(x.ahead), (x.scope), (x.ord), (x.wait), bit (bitN x.g), (x.gslot), bit (bitN x.ginv)⟩ = _
      simp only [bit_bitN, BitVec.ofNat_toNat, BitVec.setWidth_eq], ?_⟩
    show fits [kf 0 2 2, kf 2 6 41, kf 26 6 1, pf 14 6, pf 8 6, pf 45 2, pf 43 2, pf 41 2, pf 39 2, pf 36 3, rf 32 4, pf 60 4, pf 57 3, pf 55 2, pf 53 2, pf 52 1, pf 48 4, pf 47 1, pf 95 1, pf 91 4, pf 83 8, pf 77 6, pf 75 2, pf 73 2, rf 64 9, pf 20 6] [a, b, ssp, scs, dsp, dcs, tc, x.ahead, x.scope, x.ord, x.wait, bitN x.g, x.gslot, bitN x.ginv, bitN nv, nreg, ncore, wreg, wsp, wcs, r] = true
    have b_nv := bitN_lt nv
    have b_x_g := bitN_lt x.g
    have b_x_ginv := bitN_lt x.ginv
    simp only [fits_par, fits_key, fits_rf, fits_cf, fits_zf, fits_nil, Bool.and_eq_true, decide_eq_true_eq, Bool.and_true]
    omega
  | lit l =>
    refine ⟨_, rfl, by
      show Instr.cpyw (.lit (BitVec.ofNat 64 (l.toNat))) (a) (b) (ssp) (scs) (dsp) (dcs) (tc) (bit (bitN nv)) (nreg) (ncore) (wreg) (wsp) (wcs) ⟨(x.ahead), (x.scope), (x.ord), (x.wait), bit (bitN x.g), (x.gslot), bit (bitN x.ginv)⟩ = _
      simp only [bit_bitN, BitVec.ofNat_toNat, BitVec.setWidth_eq], ?_⟩
    show fits [kf 0 2 3, kf 2 6 41, kf 26 6 1, pf 14 6, pf 8 6, pf 45 2, pf 43 2, pf 41 2, pf 39 2, pf 36 3, rf 32 4, pf 60 4, pf 57 3, pf 55 2, pf 53 2, pf 52 1, pf 48 4, pf 47 1, pf 95 1, pf 91 4, pf 83 8, pf 77 6, pf 75 2, pf 73 2, rf 64 9, rf 20 6, pf 96 64] [a, b, ssp, scs, dsp, dcs, tc, x.ahead, x.scope, x.ord, x.wait, bitN x.g, x.gslot, bitN x.ginv, bitN nv, nreg, ncore, wreg, wsp, wcs, l.toNat] = true
    have b_nv := bitN_lt nv
    have b_x_g := bitN_lt x.g
    have b_x_ginv := bitN_lt x.ginv
    have t_l := l.isLt
    simp only [fits_par, fits_key, fits_rf, fits_cf, fits_zf, fits_nil, Bool.and_eq_true, decide_eq_true_eq, Bool.and_true]
    omega

theorem Shape.xfm (a : Nat) (b : Nat) (dlay : Nat) (slay : Nat) (tc : Nat) (xop : Nat) (i1 : Nat) (i2 : Nat) (i1v : Bool) (i2v : Bool) (rnd : Nat) (x : Ext) : Shape.Statement (.xfm a b dlay slay tc xop i1 i2 i1v i2v rnd x) := by
  intro h hf _
  have hf : ckSs h a 14 ++ ckSs h b 8 ++ ckN 16 dlay 43 ++ ckN 16 slay 39 ++ ckN 8 tc 36 ++ ckN 16 xop 32 ++ ckN 16 i1 92 ++ ckN 16 i2 88 ++ ckRnd rnd 83 ++ x.cmd h ++ ckXfm xop i1 i2 i1v i2v rnd = [] := hf
  simp only [List.append_eq_nil_iff] at hf
  have e0 := (ckSs_nil ..).1 hf.1.1.1.1.1.1.1.1.1.1
  have e1 := (ckSs_nil ..).1 hf.1.1.1.1.1.1.1.1.1.2
  have e2 := (ckN_nil ..).1 hf.1.1.1.1.1.1.1.1.2
  have e3 := (ckN_nil ..).1 hf.1.1.1.1.1.1.1.2
  have e4 := (ckN_nil ..).1 hf.1.1.1.1.1.1.2
  have e5 := (ckN_nil ..).1 hf.1.1.1.1.1.2
  have e6 := (ckN_nil ..).1 hf.1.1.1.1.2
  have e7 := (ckN_nil ..).1 hf.1.1.1.2
  have e8 := (ckRnd_nil ..).1 hf.1.1.2
  have hx := cmd_fits hf.1.2
  have l1648 := lim_le h 16 48 (by decide)
  simp only [extFits] at hx
  refine ⟨_, rfl, by
    show Instr.xfm (a) (b) (dlay) (slay) (tc) (xop) (i1) (i2) (bit (bitN i1v)) (bit (bitN i2v)) (rnd) ⟨(x.ahead), (x.scope), (x.ord), (x.wait), bit (bitN x.g), (x.gslot), bit (bitN x.ginv)⟩ = _
    simp only [bit_bitN, BitVec.ofNat_toNat, BitVec.setWidth_eq], ?_⟩
  show fits [kf 0 2 2, kf 2 6 42, kf 26 6 0, rf 20 6, pf 14 6, pf 8 6, pf 43 4, pf 39 4, pf 36 3, pf 32 4, pf 60 4, pf 57 3, pf 55 2, pf 53 2, pf 52 1, pf 48 4, pf 47 1, pf 92 4, pf 88 4, pf 87 1, pf 86 1, pf 83 3, rf 64 19] [a, b, dlay, slay, tc, xop, x.ahead, x.scope, x.ord, x.wait, bitN x.g, x.gslot, bitN x.ginv, i1, i2, bitN i1v, bitN i2v, rnd] = true
  have b_i1v := bitN_lt i1v
  have b_i2v := bitN_lt i2v
  have b_x_g := bitN_lt x.g
  have b_x_ginv := bitN_lt x.ginv
  simp only [fits_par, fits_key, fits_rf, fits_cf, fits_zf, fits_nil, Bool.and_eq_true, decide_eq_true_eq, Bool.and_true]
  omega

theorem Shape.layv (a : Nat) (slot : Nat) (tc : Nat) (x : Ext) : Shape.Statement (.layv a slot tc x) := by
  intro h hf _
  have hf : ckSs h a 14 ++ ckN 16 slot 43 ++ ckN 8 tc 36 ++ x.cmd h = [] := hf
  simp only [List.append_eq_nil_iff] at hf
  have e0 := (ckSs_nil ..).1 hf.1.1.1
  have e1 := (ckN_nil ..).1 hf.1.1.2
  have e2 := (ckN_nil ..).1 hf.1.2
  have hx := cmd_fits hf.2
  have l1648 := lim_le h 16 48 (by decide)
  simp only [extFits] at hx
  refine ⟨_, rfl, by
    show Instr.layv (a) (slot) (tc) ⟨(x.ahead), (x.scope), (x.ord), (x.wait), bit (bitN x.g), (x.gslot), bit (bitN x.ginv)⟩ = _
    simp only [bit_bitN, BitVec.ofNat_toNat, BitVec.setWidth_eq], ?_⟩
  show fits [kf 0 2 2, kf 2 6 42, kf 26 6 1, rf 20 6, pf 14 6, rf 8 6, pf 43 4, rf 39 4, pf 36 3, rf 32 4, pf 60 4, pf 57 3, pf 55 2, pf 53 2, pf 52 1, pf 48 4, pf 47 1, rf 64 32] [a, slot, tc, x.ahead, x.scope, x.ord, x.wait, bitN x.g, x.gslot, bitN x.ginv] = true
  have b_x_g := bitN_lt x.g
  have b_x_ginv := bitN_lt x.ginv
  simp only [fits_par, fits_key, fits_rf, fits_cf, fits_zf, fits_nil, Bool.and_eq_true, decide_eq_true_eq, Bool.and_true]
  omega

theorem Shape.coll (d : Nat) (a : Nat) (b : Nat) (op : Nat) (red : Nat) (ty : Nat) (span : Bool) (tc : Nat) (nv : Bool) (nreg : Nat) (ncore : Nat) (root : Nat) (ssp : Nat) (dsp : Nat) (x : Ext) : Shape.Statement (.coll d a b op red ty span tc nv nreg ncore root ssp dsp x) := by
  intro h hf _
  have hf : ckSd h d 20 ++ ckSs h a 14 ++ ckSs h b 8 ++ ckN 4 op 45 ++ ckN 4 red 43 ++ ckN 4 ty 41 ++ ckN 8 tc 36 ++ ckN 16 nreg 91 ++ ckN 256 ncore 83 ++ ckN 512 root 74 ++ ckN 4 ssp 72 ++ ckN 4 dsp 70 ++ x.cmd h ++ ckColl op red ty nv nreg ncore root ssp dsp = [] := hf
  simp only [List.append_eq_nil_iff] at hf
  have e0 := (ckSd_nil ..).1 hf.1.1.1.1.1.1.1.1.1.1.1.1.1
  have e1 := (ckSs_nil ..).1 hf.1.1.1.1.1.1.1.1.1.1.1.1.2
  have e2 := (ckSs_nil ..).1 hf.1.1.1.1.1.1.1.1.1.1.1.2
  have e3 := (ckN_nil ..).1 hf.1.1.1.1.1.1.1.1.1.1.2
  have e4 := (ckN_nil ..).1 hf.1.1.1.1.1.1.1.1.1.2
  have e5 := (ckN_nil ..).1 hf.1.1.1.1.1.1.1.1.2
  have e6 := (ckN_nil ..).1 hf.1.1.1.1.1.1.1.2
  have e7 := (ckN_nil ..).1 hf.1.1.1.1.1.1.2
  have e8 := (ckN_nil ..).1 hf.1.1.1.1.1.2
  have e9 := (ckN_nil ..).1 hf.1.1.1.1.2
  have e10 := (ckN_nil ..).1 hf.1.1.1.2
  have e11 := (ckN_nil ..).1 hf.1.1.2
  have hx := cmd_fits hf.1.2
  have l1648 := lim_le h 16 48 (by decide)
  simp only [extFits] at hx
  refine ⟨_, rfl, by
    show Instr.coll (d) (a) (b) (op) (red) (ty) (bit (bitN span)) (tc) (bit (bitN nv)) (nreg) (ncore) (root) (ssp) (dsp) ⟨(x.ahead), (x.scope), (x.ord), (x.wait), bit (bitN x.g), (x.gslot), bit (bitN x.ginv)⟩ = _
    simp only [bit_bitN, BitVec.ofNat_toNat, BitVec.setWidth_eq], ?_⟩
  show fits [kf 0 2 2, kf 2 6 43, kf 26 6 0, pf 20 6, pf 14 6, pf 8 6, pf 45 2, pf 43 2, pf 41 2, pf 40 1, rf 39 1, pf 36 3, rf 32 4, pf 60 4, pf 57 3, pf 55 2, pf 53 2, pf 52 1, pf 48 4, pf 47 1, pf 95 1, pf 91 4, pf 83 8, pf 74 9, pf 72 2, pf 70 2, rf 64 6] [d, a, b, op, red, ty, bitN span, tc, x.ahead, x.scope, x.ord, x.wait, bitN x.g, x.gslot, bitN x.ginv, bitN nv, nreg, ncore, root, ssp, dsp] = true
  have b_nv := bitN_lt nv
  have b_span := bitN_lt span
  have b_x_g := bitN_lt x.g
  have b_x_ginv := bitN_lt x.ginv
  simp only [fits_par, fits_key, fits_rf, fits_cf, fits_zf, fits_nil, Bool.and_eq_true, decide_eq_true_eq, Bool.and_true]
  omega

theorem Shape.tcwait (a : Nat) (tc : Nat) : Shape.Statement (.tcwait a tc) := by
  intro h hf _
  have hf : ckSs h a 14 ++ chk (decide (8 ≤ tc)) 7 8 = [] := hf
  simp only [List.append_eq_nil_iff] at hf
  have e0 := (ckSs_nil ..).1 hf.1
  have e1 := (chk_nil ..).1 hf.2
  have l1648 := lim_le h 16 48 (by decide)
  simp only [Bool.or_eq_false_iff, decide_eq_false_iff_not] at e1
  refine ⟨_, rfl, rfl, ?_⟩
  show fits [kf 0 2 0, kf 2 6 0x2c, kf 26 6 0, rf 20 6, pf 14 6, pf 8 6] [a, tc] = true
  simp only [fits_par, fits_key, fits_rf, fits_cf, fits_zf, fits_nil, Bool.and_eq_true, decide_eq_true_eq, Bool.and_true]
  omega

theorem Shape.tcrd (d : Nat) (issued : Nat) (tc : Nat) : Shape.Statement (.tcrd d issued tc) := by
  intro h hf _
  have hf : ckSd h d 20 ++ ckN 2 issued 14 ++ chk (decide (8 ≤ tc)) 7 8 = [] := hf
  simp only [List.append_eq_nil_iff] at hf
  have e0 := (ckSd_nil ..).1 hf.1.1
  have e1 := (ckN_nil ..).1 hf.1.2
  have e2 := (chk_nil ..).1 hf.2
  have l1648 := lim_le h 16 48 (by decide)
  simp only [Bool.or_eq_false_iff, decide_eq_false_iff_not] at e2
  refine ⟨_, rfl, rfl, ?_⟩
  show fits [kf 0 2 0, kf 2 6 0x2c, kf 26 6 1, pf 20 6, pf 14 6, pf 8 6] [d, issued, tc] = true
  simp only [fits_par, fits_key, fits_rf, fits_cf, fits_zf, fits_nil, Bool.and_eq_true, decide_eq_true_eq, Bool.and_true]
  omega

theorem Shape.mrecv (d : Nat) (n : Nat) : Shape.Statement (.mrecv d n) := by
  intro h hf _
  have hf : ckSd h d 20 ++ chk (decide (16 ≤ n)) 7 8 = [] := hf
  simp only [List.append_eq_nil_iff] at hf
  have e0 := (ckSd_nil ..).1 hf.1
  have e1 := (chk_nil ..).1 hf.2
  have l1648 := lim_le h 16 48 (by decide)
  simp only [Bool.or_eq_false_iff, decide_eq_false_iff_not] at e1
  refine ⟨_, rfl, rfl, ?_⟩
  show fits [kf 0 2 0, kf 2 6 0x2d, kf 26 6 0, pf 20 6, rf 14 6, pf 8 6] [d, n] = true
  simp only [fits_par, fits_key, fits_rf, fits_cf, fits_zf, fits_nil, Bool.and_eq_true, decide_eq_true_eq, Bool.and_true]
  omega

theorem Shape.hset (clr : Bool) (a : Nat) (n : Nat) : Shape.Statement (.hset clr a n) := by
  intro h hf _
  have hf : ckSs h a 14 ++ ckN 64 n 8 ++ ckHset clr a = [] := hf
  simp only [List.append_eq_nil_iff] at hf
  have e0 := (ckSs_nil ..).1 hf.1.1
  have e1 := (ckN_nil ..).1 hf.1.2
  have l1648 := lim_le h 16 48 (by decide)
  refine ⟨_, rfl, by
    show Instr.hset (bit (bitN clr)) (a) (n) = _
    simp only [bit_bitN, BitVec.ofNat_toNat, BitVec.setWidth_eq], ?_⟩
  show fits [kf 0 2 0, kf 2 6 0x2d, kf 26 6 1, pf 20 1, rf 21 5, pf 14 6, pf 8 6] [bitN clr, a, n] = true
  have b_clr := bitN_lt clr
  simp only [fits_par, fits_key, fits_rf, fits_cf, fits_zf, fits_nil, Bool.and_eq_true, decide_eq_true_eq, Bool.and_true]
  omega

theorem Shape.join (a : Nat) : Shape.Statement (.join a) := by
  intro h hf _
  have hf : ckSs h a 14 = [] := hf
  have e0 := (ckSs_nil ..).1 hf
  have l1648 := lim_le h 16 48 (by decide)
  refine ⟨_, rfl, rfl, ?_⟩
  show fits [kf 0 2 0, kf 2 6 0x2d, kf 26 6 2, rf 20 6, pf 14 6, rf 8 6] [a] = true
  simp only [fits_par, fits_key, fits_rf, fits_cf, fits_zf, fits_nil, Bool.and_eq_true, decide_eq_true_eq, Bool.and_true]
  omega

theorem Shape.yield : Shape.Statement (.yield) := by
  intro h hf _
  refine ⟨_, rfl, rfl, ?_⟩
  show fits [kf 0 2 0, kf 2 6 0x2d, kf 26 6 3, rf 20 6, rf 14 6, rf 8 6] [] = true
  rfl

theorem Shape.exit : Shape.Statement (.exit) := by
  intro h hf _
  refine ⟨_, rfl, rfl, ?_⟩
  show fits [kf 0 2 0, kf 2 6 0x2d, kf 26 6 4, rf 20 6, rf 14 6, rf 8 6] [] = true
  rfl

theorem Shape.rein : Shape.Statement (.rein) := by
  intro h hf _
  refine ⟨_, rfl, rfl, ?_⟩
  show fits [kf 0 2 0, kf 2 6 0x2d, kf 26 6 5, rf 20 6, rf 14 6, rf 8 6] [] = true
  rfl

theorem Shape.reinq (d : Nat) : Shape.Statement (.reinq d) := by
  intro h hf _
  have hf : ckG h d 20 = [] := hf
  have e0 := (ckG_nil ..).1 hf
  have l816 := lim_le h 8 16 (by decide)
  refine ⟨_, rfl, rfl, ?_⟩
  show fits [kf 0 2 0, kf 2 6 0x2d, kf 26 6 6, pf 20 6, rf 14 6, rf 8 6] [d] = true
  simp only [fits_par, fits_key, fits_rf, fits_cf, fits_zf, fits_nil, Bool.and_eq_true, decide_eq_true_eq, Bool.and_true]
  omega

theorem Shape.msend (a : Nat) (b : Nat) (kind : Nat) (slot : Nat) (mreg : Nat) (rargb : Nat) (rpay : Nat) (codew : Nat) (x : Ext) : Shape.Statement (.msend a b kind slot mreg rargb rpay codew x) := by
  intro h hf _
  have hf : ckSs h a 14 ++ ckSs h b 8 ++ ckN 4 kind 45 ++ ckN 64 slot 39 ++ ckN 16 mreg 35 ++ ckSd h rargb 90 ++ ckSd h rpay 84 ++ ckN 64 codew 78 ++ x.cmd h ++ ckMsend kind slot mreg rpay codew = [] := hf
  simp only [List.append_eq_nil_iff] at hf
  have e0 := (ckSs_nil ..).1 hf.1.1.1.1.1.1.1.1.1
  have e1 := (ckSs_nil ..).1 hf.1.1.1.1.1.1.1.1.2
  have e2 := (ckN_nil ..).1 hf.1.1.1.1.1.1.1.2
  have e3 := (ckN_nil ..).1 hf.1.1.1.1.1.1.2
  have e4 := (ckN_nil ..).1 hf.1.1.1.1.1.2
  have e5 := (ckSd_nil ..).1 hf.1.1.1.1.2
  have e6 := (ckSd_nil ..).1 hf.1.1.1.2
  have e7 := (ckN_nil ..).1 hf.1.1.2
  have hx := cmd_fits hf.1.2
  have l1648 := lim_le h 16 48 (by decide)
  simp only [extFits] at hx
  refine ⟨_, rfl, by
    show Instr.msend (a) (b) (kind) (slot) (mreg) (rargb) (rpay) (codew) ⟨(x.ahead), (x.scope), (x.ord), (x.wait), bit (bitN x.g), (x.gslot), bit (bitN x.ginv)⟩ = _
    simp only [bit_bitN, BitVec.ofNat_toNat, BitVec.setWidth_eq], ?_⟩
  show fits [kf 0 2 2, kf 2 6 46, kf 26 6 0, rf 20 6, pf 14 6, pf 8 6, pf 45 2, pf 39 6, pf 35 4, rf 32 3, pf 60 4, pf 57 3, pf 55 2, pf 53 2, pf 52 1, pf 48 4, pf 47 1, pf 90 6, pf 84 6, pf 78 6, rf 64 14] [a, b, kind, slot, mreg, x.ahead, x.scope, x.ord, x.wait, bitN x.g, x.gslot, bitN x.ginv, rargb, rpay, codew] = true
  have b_x_g := bitN_lt x.g
  have b_x_ginv := bitN_lt x.ginv
  simp only [fits_par, fits_key, fits_rf, fits_cf, fits_zf, fits_nil, Bool.and_eq_true, decide_eq_true_eq, Bool.and_true]
  omega

theorem Shape.fork (a : Nat) (b : Nat) (full : Bool) (rargb : Nat) (rjoin : Nat) (x : Ext) : Shape.Statement (.fork a b full rargb rjoin x) := by
  intro h hf _
  have hf : ckSs h a 14 ++ ckSs h b 8 ++ ckSd h rargb 90 ++ ckSd h rjoin 84 ++ x.cmd h = [] := hf
  simp only [List.append_eq_nil_iff] at hf
  have e0 := (ckSs_nil ..).1 hf.1.1.1.1
  have e1 := (ckSs_nil ..).1 hf.1.1.1.2
  have e2 := (ckSd_nil ..).1 hf.1.1.2
  have e3 := (ckSd_nil ..).1 hf.1.2
  have hx := cmd_fits hf.2
  have l1648 := lim_le h 16 48 (by decide)
  simp only [extFits] at hx
  refine ⟨_, rfl, by
    show Instr.fork (a) (b) (bit (bitN full)) (rargb) (rjoin) ⟨(x.ahead), (x.scope), (x.ord), (x.wait), bit (bitN x.g), (x.gslot), bit (bitN x.ginv)⟩ = _
    simp only [bit_bitN, BitVec.ofNat_toNat, BitVec.setWidth_eq], ?_⟩
  show fits [kf 0 2 2, kf 2 6 46, kf 26 6 1, rf 20 6, pf 14 6, pf 8 6, pf 46 1, rf 32 14, pf 60 4, pf 57 3, pf 55 2, pf 53 2, pf 52 1, pf 48 4, pf 47 1, pf 90 6, pf 84 6, rf 64 20] [a, b, bitN full, x.ahead, x.scope, x.ord, x.wait, bitN x.g, x.gslot, bitN x.ginv, rargb, rjoin] = true
  have b_full := bitN_lt full
  have b_x_g := bitN_lt x.g
  have b_x_ginv := bitN_lt x.ginv
  simp only [fits_par, fits_key, fits_rf, fits_cf, fits_zf, fits_nil, Bool.and_eq_true, decide_eq_true_eq, Bool.and_true]
  omega

theorem Shape.start (a : Nat) (b : Nat) (rargb : Nat) (x : Ext) : Shape.Statement (.start a b rargb x) := by
  intro h hf _
  have hf : ckSs h a 14 ++ ckSs h b 8 ++ ckSd h rargb 90 ++ x.cmd h = [] := hf
  simp only [List.append_eq_nil_iff] at hf
  have e0 := (ckSs_nil ..).1 hf.1.1.1
  have e1 := (ckSs_nil ..).1 hf.1.1.2
  have e2 := (ckSd_nil ..).1 hf.1.2
  have hx := cmd_fits hf.2
  have l1648 := lim_le h 16 48 (by decide)
  simp only [extFits] at hx
  refine ⟨_, rfl, by
    show Instr.start (a) (b) (rargb) ⟨(x.ahead), (x.scope), (x.ord), (x.wait), bit (bitN x.g), (x.gslot), bit (bitN x.ginv)⟩ = _
    simp only [bit_bitN, BitVec.ofNat_toNat, BitVec.setWidth_eq], ?_⟩
  show fits [kf 0 2 2, kf 2 6 46, kf 26 6 2, rf 20 6, pf 14 6, pf 8 6, rf 32 15, pf 60 4, pf 57 3, pf 55 2, pf 53 2, pf 52 1, pf 48 4, pf 47 1, pf 90 6, rf 64 26] [a, b, x.ahead, x.scope, x.ord, x.wait, bitN x.g, x.gslot, bitN x.ginv, rargb] = true
  have b_x_g := bitN_lt x.g
  have b_x_ginv := bitN_lt x.ginv
  simp only [fits_par, fits_key, fits_rf, fits_cf, fits_zf, fits_nil, Bool.and_eq_true, decide_eq_true_eq, Bool.and_true]
  omega

theorem Shape.sysrd (d : Nat) (a : Nat) (sel : Nat) : Shape.Statement (.sysrd d a sel) := by
  intro h hf _
  have hf : ckSd h d 20 ++ ckSs h a 14 ++ ckN 64 sel 8 ++ ckSysrd a sel = [] := hf
  simp only [List.append_eq_nil_iff] at hf
  have e0 := (ckSd_nil ..).1 hf.1.1.1
  have e1 := (ckSs_nil ..).1 hf.1.1.2
  have e2 := (ckN_nil ..).1 hf.1.2
  have l1648 := lim_le h 16 48 (by decide)
  refine ⟨_, rfl, rfl, ?_⟩
  show fits [kf 0 2 0, kf 2 6 0x2f, kf 26 6 0, pf 20 6, pf 14 6, pf 8 6] [d, a, sel] = true
  simp only [fits_par, fits_key, fits_rf, fits_cf, fits_zf, fits_nil, Bool.and_eq_true, decide_eq_true_eq, Bool.and_true]
  omega

theorem Shape.syswr (d : Nat) (a : Nat) (sel : Nat) : Shape.Statement (.syswr d a sel) := by
  intro h hf _
  have hf : ckSd h d 20 ++ ckSs h a 14 ++ ckN 64 sel 8 ++ ckSyswr d sel = [] := hf
  simp only [List.append_eq_nil_iff] at hf
  have e0 := (ckSd_nil ..).1 hf.1.1.1
  have e1 := (ckSs_nil ..).1 hf.1.1.2
  have e2 := (ckN_nil ..).1 hf.1.2
  have l1648 := lim_le h 16 48 (by decide)
  refine ⟨_, rfl, rfl, ?_⟩
  show fits [kf 0 2 0, kf 2 6 0x2f, kf 26 6 1, pf 20 6, pf 14 6, pf 8 6] [d, a, sel] = true
  simp only [fits_par, fits_key, fits_rf, fits_cf, fits_zf, fits_nil, Bool.and_eq_true, decide_eq_true_eq, Bool.and_true]
  omega

theorem Shape.trap (n : Nat) : Shape.Statement (.trap n) := by
  intro h hf _
  have hf : ckN 64 n 8 = [] := hf
  have e0 := (ckN_nil ..).1 hf
  refine ⟨_, rfl, rfl, ?_⟩
  show fits [kf 0 2 0, kf 2 6 0x2f, kf 26 6 2, rf 20 6, rf 14 6, pf 8 6] [n] = true
  simp only [fits_par, fits_key, fits_rf, fits_cf, fits_zf, fits_nil, Bool.and_eq_true, decide_eq_true_eq, Bool.and_true]
  omega

theorem Shape.eret : Shape.Statement (.eret) := by
  intro h hf _
  refine ⟨_, rfl, rfl, ?_⟩
  show fits [kf 0 2 0, kf 2 6 0x2f, kf 26 6 3, rf 20 6, rf 14 6, rf 8 6] [] = true
  rfl

theorem Shape.bankcfg (a : Nat) (mode : Nat) (esize : Nat) : Shape.Statement (.bankcfg a mode esize) := by
  intro h hf _
  have hf : ckSs h a 14 ++ ckN 8 mode 8 ++ ckN 4 esize 11 ++ ckBankcfg mode esize = [] := hf
  simp only [List.append_eq_nil_iff] at hf
  have e0 := (ckSs_nil ..).1 hf.1.1.1
  have e1 := (ckN_nil ..).1 hf.1.1.2
  have e2 := (ckN_nil ..).1 hf.1.2
  have l1648 := lim_le h 16 48 (by decide)
  refine ⟨_, rfl, rfl, ?_⟩
  show fits [kf 0 2 0, kf 2 6 0x2f, kf 26 6 4, rf 20 6, pf 14 6, pf 8 3, pf 11 2, rf 13 1] [a, mode, esize] = true
  simp only [fits_par, fits_key, fits_rf, fits_cf, fits_zf, fits_nil, Bool.and_eq_true, decide_eq_true_eq, Bool.and_true]
  omega

theorem Shape.dirrd (d : Nat) : Shape.Statement (.dirrd d) := by
  intro h hf _
  have hf : ckSd h d 20 = [] := hf
  have e0 := (ckSd_nil ..).1 hf
  have l1648 := lim_le h 16 48 (by decide)
  refine ⟨_, rfl, rfl, ?_⟩
  show fits [kf 0 2 0, kf 2 6 0x2f, kf 26 6 5, pf 20 6, rf 14 6, rf 8 6] [d] = true
  simp only [fits_par, fits_key, fits_rf, fits_cf, fits_zf, fits_nil, Bool.and_eq_true, decide_eq_true_eq, Bool.and_true]
  omega

theorem Shape.dirwr (a : Nat) : Shape.Statement (.dirwr a) := by
  intro h hf _
  have hf : ckSs h a 14 = [] := hf
  have e0 := (ckSs_nil ..).1 hf
  have l1648 := lim_le h 16 48 (by decide)
  refine ⟨_, rfl, rfl, ?_⟩
  show fits [kf 0 2 0, kf 2 6 0x2f, kf 26 6 6, rf 20 6, pf 14 6, rf 8 6] [a] = true
  simp only [fits_par, fits_key, fits_rf, fits_cf, fits_zf, fits_nil, Bool.and_eq_true, decide_eq_true_eq, Bool.and_true]
  omega

theorem Shape.tick (d : Nat) : Shape.Statement (.tick d) := by
  intro h hf _
  have hf : ckSd h d 20 = [] := hf
  have e0 := (ckSd_nil ..).1 hf
  have l1648 := lim_le h 16 48 (by decide)
  refine ⟨_, rfl, rfl, ?_⟩
  show fits [kf 0 2 0, kf 2 6 0x2f, kf 26 6 7, pf 20 6, rf 14 6, rf 8 6] [d] = true
  simp only [fits_par, fits_key, fits_rf, fits_cf, fits_zf, fits_nil, Bool.and_eq_true, decide_eq_true_eq, Bool.and_true]
  omega

theorem Shape.mark (a : Nat) (stopk : Nat) : Shape.Statement (.mark a stopk) := by
  intro h hf _
  have hf : ckSs h a 14 ++ ckN 2 stopk 8 = [] := hf
  simp only [List.append_eq_nil_iff] at hf
  have e0 := (ckSs_nil ..).1 hf.1
  have e1 := (ckN_nil ..).1 hf.2
  have l1648 := lim_le h 16 48 (by decide)
  refine ⟨_, rfl, rfl, ?_⟩
  show fits [kf 0 2 0, kf 2 6 0x2f, kf 26 6 8, rf 20 6, pf 14 6, pf 8 6] [a, stopk] = true
  simp only [fits_par, fits_key, fits_rf, fits_cf, fits_zf, fits_nil, Bool.and_eq_true, decide_eq_true_eq, Bool.and_true]
  omega

theorem Shape.launch (ch : Nat) (off : Nat) (bytes : List Byte) : Shape.Statement (.launch ch off bytes) := by
  intro _ _ e; cases e

theorem Shape.messagePortWrite (ch : Nat) (off : Nat) (bytes : List Byte) : Shape.Statement (.messagePortWrite ch off bytes) := by
  intro _ _ e; cases e

theorem Shape.apertureWrite (ch : Nat) (off : Nat) (bytes : List Byte) : Shape.Statement (.apertureWrite ch off bytes) := by
  intro _ _ e; cases e

theorem Shape.cxlMemWrite (pa : Nat) (bytes : List Byte) : Shape.Statement (.cxlMemWrite pa bytes) := by
  intro _ _ e; cases e

theorem Shape.hostRead (pa : Nat) (n : Nat) : Shape.Statement (.hostRead pa n) := by
  intro _ _ e; cases e

theorem Shape.hostSnoop (pa : Nat) : Shape.Statement (.hostSnoop pa) := by
  intro _ _ e; cases e

theorem Shape.preempt (w : Word) : Shape.Statement (.preempt w) := by
  intro _ _ e; cases e

theorem Shape.resume (w : Word) : Shape.Statement (.resume w) := by
  intro _ _ e; cases e

theorem Shape.preemptBudgetExpiry (core : Nat) : Shape.Statement (.preemptBudgetExpiry core) := by
  intro _ _ e; cases e

theorem Shape.preemptImageWrite (core : Nat) : Shape.Statement (.preemptImageWrite core) := by
  intro _ _ e; cases e

theorem Shape.preemptAbandon (core : Nat) : Shape.Statement (.preemptAbandon core) := by
  intro _ _ e; cases e

theorem Shape.resumeLoad (core : Nat) : Shape.Statement (.resumeLoad core) := by
  intro _ _ e; cases e

theorem Shape.vcoreSwitch (core : Nat) : Shape.Statement (.vcoreSwitch core) := by
  intro _ _ e; cases e

theorem Shape.arbiterGrant (core : Nat) : Shape.Statement (.arbiterGrant core) := by
  intro _ _ e; cases e

theorem Shape.helperPark (core : Nat) : Shape.Statement (.helperPark core) := by
  intro _ _ e; cases e

theorem Shape.parkedHelperReturn (core : Nat) : Shape.Statement (.parkedHelperReturn core) := by
  intro _ _ e; cases e

theorem Shape.stealProbe (core : Nat) : Shape.Statement (.stealProbe core) := by
  intro _ _ e; cases e

theorem Shape.stealProbeArrival (core : Nat) : Shape.Statement (.stealProbeArrival core) := by
  intro _ _ e; cases e

theorem Shape.stealAnswer (core : Nat) : Shape.Statement (.stealAnswer core) := by
  intro _ _ e; cases e

theorem Shape.stealSweepBackoff (core : Nat) : Shape.Statement (.stealSweepBackoff core) := by
  intro _ _ e; cases e

theorem Shape.messageArrival (core : Nat) : Shape.Statement (.messageArrival core) := by
  intro _ _ e; cases e

theorem Shape.registerWriteApply (core : Nat) : Shape.Statement (.registerWriteApply core) := by
  intro _ _ e; cases e

theorem Shape.spillRefill (core : Nat) : Shape.Statement (.spillRefill core) := by
  intro _ _ e; cases e

theorem Shape.joinWake (core : Nat) (slot : Nat) : Shape.Statement (.joinWake core slot) := by
  intro _ _ e; cases e

theorem Shape.tcwaitWake (core : Nat) (slot : Nat) : Shape.Statement (.tcwaitWake core slot) := by
  intro _ _ e; cases e

theorem Shape.commandDispatch (core : Nat) : Shape.Statement (.commandDispatch core) := by
  intro _ _ e; cases e

theorem Shape.copyChannelTransfer (core : Nat) (chan : Nat) : Shape.Statement (.copyChannelTransfer core chan) := by
  intro _ _ e; cases e

theorem Shape.transformRun (core : Nat) : Shape.Statement (.transformRun core) := by
  intro _ _ e; cases e

theorem Shape.collectiveMatch (core : Nat) : Shape.Statement (.collectiveMatch core) := by
  intro _ _ e; cases e

theorem Shape.commandComplete (core : Nat) (tc : Nat) : Shape.Statement (.commandComplete core tc) := by
  intro _ _ e; cases e

theorem Shape.bankSwitchPoint (paddock : Nat) (bank : Nat) : Shape.Statement (.bankSwitchPoint paddock bank) := by
  intro _ _ e; cases e

theorem Shape.bankTileCopy (paddock : Nat) (bank : Nat) : Shape.Statement (.bankTileCopy paddock bank) := by
  intro _ _ e; cases e

theorem Shape.bankClearDone (paddock : Nat) (bank : Nat) : Shape.Statement (.bankClearDone paddock bank) := by
  intro _ _ e; cases e

theorem Shape.postedStorePerform (core : Nat) : Shape.Statement (.postedStorePerform core) := by
  intro _ _ e; cases e

theorem Shape.atomicPerform (core : Nat) (slot : Nat) : Shape.Statement (.atomicPerform core slot) := by
  intro _ _ e; cases e

theorem Shape.fifoWaitServe (paddock : Nat) (bank : Nat) : Shape.Statement (.fifoWaitServe paddock bank) := by
  intro _ _ e; cases e

theorem Shape.storeProbeAnswer (die : Nat) (pid : Nat) (va : Nat) : Shape.Statement (.storeProbeAnswer die pid va) := by
  intro _ _ e; cases e

theorem Shape.pageWalk (die : Nat) (pid : Nat) (va : Nat) : Shape.Statement (.pageWalk die pid va) := by
  intro _ _ e; cases e

theorem Shape.xinvWrite (w : Word) : Shape.Statement (.xinvWrite w) := by
  intro _ _ e; cases e

theorem Shape.l2LoadMissFill (die : Nat) (pid : Nat) (va : Nat) : Shape.Statement (.l2LoadMissFill die pid va) := by
  intro _ _ e; cases e

theorem Shape.l2Writeback (die : Nat) (pid : Nat) (va : Nat) : Shape.Statement (.l2Writeback die pid va) := by
  intro _ _ e; cases e

theorem Shape.controllerLineWrite (pa : Nat) (c : Bool) (bytes : List Byte) : Shape.Statement (.controllerLineWrite pa c bytes) := by
  intro _ _ e; cases e

theorem Shape.controllerPartialMerge (pa : Nat) (c : Bool) (bytes : List Byte) : Shape.Statement (.controllerPartialMerge pa c bytes) := by
  intro _ _ e; cases e

theorem Shape.controllerLineRead (pa : Nat) : Shape.Statement (.controllerLineRead pa) := by
  intro _ _ e; cases e

theorem Shape.metadataMiss (ctrl : Nat) (line : Nat) : Shape.Statement (.metadataMiss ctrl line) := by
  intro _ _ e; cases e

theorem Shape.metadataWriteback (ctrl : Nat) (line : Nat) : Shape.Statement (.metadataWriteback ctrl line) := by
  intro _ _ e; cases e

theorem Shape.aliasRead (desc : Nat) (blk : Nat) : Shape.Statement (.aliasRead desc blk) := by
  intro _ _ e; cases e

theorem Shape.aliasWriteRepack (desc : Nat) (blk : Nat) (pos : Nat) (bytes : List Byte) : Shape.Statement (.aliasWriteRepack desc blk pos bytes) := by
  intro _ _ e; cases e

theorem Shape.stampedWriteApply (place : Nat) : Shape.Statement (.stampedWriteApply place) := by
  intro _ _ e; cases e

theorem Shape.directoryOverflowRequest (core : Nat) : Shape.Statement (.directoryOverflowRequest core) := by
  intro _ _ e; cases e

theorem Shape.directoryConfigWrite (core : Nat) (area : Bool) (w : Word) : Shape.Statement (.directoryConfigWrite core area w) := by
  intro _ _ e; cases e

theorem Shape.stampbaseWrite (core : Nat) (w : Word) : Shape.Statement (.stampbaseWrite core w) := by
  intro _ _ e; cases e

theorem Shape.fltringWrite (w : Word) : Shape.Statement (.fltringWrite w) := by
  intro _ _ e; cases e

theorem Shape.powercapWrite (w : Word) : Shape.Statement (.powercapWrite w) := by
  intro _ _ e; cases e

theorem Shape.tandemcfgWrite (w : Word) : Shape.Statement (.tandemcfgWrite w) := by
  intro _ _ e; cases e

theorem Shape.hostRegisterWrite (off : Nat) (w : Word) : Shape.Statement (.hostRegisterWrite off w) := by
  intro _ _ e; cases e

theorem Shape.mstart (w : Word) : Shape.Statement (.mstart w) := by
  intro _ _ e; cases e

theorem Shape.mdata (bytes : List Byte) : Shape.Statement (.mdata bytes) := by
  intro _ _ e; cases e

theorem Shape.mend (w : Word) : Shape.Statement (.mend w) := by
  intro _ _ e; cases e

theorem Shape.qnonce (bytes : List Byte) : Shape.Statement (.qnonce bytes) := by
  intro _ _ e; cases e

theorem Shape.quoteComplete : Shape.Statement (.quoteComplete) := by
  intro _ _ e; cases e

theorem Shape.powerUp : Shape.Statement (.powerUp) := by
  intro _ _ e; cases e

theorem Shape.functionReady (bit : Nat) : Shape.Statement (.functionReady bit) := by
  intro _ _ e; cases e

theorem Shape.functionFailed (bit : Nat) : Shape.Statement (.functionFailed bit) := by
  intro _ _ e; cases e

theorem Shape.powerWindow (watts : Nat) : Shape.Statement (.powerWindow watts) := by
  intro _ _ e; cases e

theorem Shape.thermalSample (temps : DieTemps) : Shape.Statement (.thermalSample temps) := by
  intro _ _ e; cases e

theorem Shape.errorEvent (e : ErrEvent) : Shape.Statement (.errorEvent e) := by
  intro _ _ e; cases e

theorem Shape.linkRetrainDone (cls : Nat) : Shape.Statement (.linkRetrainDone cls) := by
  intro _ _ e; cases e

theorem Shape.linkDown (cls : Nat) : Shape.Statement (.linkDown cls) := by
  intro _ _ e; cases e

theorem Shape.tandemBringUp (peerSize : Nat) (peerTick : Word) : Shape.Statement (.tandemBringUp peerSize peerTick) := by
  intro _ _ e; cases e

theorem Shape.tandemWriteFlit (off : Nat) (bytes : List Byte) (stamp : List Nat) : Shape.Statement (.tandemWriteFlit off bytes stamp) := by
  intro _ _ e; cases e

theorem Shape.tandemMsgFlit (head : MsgHead) (bytes : List Byte) : Shape.Statement (.tandemMsgFlit head bytes) := by
  intro _ _ e; cases e

theorem Shape.tandemCollFlit (f : CollFlit) : Shape.Statement (.tandemCollFlit f) := by
  intro _ _ e; cases e

theorem Shape.tandemCtrlFlit (f : CtrlFlit) : Shape.Statement (.tandemCtrlFlit f) := by
  intro _ _ e; cases e

theorem Shape.stop (c : DbgCmd) : Shape.Statement (.stop c) := by
  intro _ _ e; cases e

theorem Shape.stopTickReached : Shape.Statement (.stopTickReached) := by
  intro _ _ e; cases e

theorem Shape.debugResume (c : DbgCmd) : Shape.Statement (.debugResume c) := by
  intro _ _ e; cases e

theorem Shape.stat (c : DbgCmd) : Shape.Statement (.stat c) := by
  intro _ _ e; cases e

theorem Shape.scan (c : DbgCmd) : Shape.Statement (.scan c) := by
  intro _ _ e; cases e

theorem Shape.rdreg (c : DbgCmd) : Shape.Statement (.rdreg c) := by
  intro _ _ e; cases e

theorem Shape.wrreg (c : DbgCmd) : Shape.Statement (.wrreg c) := by
  intro _ _ e; cases e

theorem Shape.rdmem (c : DbgCmd) : Shape.Statement (.rdmem c) := by
  intro _ _ e; cases e

theorem Shape.wrmem (c : DbgCmd) : Shape.Statement (.wrmem c) := by
  intro _ _ e; cases e

theorem Shape.debuggerWriteApply : Shape.Statement (.debuggerWriteApply) := by
  intro _ _ e; cases e

theorem Shape.tickset (c : DbgCmd) : Shape.Statement (.tickset c) := by
  intro _ _ e; cases e

theorem Shape.setbp (c : DbgCmd) : Shape.Statement (.setbp c) := by
  intro _ _ e; cases e

theorem Shape.clrbp (c : DbgCmd) : Shape.Statement (.clrbp c) := by
  intro _ _ e; cases e

theorem Shape.breakpointMatch (core : Nat) (slot : Nat) : Shape.Statement (.breakpointMatch core slot) := by
  intro _ _ e; cases e

theorem Shape.stampRecordWrite (core : Nat) : Shape.Statement (.stampRecordWrite core) := by
  intro _ _ e; cases e

theorem Shape.counterSample (core : Nat) : Shape.Statement (.counterSample core) := by
  intro _ _ e; cases e

theorem Shape.birsp (pa : Nat) : Shape.Statement (.birsp pa) := by
  intro _ _ e; cases e

end Sys2Proof.Laws
end

