-- ==== Sys2Proof/Tests/Slice0.lean ====
section
/-! SUPPORT. The model's own tests: words of the spec decode as it says, ill-formed terms are refused, single instructions give
the results of the spec's worked examples, and for every statement with hypotheses a state and operands that meet them. -/

namespace Sys2Proof.Tests

set_option maxRecDepth 100000
set_option Elab.async false

open Sys2Proof Sys2Proof.Machine Sys2Proof.Claims

/-! ## Helpers -/

/-- The next state of an outcome. -/
def next (o : Host.Outcome State Fault Refusal) : State :=
  match o with
  | .next t => t
  | _ => State.reset

/-- Whether an outcome is a next state. -/
def goesOn (o : Host.Outcome State Fault Refusal) : Bool :=
  match o with
  | .next _ => true
  | _ => false

/-- A live context whose scalar registers hold the values given, at PC 0x1000. -/
def ctxWith (l : List (Nat × Word)) : Ctx :=
  { Ctx.reset with st := .live, pc := 0x1000, s := l.foldl (fun v x => v.setIfInBounds x.1 x.2) Ctx.reset.s }

/-- The device at reset with a live control context on core 0 whose scalar registers hold the values given. -/
def ctl (l : List (Nat × Word)) : State := State.reset.setCtx 0 15 (ctxWith l)

/-- The same, privileged. -/
def sys (l : List (Nat × Word)) : State := State.reset.setCtx 0 15 { ctxWith l with priv := true }

/-- The same as ctl, in a helper, h0 of core 0. -/
def helper (l : List (Nat × Word)) : State := { State.reset.setCtx 0 0 (ctxWith l) with curSlot := 0 }

/-- Run vectors and masks of a control context. -/
def vec (l : List (Nat × Word)) (vs : List (Nat × List Run)) (ks : List (Nat × List KRun)) : State :=
  State.reset.setCtx 0 15
    { ctxWith l with v := vs.foldl (fun v x => v.setIfInBounds x.1 x.2) Ctx.reset.v,
                     k := ks.foldl (fun v x => v.setIfInBounds x.1 x.2) Ctx.reset.k }

/-- Bytes of LOCAL address `a` of core 0. -/
def withPad (s : State) (a : Nat) (bs : List Byte) : State := { s with pad := memWrite s.pad a bs }

/-- A tile whose row 0 has the bytes given. -/
def tileOf (phys : Nat) (tag : BitVec 7) (bs : List Nat) : Tile :=
  { phys := phys, tag := tag, rows := (Vector.replicate 64 0).setIfInBounds 0 (BitVec.ofNat 2048 (bs.foldr (fun b n => b + 256 * n) 0)),
    t1 := none, written := 0, bad := [] }

/-- A state whose core 0 has the tiles given. -/
def withTiles (s : State) (l : List (Nat × Tile)) : State :=
  s.setCore 0 { s.core 0 with tiles := l.foldl (fun v x => v.setIfInBounds x.1 (some x.2)) (s.core 0).tiles }

/-- A scalar register of the moving context after an instruction. -/
def sAfter (i : Instr) (s : State) (r : Nat) : Word := (next (exec i s)).cur.sreg r

/-- A run vector after an instruction. -/
def vAfter (i : Instr) (s : State) (r : Nat) : List Run := (next (exec i s)).cur.vreg r

/-- A mask's runs after an instruction. -/
def kAfter (i : Instr) (s : State) (r : Nat) : List KRun := vget (next (exec i s)).cur.k r []

/-- The low `w` bits, element `j`, of row 0 of a tile after an instruction. -/
def tAfter (i : Instr) (s : State) (d w j : Nat) : Nat := elt w ((next (exec i s)).rows d) 0 j

/-- A guard after an instruction. -/
def gAfter (i : Instr) (s : State) (g : Nat) : Bool := (next (exec i s)).cur.guard g

/-- The same with a trap handler for PID 0 at 0x4000. -/
def caught (s : State) : State := { s with trapEnt := s.trapEnt.setIfInBounds 0 0x8000_0000_0000_4000 }

/-- CODE, INFO and ACC of the trap that an instruction takes, where the PID has a handler. -/
def trapOf (i : Instr) (s : State) : Nat × Nat × Nat :=
  let w := (next (exec i (caught s))).cur.trapCause
  (wfld w 7 0, wfld w 31 16, wfld w 58 56)

/-! ## Decoding (words of the spec's examples: 07 "Worked encodings", 08 to 11) -/

theorem test_decode_add : decode false 0x00704E04 = .ok (.add 7 1 14) 1 := by decide +kernel
theorem test_decode_long_latency : decode false 0x20910528 = .ok (.divI64 2 9 4 5) 1 := by decide +kernel
theorem test_decode_global_load : decode false 0x0201055C = .ok (.ldg64 2 0 4 5) 1 := by decide +kernel
theorem test_decode_literal :
    decode false (0x00000609 + 2 ^ 32 * 0x00123456) = .ok (.addiLit32 0x123456 0 6) 2 := by decide +kernel
theorem test_decode_prefixed_vector :
    decode false (0x005000F9 + 2 ^ 32 * 0x08304278) = .ok (.vadd 2 3 1 2 ⟨true, 0, 0, true, 2, false, false⟩) 2 := by decide +kernel
theorem test_decode_upper : decode false 0x7654041C = .ok (.lui 0x76540 4) 1 := by decide +kernel
theorem test_decode_exit : decode false 0x100000B4 = .ok .exit 1 := by decide +kernel
theorem test_decode_vector : decode false 0xC4518778 = .ok (.vsra 1 5 6 7 Pfx.none) 1 := by decide +kernel
theorem test_decode_vector_compare : decode false 0x8810837C = .ok (.vcmpFlt 1 2 3 Pfx.none) 1 := by decide +kernel
theorem test_decode_reduction : decode false 0x24708084 = .ok (.vrsumF32 7 2 0 Pfx.none) 1 := by decide +kernel
theorem test_decode_masks :
    decode false 0x1810C688 = .ok (.kpxor 1 3 6 Pfx.none) 1 ∧ decode false 0x1C504088 = .ok (.ktos 5 1 0 Pfx.none) 1 := by
  decide +kernel
theorem test_decode_memx :
    decode false (0x2C010672 + 2 ^ 32 * 0x00002800 + 2 ^ 64 * 0x48) = .ok (.memxStI64 4 6 ⟨1, 1, .disp 0x48⟩ noExt) 3 := by
  decide +kernel
theorem test_decode_atomic :
    decode false (0x08710576 + 2 ^ 32 * 0x07804100 + 2 ^ 64 * 8) =
      .ok (.aadd 7 4 5 true ⟨2, 0, .disp 8⟩ { noExt with scope := 3, ord := 3 }) 3 := by decide +kernel
theorem test_decode_vector_memory :
    decode false (0x0042098E + 2 ^ 32 * 0x00004400 + 2 ^ 64 * 0x100) = .ok (.vld 4 8 9 2 0 false ⟨2, 0, .disp 0x100⟩ noExt) 3 := by
  decide +kernel
theorem test_decode_tile_memory :
    decode false (0x00010092 + 2 ^ 32 * 0x00004290 + 2 ^ 64 * 0x400) = .ok (.tld 0 4 0 1 4 true ⟨2, 0, .disp 0x400⟩ noExt) 3 := by
  decide +kernel
theorem test_decode_matrix :
    decode false (0x0020019A + 2 ^ 32 * 0x00002240 + 2 ^ 64 * 0x03E00000) = .ok (.mma 2 0 1 4 4 true 31 0 0 noExt) 3 := by
  decide +kernel
theorem test_decode_scale :
    decode false (0x0030849E + 2 ^ 32 * 0x00004800 + 2 ^ 64 * 0x50000000) = .ok (.scac 3 2 4 true 2 5 0 0 noExt) 3 := by
  decide +kernel
theorem test_decode_counter : decode false 0x000242B0 = .ok (.tcwait 9 2) 1 := by decide +kernel
theorem test_decode_system :
    decode false 0x004002BC = .ok (.sysrd 4 0 2) 1 ∧ decode false 0x100101BC = .ok (.bankcfg 4 1 0) 1 := by decide +kernel


/-! Words of the programs of 08, 11, 16, 17 and 18, and words put together from the formats of R173. -/

theorem test_decode_prepare :
    decode false 0x0000223C = .ok (.prep 2 1) 1 ∧ decode false 0x0004243C = .ok (.prep 0x42 2) 1 := by decide +kernel
theorem test_decode_compare_immediate :
    decode false 0x00114138 = .ok (.cmpi 0 1 5 1) 1 ∧ decode false 0x05318138 = .ok (.cmpi 5 3 6 1) 1 := by decide +kernel
theorem test_decode_transfer :
    decode false 0x04400840 = .ok (.jmpt 1 1) 1 ∧ decode false 0x0C001040 = .ok (.call 2) 1 ∧ decode false 0x10003840 = .ok .ret 1 := by
  decide +kernel
theorem test_decode_sync :
    decode false 0x03600044 = .ok (.fence 3 3) 1 ∧ decode false 0x04000044 = .ok .isync 1 ∧ decode false 0x0B000044 = .ok (.wait 3) 1 ∧
      decode false 0x0C010544 = .ok (.flush false 4 5) 1 := by decide +kernel
theorem test_decode_integer :
    decode false 0x45750E04 = .ok (.clmulN64 23 20 14) 1 ∧ decode false 0x0BF5CF18 = .ok (.srai 63 23 15) 1 ∧
      decode false 0x15861704 = .ok (.andn 24 24 23) 1 ∧ decode false 0x0FF0440C = .ok (.andi 0xFF 1 4) 1 := by decide +kernel
theorem test_decode_auipc : decode false 0x00000F20 = .ok (.auipc 0 15) 1 := by decide +kernel
theorem test_decode_float :
    decode false 0x0DA1C624 = .ok (.fmaF32 26 7 6) 1 ∧ decode false 0x0DBC0C24 = .ok (.fmaF32 27 0x30 12) 1 := by decide +kernel
/-- R204, format A: minor 3, g 1, a 12, b 11, major 0x0C. -/
theorem test_decode_compare : decode false 0x0C130B30 = .ok (.cmpLtN64 1 12 11) 1 := by decide +kernel
/-- R206, format A: minor 2, d 1, a 4, b 5, major 0x0D. -/
theorem test_decode_float_compare :
    decode false (2 * 2 ^ 26 + 1 * 2 ^ 20 + 4 * 2 ^ 14 + 5 * 2 ^ 8 + 0x0D * 4) = .ok (.fcmpgLtF32 1 4 5) 1 := by decide +kernel
/-- R203, format LL: ahead 3, op 0, d 2, a 4, b 5, major 0x0B. -/
theorem test_decode_float_division :
    decode false (3 * 2 ^ 28 + 2 * 2 ^ 20 + 4 * 2 ^ 14 + 5 * 2 ^ 8 + 0x0B * 4) = .ok (.fdivF32 3 2 4 5) 1 := by decide +kernel
/-- R239, format A: minor 0, d 1, a 2, b 3, major 0x20. -/
theorem test_decode_vector_float :
    decode false (1 * 2 ^ 20 + 2 * 2 ^ 14 + 3 * 2 ^ 8 + 0x20 * 4) = .ok (.vfaddF32 1 2 3 Pfx.none) 1 := by decide +kernel
theorem test_decode_short_memory :
    decode false 0x01010850 = .ok (.ldln32 1 0 4 8) 1 ∧ decode false 0x5100876C = .ok (.stg32 0x51 2 7) 1 := by decide +kernel
theorem test_decode_extended_load :
    decode false (0x18C20072 + 2 ^ 32 * 0x06804000) = .ok (.memxLdI64 12 8 0 0 ⟨2, 0, .disp 0⟩ { noExt with scope := 3, ord := 1 }) 3 := by
  decide +kernel
theorem test_decode_vector_store :
    decode false (0x0450C08E + 2 ^ 32 * 0x00004400) = .ok (.vst 5 3 2 0 ⟨2, 0, .disp 0⟩ noExt) 3 := by decide +kernel
theorem test_decode_tile_store :
    decode false (0x04304092 + 2 ^ 32 * 0x00004000 + 2 ^ 64 * 0x00040000) = .ok (.tst 3 1 0 ⟨2, 0, .disp 0x40000⟩ noExt) 3 := by
  decide +kernel
theorem test_decode_tile_zero : decode false (0x00300096 + 2 ^ 32 * 0x00000600) = .ok (.tzero 3 3 0 false noExt) 3 := by decide +kernel
theorem test_decode_tile_add : decode false (0x001080A2 + 2 ^ 32 * 0x00004000) = .ok (.tadd 1 2 0 8 0 false noExt) 3 := by decide +kernel
theorem test_decode_group_multiply :
    decode false (0x0420019A + 2 ^ 32 * 0x00001040 + 2 ^ 64 * 0x00E00000) = .ok (.mmf 2 0 1 2 true 7 0 0 noExt) 3 := by decide +kernel
theorem test_decode_copy :
    decode false (0x005042A6 + 2 ^ 32 * 0x00004400) = .ok (.cpy (.reg 5) 1 2 2 0 2 0 0 false 0 0 noExt) 3 := by decide +kernel
theorem test_decode_copy_with_cell :
    decode false (0x045187A6 + 2 ^ 32 * 0x00004220 + 2 ^ 64 * 0x98211000) = .ok (.cpyw (.reg 5) 6 7 2 0 1 0 2 true 3 4 8 2 0 noExt) 3 := by
  decide +kernel
theorem test_decode_work :
    decode false 0x005003B4 = .ok (.mrecv 5 3) 1 ∧ decode false 0x040105B4 = .ok (.hset false 4 5) 1 ∧
      decode false 0x080100B4 = .ok (.join 4) 1 ∧ decode false 0x182000B4 = .ok (.reinq 2) 1 := by decide +kernel
theorem test_decode_fork :
    decode false (0x0403C9BA + 2 ^ 32 * 0x00124000 + 2 ^ 64 * 0x08E00000) =
      .ok (.fork 15 9 true 2 14 { noExt with g := true, gslot := 2 }) 3 := by decide +kernel

/-- R184: the all-zero word and major 0x3F are FLT_ILLEGAL; the reserved bits of EXIT are FLT_RESERVED. -/
theorem test_decode_refuses :
    decode false 0 = .illegal ∧ decode false 0xFC = .illegal ∧ decode false 0x100001B4 = .reserved 8 := by decide +kernel

/-! ## Ill-formed terms: the check that each breaks refuses it -/

theorem test_wellformed : (Instr.add 7 1 14).faults false = [] ∧ (Instr.add 7 0x30 0x31).faults false = [] := by decide +kernel
/-- A destination past s47, and la as a destination (R174). -/
theorem test_illformed_destination : (Instr.add 48 1 2).faults false ≠ [] ∧ (Instr.add 0x30 1 2).faults false ≠ [] := by decide +kernel
/-- A source that names no register; in a helper, a register outside its view. -/
theorem test_illformed_source :
    (Instr.add 1 50 2).faults false ≠ [] ∧ (Instr.add 1 16 2).faults false = [] ∧ (Instr.add 1 16 2).faults true ≠ [] := by decide +kernel
theorem test_illformed_vector :
    (Instr.vmov 16 0 Pfx.none).faults false ≠ [] ∧ (Instr.vmov 4 0 Pfx.none).faults true ≠ [] := by decide +kernel
theorem test_illformed_mask :
    (Instr.kmov 8 0 Pfx.none).faults false ≠ [] ∧ (Instr.kmov 4 0 Pfx.none).faults true ≠ [] := by decide +kernel
theorem test_illformed_tile : (Instr.tmov 16 0 noExt).faults false ≠ [] := by decide +kernel
theorem test_illformed_guard :
    (Instr.cmpEq 16 0 0).faults false ≠ [] ∧ (Instr.cmpEq 8 0 0).faults true ≠ [] ∧ (Instr.jmpt 16 0).faults false ≠ [] := by decide +kernel
theorem test_illformed_target : (Instr.jmp 8).faults false ≠ [] := by decide +kernel
theorem test_illformed_numbers :
    (Instr.tcrd 1 2 0).faults false ≠ [] ∧ (Instr.tcwait 1 8).faults false ≠ [] ∧ (Instr.mrecv 1 16).faults false ≠ [] ∧
      (Instr.fence 5 1).faults false ≠ [] ∧ (Instr.fence 0 0).faults false ≠ [] ∧ (Instr.wait 0).faults false ≠ [] ∧
      (Instr.gset 0 2).faults false ≠ [] ∧ (Instr.cmpi 0 8 0 0).faults false ≠ [] := by decide +kernel
/-- A prefix that stands nowhere and says something; FOURTH without F4V; ROUND, MASK, ZERO or COAL where they must be zero. -/
theorem test_illformed_prefix :
    (Instr.vmov 1 0 { Pfx.none with mask := 1 }).faults false ≠ [] ∧
      (Instr.vfmaF32 1 0 0 { Pfx.none with present := true, fourth := 3 }).faults false ≠ [] ∧
      (Instr.vmov 1 0 { Pfx.none with present := true, round := 1 }).faults false ≠ [] ∧
      (Instr.vfaddF32 1 0 0 { Pfx.none with present := true, round := 6 }).faults false ≠ [] ∧
      (Instr.vcoal 1 0 { Pfx.none with present := true, mask := 1 }).faults false ≠ [] ∧
      (Instr.vcoal 1 0 { Pfx.none with present := true, zero := true }).faults false ≠ [] ∧
      (Instr.vrsumF32 1 0 0 { Pfx.none with present := true, coal := true }).faults false ≠ [] := by decide +kernel
/-- Word 2: a guard slot without G, a scope with plain ordering, an ordering that the form does not take, a lookahead that it does
not honour. -/
theorem test_illformed_word2 :
    (Instr.memxLdI64 1 2 0 0 ⟨0, 0, .disp 0⟩ { noExt with gslot := 1 }).faults false ≠ [] ∧
      (Instr.memxLdI64 1 2 0 0 ⟨0, 0, .disp 0⟩ { noExt with scope := 1 }).faults false ≠ [] ∧
      (Instr.memxLdI64 1 2 0 0 ⟨0, 0, .disp 0⟩ { noExt with ord := 2 }).faults false ≠ [] ∧
      (Instr.memxStI64 1 2 ⟨0, 0, .disp 0⟩ { noExt with ord := 1 }).faults false ≠ [] ∧
      (Instr.memxStI64 1 2 ⟨0, 0, .disp 0⟩ { noExt with ahead := 1 }).faults false ≠ [] ∧
      (Instr.tmov 1 0 { noExt with wait := 1 }).faults false ≠ [] ∧ (Instr.trel 1 { noExt with g := true }).faults false ≠ [] := by
  decide +kernel
/-- SPACE 0b11, CSEL outside PADDOCK, CSEL 0b10; a literal offset on an atomic. -/
theorem test_illformed_address :
    (Instr.memxLdI64 1 2 0 0 ⟨3, 0, .disp 0⟩ noExt).faults false ≠ [] ∧ (Instr.memxLdI64 1 2 0 0 ⟨0, 1, .disp 0⟩ noExt).faults false ≠ [] ∧
      (Instr.memxLdI64 1 2 0 0 ⟨1, 2, .disp 0⟩ noExt).faults false ≠ [] ∧ (Instr.aadd 1 2 3 true ⟨0, 0, .lit 0⟩ noExt).faults false ≠ [] := by
  decide +kernel
/-- An element format that R267 leaves out, an SAT on a float, an activation of an integer, a plane count of zero. -/
theorem test_illformed_tile_fields :
    (Instr.tadd 1 2 3 9 0 false noExt).faults false ≠ [] ∧ (Instr.tadd 1 2 3 8 0 true noExt).faults false ≠ [] ∧
      (Instr.tact 1 2 0 0 1 noExt).faults false ≠ [] ∧ (Instr.tzero 1 1 0 false noExt).faults false ≠ [] ∧
      (Instr.tzero 1 0 1 false noExt).faults false ≠ [] ∧ (Instr.mma 1 2 3 9 0 true 0 0 0 noExt).faults false ≠ [] := by decide +kernel
theorem test_illformed_commands :
    (Instr.cpy (.reg 48) 1 2 0 0 0 0 0 false 0 0 noExt).faults false ≠ [] ∧ (Instr.layv 1 16 0 noExt).faults false ≠ [] ∧
      (Instr.coll 1 2 3 5 0 0 false 0 false 0 0 0 0 0 noExt).faults false ≠ [] ∧ (Instr.xfm 1 2 0 0 8 0 0 0 false false 0 noExt).faults false ≠ [] ∧
      (Instr.msend 1 2 3 0 0 0 0 0 noExt).faults false ≠ [] := by decide +kernel

/-! ## Single instructions: results of the spec's worked examples, or worked out by hand from its rules -/

/-- R195: arithmetic wraps modulo 2^64. -/
theorem test_add_wraps : sAfter (.add 3 1 2) (ctl [(1, 0xFFFF_FFFF_FFFF_FFFF), (2, 5)]) 3 = 4 := by decide +kernel
/-- R8: a write of s0 is discarded. -/
theorem test_add_to_s0 : sAfter (.add 0 1 1) (ctl [(1, 7)]) 0 = 0 := by decide +kernel
/-- R195: a shift amount is b[5:0], so 65 shifts by 1; the sign goes in. -/
theorem test_sra_by_65 : sAfter (.sra 3 1 2) (ctl [(1, 0x8000_0000_0000_0000), (2, 65)]) 3 = 0xC000_0000_0000_0000 := by decide +kernel
theorem test_ror : sAfter (.ror 3 1 2) (ctl [(1, 1), (2, 4)]) 3 = 0x1000_0000_0000_0000 := by decide +kernel
theorem test_mulh_signs :
    sAfter (.mulhI64 3 1 2) (ctl [(1, 0xFFFF_FFFF_FFFF_FFFF), (2, 1)]) 3 = 0xFFFF_FFFF_FFFF_FFFF ∧
      sAfter (.mulhN64 3 1 2) (ctl [(1, 0xFFFF_FFFF_FFFF_FFFF), (2, 2)]) 3 = 1 := by decide +kernel
/-- R196, worked example. -/
theorem test_ext :
    sAfter (.extN64 6 4 5) (ctl [(4, 0xAB_CD00), (5, 0x0C08)]) 6 = 0xBCD ∧
      sAfter (.extI64 6 4 5) (ctl [(4, 0xAB_CD00), (5, 0x0C08)]) 6 = 0xFFFF_FFFF_FFFF_FBCD := by decide +kernel
theorem test_ins : sAfter (.insN64 7 8 5) (ctl [(8, 0x123), (5, 0x0C08)]) 7 = 0x1_2300 := by decide +kernel
/-- R197, its examples. -/
theorem test_clmul :
    sAfter (.clmulN64 3 1 2) (ctl [(1, 0x14), (2, 0xFFFF_FFFF_FFFF_FFFF)]) 3 = 0xC ∧
      sAfter (.clmulN64 3 1 2) (ctl [(1, 0x44), (2, 0xFFFF_FFFF_FFFF_FFFF)]) 3 = 0x3C := by decide +kernel
theorem test_clz_of_zero : sAfter (.clzN64 3 0) (ctl []) 3 = 64 ∧ sAfter (.ctzN64 3 1) (ctl [(1, 0x10)]) 3 = 4 := by decide +kernel
/-- R199, its examples. -/
theorem test_lui : sAfter (.lui 0x76544 4) (ctl []) 4 = 0x7654_4000 ∧ sAfter (.lui 0x80000 4) (ctl []) 4 = 0xFFFF_FFFF_8000_0000 := by
  decide +kernel
theorem test_auipc : sAfter (.auipc 0 15) (ctl []) 15 = 0x1000 := by decide +kernel
/-- R200: −7 by 2; by zero; the quotient that does not fit. -/
theorem test_division :
    sAfter (.divI64 0 3 1 2) (ctl [(1, 0xFFFF_FFFF_FFFF_FFF9), (2, 2)]) 3 = 0xFFFF_FFFF_FFFF_FFFD ∧
      sAfter (.divI64 0 3 1 0) (ctl [(1, 5)]) 3 = 0xFFFF_FFFF_FFFF_FFFF := by decide +kernel
theorem test_remainder :
    sAfter (.remI64 0 3 1 2) (ctl [(1, 0xFFFF_FFFF_FFFF_FFF9), (2, 2)]) 3 = 0xFFFF_FFFF_FFFF_FFFF ∧
      sAfter (.remI64 0 3 1 2) (ctl [(1, 0x8000_0000_0000_0000), (2, 0xFFFF_FFFF_FFFF_FFFF)]) 3 = 0 := by decide +kernel
/-- R75: the write of DIV ahead(2) is placed two instructions later; the destination keeps its value until then. -/
theorem test_lookahead :
    sAfter (.divI64 2 9 4 5) (ctl [(9, 100), (4, 42), (5, 5)]) 9 = 100 ∧
      ((next (exec (.divI64 2 9 4 5) (ctl [(9, 100), (4, 42), (5, 5)]))).cur.pend).map (fun p => (p.reg, p.word, p.count)) = [(9, 8, 2)] := by
  decide +kernel
/-- R202, its examples: FCVT.b16, FCVT.h16 to −∞, FCVT.n64 of −1.5. -/
theorem test_conversions :
    sAfter (.fcvtB16F32 5 4) (ctl [(4, 0x3F88_0008)]) 5 = 0x3F88 ∧ sAfter (.fcvtH16F32 5 4) (ctl [(4, 0xC7A0_0000)]) 5 = 0xFC00 ∧
      sAfter (.fcvtN64F32 5 4) (ctl [(4, 0xBFC0_0000)]) 5 = 0 := by decide +kernel
/-- 2^24 + 1 rounds to even; NaN is the canonical one (R88, R89). -/
theorem test_float_add :
    sAfter (.faddF32 3 1 2) (ctl [(1, 0x4B80_0000), (2, 0x3F80_0000)]) 3 = 0x4B80_0000 ∧
      sAfter (.fnegF32 3 1) (ctl [(1, 0x7F80_0001)]) 3 = 0x7FC0_0000 := by decide +kernel
theorem test_float_division :
    sAfter (.fdivF32 0 3 1 0) (ctl [(1, 0xBF80_0000)]) 3 = 0xFF80_0000 ∧ sAfter (.fsqrtF32 0 3 1) (ctl [(1, 0x8000_0000)]) 3 = 0x8000_0000 := by
  decide +kernel
/-- R204, R206: signed and unsigned; +0 equals −0. -/
theorem test_compare :
    gAfter (.cmpLtI64 1 2 3) (ctl [(2, 0xFFFF_FFFF_FFFF_FFFF), (3, 1)]) 1 = true ∧
      gAfter (.cmpLtN64 1 2 3) (ctl [(2, 0xFFFF_FFFF_FFFF_FFFF), (3, 1)]) 1 = false := by decide +kernel
theorem test_float_compare : gAfter (.fcmpgEqF32 1 2 0) (ctl [(2, 0x8000_0000)]) 1 = true := by decide +kernel
/-- R205: the immediate of condition 3 is unsigned. -/
theorem test_compare_immediate :
    gAfter (.cmpi 0xFF 3 2 1) (ctl [(2, 200)]) 1 = true ∧ gAfter (.cmpi 0xFF 2 2 1) (ctl [(2, 0)]) 1 = false := by decide +kernel
/-- R79: a source field holds what it read in its latch. -/
theorem test_latch : sAfter (.add 3 0x30 0) ((next (exec (.add 2 1 0) (ctl [(1, 9)])))) 3 = 9 := by decide +kernel
/-- R213: JMP through an invalid register is FLT_TARGET 0. -/
theorem test_invalid_target : trapOf (.jmp 1) (ctl []) = (0x03, 0, 0) := by decide +kernel
/-- R211: PREPR of 0x1000 makes b1 valid; of an odd address it faults. -/
theorem test_prepare :
    (vget (next (exec (.prepr 4 1) (ctl [(4, 0x2000)]))).cur.b 1 BTarget.clear).addr = 0x2000 ∧
      trapOf (.prepr 4 1) (ctl [(4, 0x2001)]) = (0x03, 2, 4) := by decide +kernel
/-- R218, R436: a misaligned access, and one past LOCAL. -/
theorem test_address_faults :
    trapOf (.ldl64 0 0 4 5) (ctl [(4, 0x6_0004)]) = (0x07, 3, 1) ∧ trapOf (.stl64 0 4 5) (ctl [(4, 0x20_0000)]) = (0x08, 1, 2) := by
  decide +kernel
/-- R4, R216: little-endian, sign-extended; R110: LOCAL 0x6_0000 is byte 0 of bank 3. -/
theorem test_load :
    sAfter (.ldli32 0 0 4 5) (withPad (ctl [(4, 0x6_0000)]) 0x6_0000 [1, 2, 3, 0x84]) 5 = 0xFFFF_FFFF_8403_0201 := by decide +kernel
theorem test_store :
    memRead (next (exec (.memxStI16 4 5 ⟨0, 0, .disp 2⟩ noExt) (ctl [(4, 0x6_0000), (5, 0xABCD)]))).pad 0x6_0000 5 = [0, 0, 0xCD, 0xAB, 0] := by
  decide +kernel
/-- R220: the old value to D, the new one to memory; ACAS that does not match writes nothing. -/
theorem test_atomic_add :
    sAfter (.aadd 7 4 5 true ⟨0, 0, .disp 0⟩ noExt) (withPad (ctl [(4, 0x6_0000), (5, 3)]) 0x6_0000 [9]) 7 = 9 ∧
      memGet (next (exec (.aadd 7 4 5 true ⟨0, 0, .disp 0⟩ noExt) (withPad (ctl [(4, 0x6_0000), (5, 3)]) 0x6_0000 [9]))).pad 0x6_0000 = 12 := by
  decide +kernel
theorem test_atomic_compare :
    memGet (next (exec (.acas 7 4 5 false 6 ⟨0, 0, .disp 0⟩ noExt)
      (withPad (ctl [(4, 0x6_0000), (5, 3), (6, 8)]) 0x6_0000 [9]))).pad 0x6_0000 = 9 := by decide +kernel
/-- R231, worked example: merge, and zero with coal. -/
theorem test_vector_add :
    vAfter (.vadd 2 3 1 2 { Pfx.none with present := true, mask := 2 })
        (vec [] [(1, [⟨5, 4⟩, ⟨7, 4⟩]), (2, [⟨1, 2⟩, ⟨2, 6⟩]), (3, [⟨9, 8⟩])] [(2, [⟨true, 3⟩, ⟨false, 5⟩])]) 3 =
      [⟨6, 2⟩, ⟨7, 1⟩, ⟨9, 1⟩, ⟨9, 4⟩] ∧
    vAfter (.vadd 2 3 1 2 { Pfx.none with present := true, mask := 2, zero := true, coal := true })
        (vec [] [(1, [⟨5, 4⟩, ⟨7, 4⟩]), (2, [⟨1, 2⟩, ⟨2, 6⟩]), (3, [⟨9, 8⟩])] [(2, [⟨true, 3⟩, ⟨false, 5⟩])]) 3 =
      [⟨6, 2⟩, ⟨7, 1⟩, ⟨0, 5⟩] := by decide +kernel
/-- R237: 8-bit saturation, signed. -/
theorem test_vector_saturation : vAfter (.vaddsI 0 1 2 2 Pfx.none) (vec [] [(2, [⟨0x64, 3⟩])] []) 1 = [⟨0x7F, 3⟩] := by decide +kernel
/-- R249, R250, worked example. -/
theorem test_parity :
    kAfter (.kpxor 1 3 6 Pfx.none) (vec [] [] [(3, [⟨false, 2⟩, ⟨true, 1⟩, ⟨false, 3⟩, ⟨true, 1⟩, ⟨false, 9⟩])]) 1 =
      [⟨false, 2⟩, ⟨true, 4⟩, ⟨false, 10⟩] := by decide +kernel
theorem test_mask_bits : sAfter (.ktos 5 1 0 Pfx.none) (vec [] [] [(1, [⟨false, 2⟩, ⟨true, 4⟩, ⟨false, 10⟩])]) 5 = 0x3C := by decide +kernel
/-- R228: KLEN of k0. -/
theorem test_klen : sAfter (.klen 5 0 Pfx.none) (ctl []) 5 = 0x40_0000 := by decide +kernel
/-- R105, worked example: 1 × 3, 2^24 × 1, 1 × 2. -/
theorem test_sum :
    sAfter (.vrsumF32 7 2 0 Pfx.none) (vec [] [(2, [⟨0x3F80_0000, 2⟩, ⟨0x3F80_0000, 1⟩, ⟨0x4B80_0000, 1⟩, ⟨0x3F80_0000, 2⟩])] []) 7 = 0x4B80_0003 := by
  decide +kernel
/-- R106, worked example: the scan ends at 16,777,220. -/
theorem test_scan :
    vAfter (.vssumF32 1 2 0 Pfx.none) (vec [] [(2, [⟨0x3F80_0000, 3⟩, ⟨0x4B80_0000, 1⟩, ⟨0x3F80_0000, 2⟩])] []) 1 =
      [⟨0x3F80_0000, 1⟩, ⟨0x4000_0000, 1⟩, ⟨0x4040_0000, 1⟩, ⟨0x4B80_0002, 3⟩] := by decide +kernel
/-- R244: the active elements move together, and back. -/
theorem test_compress :
    vAfter (.vcomp 1 2 { Pfx.none with present := true, mask := 1 })
      (vec [] [(2, [⟨4, 1⟩, ⟨5, 1⟩, ⟨6, 1⟩])] [(1, [⟨true, 1⟩, ⟨false, 1⟩, ⟨true, 1⟩])]) 1 = [⟨4, 1⟩, ⟨6, 1⟩] := by decide +kernel
/-- R254, worked example: element 2 is the last to write word 5. -/
theorem test_scatter :
    let s := next (exec (.vscat 1 4 2 2 0 2 ⟨0, 0, .disp 0⟩ noExt)
      (vec [(4, 0x6_0000)] [(1, [⟨10, 1⟩, ⟨20, 1⟩, ⟨30, 1⟩]), (2, [⟨5, 1⟩, ⟨2, 1⟩, ⟨5, 1⟩])] []))
    memGet s.pad 0x6_0014 = 30 ∧ memGet s.pad 0x6_0008 = 20 := by decide +kernel
/-- R276, R279, worked example of one MXFP4 block. -/
theorem test_matrix :
    tAfter (.mma 2 0 1 4 4 true 31 0 0 noExt)
      (withTiles (ctl []) [(0, tileOf 0 0x29 ((0x04 :: List.replicate 31 0) ++ (0x02 :: List.replicate 31 0) ++ (0x03 :: List.replicate 31 0) ++
        (0x01 :: List.replicate 31 0) ++ [0x02])), (1, tileOf 1 0x00 [0x36, 0x0F])]) 2 32 0 = 66 := by decide +kernel
theorem test_scale :
    tAfter (.scac 3 2 4 true 2 5 0 0 noExt)
      (withTiles (ctl []) [(2, tileOf 2 0x40 [66]), (3, tileOf 3 0x60 [0, 0, 0x80, 0x3F]), (4, tileOf 4 0x00 [0x81]), (5, tileOf 5 0x00 [0x7C])])
      3 32 0 = 0x4114_0000 := by decide +kernel
/-- R277, R100, worked example of one BF16 group with a sticky bit. -/
theorem test_group :
    tAfter (.mmf 2 0 1 2 true 7 0 0 noExt)
      (withTiles (ctl []) [(0, tileOf 0 0x00 [0x80, 0x45, 0x80, 0xC5, 0x80, 0x3F, 0x80, 0x39, 0x80, 0x30]),
        (1, tileOf 1 0x00 [0x80, 0x45, 0x80, 0x45, 0x80, 0x3F, 0x80, 0x39, 0x80, 0x30])]) 2 32 0 = 0x3F80_0001 := by decide +kernel
/-- R268: the ROW sum of two bytes saturates as unsigned. -/
theorem test_tile_add :
    tAfter (.tadd 2 0 1 1 0 true noExt) (withTiles (ctl []) [(0, tileOf 0 0x00 [200, 1]), (1, tileOf 1 0x00 [100, 2])]) 2 8 0 = 255 := by
  decide +kernel
/-- R269: relu of −1.0 is +0. -/
theorem test_activation : tAfter (.tact 2 0 8 0 0 noExt) (withTiles (ctl []) [(0, tileOf 0 0x00 [0, 0, 0x80, 0xBF])]) 2 32 0 = 0 := by decide +kernel
/-- R258, R266: a dead source faults with its operand and number; TZERO writes the tag of the encoding. -/
theorem test_dead_tile : trapOf (.tmov 1 2 noExt) (ctl []) = (0x06, 0x200, 0) := by decide +kernel
theorem test_tile_zero : ((next (exec (.tzero 3 3 0 false noExt) (ctl []))).tile 3).map (·.tag) = some 0x60 := by decide +kernel
/-- R435: a helper has no tiles. -/
theorem test_helper_tile : trapOf (.tzero 3 3 0 false noExt) (helper []) = (0x01, 1, 0) := by decide +kernel
/-- R163, R285: the copy is sent as number 1 of its counter. -/
theorem test_copy :
    (vget (next (exec (.cpy (.reg 5) 6 7 0 0 0 0 2 false 0 0 noExt) (ctl [(5, 16), (6, 0x6_0000), (7, 0x8_0000)]))).me.tcs 2 ⟨0, 0, none⟩).issued = 1 := by
  decide +kernel
/-- R52: MRECV of an empty register waits; of a full one it clears the bit. -/
theorem test_mrecv :
    (next (exec (.mrecv 5 3) (ctl []))).cur.st = .waiting ∧
      (let s := ctl []
       let t := next (exec (.mrecv 5 3) (s.setMe { s.me with m := s.me.m.setIfInBounds 3 7, mfull := s.me.mfull.setIfInBounds 3 true }))
       t.cur.sreg 5 = 7 ∧ vget t.me.mfull 3 true = false) := by decide +kernel
/-- R45: FORK pushes a task with its arguments. -/
theorem test_fork :
    ((next (exec (.fork 15 9 true 2 0 noExt) (ctl [(15, 0x4000), (9, 1), (2, 2)]))).me.deque).map (fun t => (t.pc, t.arga, t.argb, t.full)) =
      [(0x4000, 1, 2, true)] := by decide +kernel
/-- R323: user level may not read TRAPCAUSE, and may read CTXID of core 0's control context, slot 15. -/
theorem test_sysrd : trapOf (.sysrd 4 0 0x10) (ctl []) = (0x09, 0x110, 0) ∧ sAfter (.sysrd 4 0 1) (ctl []) 4 = 15 := by decide +kernel
theorem test_syswr : (next (exec (.syswr 0 1 0x18) (sys [(1, 0x5000)]))).procBase = 0x5000 := by decide +kernel
/-- R319, R417, R418: TRAP 5 enters the handler, and TRAPPC is the next instruction; ERET goes on there. -/
theorem test_trap :
    let t := next (exec (.trap 5) (caught (ctl [])))
    t.cur.pc = 0x4000 ∧ t.cur.trapPc = 0x1004 ∧ t.cur.trapCause = 0x0000_0000_0005_0020 ∧ (next (exec .eret t)).cur.pc = 0x1004 := by
  decide +kernel
/-- R421: with no handler, the context ends. -/
theorem test_fault_ends : (next (exec (.jmp 1) (ctl []))).cur.st = .idle := by decide +kernel
/-- R311: EXIT ends the context, and a control context's tiles are dead. -/
theorem test_exit :
    let t := next (exec .exit (withTiles (ctl []) [(4, tileOf 0 0 [1])]))
    t.cur.st = .idle ∧ t.tile 4 = none := by decide +kernel
/-- A step fetches, decodes and executes the word placed for it. -/
theorem test_step : ((next (step (State.reset.withFetchWord 32 0x00300508))).cur.sreg 5, (next (step (State.reset.withFetchWord 32 0x00300508))).tick) = (3, 1) := by
  decide +kernel
/-- R384: the tick goes on in a step of its own unit too. -/
theorem test_agent_step : (next (step { State.reset with turns := [.agent (.functionReady 40)] })).tick = 1 := by decide +kernel
/-- R392: a breakpoint stops the context before it executes. -/
theorem test_breakpoint :
    let s := State.reset.withFetchWord 32 0x00300508
    let t := next (step { (s.setCore 0 { s.core 0 with bps := Vector.replicate 4 (some (0, 0)) }) with turns := [.ctx 0 15] })
    t.cur.sreg 5 = 0 ∧ t.dbg.stopReq.isSome = true := by decide +kernel

/-! ## Witnesses: states and operands that meet the hypotheses of each statement -/

/-- The value of a done access. -/
def okVal {α : Type} : Res α → Option α
  | .ok a _ => some a
  | _ => none

/-- The state after it. -/
def okSt {α : Type} : Res α → State
  | .ok _ s => s
  | _ => State.reset

theorem ok_of_val {α : Type} {r : Res α} {a : α} (h : okVal r = some a) : r = .ok a (okSt r) := by
  cases r <;> simp_all [okVal, okSt]

/-- Whether an access waits. -/
def isWait {α : Type} : Res α → Bool
  | .wait _ => true
  | _ => false

/-- The state in which it waits. -/
def waitSt {α : Type} : Res α → State
  | .wait s => s
  | _ => State.reset

theorem wait_of_isWait {α : Type} {r : Res α} (h : isWait r = true) : r = .wait (waitSt r) := by
  cases r <;> simp_all [isWait, waitSt]

/-- The words of a fetch, or its trap. -/
def words : Fetched → Option (List Nat)
  | .ok w _ => some w
  | _ => none

def trapAt : Fetched → Option Trap
  | .trap t _ => some t
  | _ => none

def fetchedSt : Fetched → State
  | .ok _ s => s
  | .trap _ s => s
  | .wait s => s

theorem ok_of_words {r : Fetched} {w : List Nat} (h : words r = some w) : r = .ok w (fetchedSt r) := by
  cases r <;> simp_all [words, fetchedSt]

theorem trap_of_trapAt {r : Fetched} {t : Trap} (h : trapAt r = some t) : r = .trap t (fetchedSt r) := by
  cases r <;> simp_all [trapAt, fetchedSt]

theorem exists_ok {ε α : Type} {r : Except ε α} (h : r.isOk = true) : ∃ x, r = .ok x := by
  cases r <;> simp_all [Except.isOk, Except.toBool]

theorem exists_error {ε α : Type} {r : Except ε α} (h : r.isOk = false) : ∃ x, r = .error x := by
  cases r <;> simp_all [Except.isOk, Except.toBool]

/-- A helper, h0 of core 0, that runs these words as inline code (R54). -/
def inline (ws : List W32) : State :=
  { State.reset.setCtx 0 0 { ctxWith [] with pc := 0xFFFF_FFFF_FFFF_FF00, code := ws } with curSlot := 0 }

/-- Its turn. -/
def withTurn (s : State) : State := { s with turns := [.ctx 0 0] }

theorem witness_DecodeInvertsEncode : (Instr.add 7 1 14).faults false = [] ∧ (Instr.add 7 1 14).isStep = false := by decide +kernel

theorem witness_DecodedInstructionsAreWellFormed : decode false 0x00704E04 = .ok (.add 7 1 14) 1 := by decide +kernel

theorem witness_StepRunsDecodedInstruction_turn :
    State.gated (withTurn (inline [0x00000609, 7])) = false ∧ (withTurn (inline [0x00000609, 7])).turns = [.ctx 0 0] ∧
    canRun (withTurn (inline [0x00000609, 7])) true 0 0 = true ∧ atBreak (inline [0x00000609, 7]) 0 0 = false ∧
    words (fetchWord ((inline [0x00000609, 7]).moveTo 0 0) 0 0 ((inline [0x00000609, 7]).ctx 0 0).pc) = some [0x609] ∧
    firstWordKnown 0x609 = true ∧
    words (fetchWords ((inline [0x00000609, 7]).moveTo 0 0) 0 0 (((inline [0x00000609, 7]).ctx 0 0).pc + 4) (lenOf 0x609 - 1)) = some [7] ∧
    decode true (wordsToNat [0x609, 7]) = .ok (.addiLit32 7 0 6) 2 := by decide +kernel

/-- With no turn named, after h9 of core 95 moved, on a part of one core: the units move, and then it is this context's turn. -/
theorem witness_StepRunsDecodedInstruction_next :
    (inline [8]).turns = [] ∧ nextCtx (sweep { inline [8] with curCore := 95, curSlot := 9, coresen := #v[1, 0] }) = some (0, 0) := by decide +kernel

theorem witness_StepTakesFetchAndDecodeFaults_fetch :
    let s := State.setCtx (inline []) 0 0 { ctxWith [] with pc := 0x8000_0000_0000 }
    State.gated (withTurn s) = false ∧ canRun (withTurn s) true 0 0 = true ∧ atBreak s 0 0 = false ∧
      trapAt (fetchWord (s.moveTo 0 0) 0 0 (s.ctx 0 0).pc) = some (Trap.at 0x03 1 4 0x8000_0000_0000) := by decide +kernel

theorem witness_StepTakesFetchAndDecodeFaults_first :
    canRun (withTurn (inline [0])) true 0 0 = true ∧ atBreak (inline [0]) 0 0 = false ∧
      words (fetchWord ((inline [0]).moveTo 0 0) 0 0 ((inline [0]).ctx 0 0).pc) = some [0] ∧ firstWordKnown 0 = false := by decide +kernel

/-- A prefix word before a word of no prefixable major; reserved bits of EXIT. -/
theorem witness_StepTakesFetchAndDecodeFaults_illegal :
    words (fetchWord ((inline [0xF9, 0x00300508]).moveTo 0 0) 0 0 ((inline [0xF9, 0x00300508]).ctx 0 0).pc) = some [0xF9] ∧
      firstWordKnown 0xF9 = true ∧
      words (fetchWords ((inline [0xF9, 0x00300508]).moveTo 0 0) 0 0 (((inline [0xF9, 0x00300508]).ctx 0 0).pc + 4) (lenOf 0xF9 - 1)) =
        some [0x00300508] ∧ decode true (wordsToNat [0xF9, 0x00300508]) = .illegal := by decide +kernel

theorem witness_StepTakesFetchAndDecodeFaults_reserved :
    words (fetchWord ((inline [0x100001B4]).moveTo 0 0) 0 0 ((inline [0x100001B4]).ctx 0 0).pc) = some [0x100001B4] ∧
      firstWordKnown 0x100001B4 = true ∧ lenOf 0x100001B4 - 1 = 0 ∧ decode true (wordsToNat [0x100001B4]) = .reserved 8 := by decide +kernel

/-- Inline code whose last word, which stands last in its range, is an instruction's first; its next word is at address 0. -/
def lastWord (w : W32) (minor : Nat) : State :=
  { State.reset.setCtx 0 0 { ctxWith [] with pc := 0xFFFF_FFFF_FFFF_FFFC, code := List.replicate 63 8 ++ [w], minor := minor } with
    curSlot := 0, ready := 0x0000_FFFF_0000_0000 }

/-- A later word past the last one of the inline code; one whose page is unmapped, of ADDI and of AFADD.f32 in code of version 3.1. -/
theorem witness_StepTakesFetchAndDecodeFaults_later :
    trapAt (fetchWords (inline [0x609]) 0 0 0xFFFF_FFFF_FFFF_FF04 (lenOf 0x609 - 1)) = some (Trap.plain 0x01 0) ∧
      (let s := lastWord 0x609 2
       words (fetchWord s 0 0 (s.ctx 0 0).pc) = some [0x609] ∧ (trapAt (fetchWords s 0 0 0 (lenOf 0x609 - 1))).map (·.code) = some 8 ∧
         opMajor 0x609 ≠ 0x3E ∧ classTrap s (opMajor 0x609) (0x609 % 2 ^ 32 / 2 ^ 26) = none) ∧
      (let s := lastWord 0x28710576 1
       words (fetchWord s 0 0 (s.ctx 0 0).pc) = some [0x28710576] ∧ firstWordKnown 0x28710576 = true ∧
         (trapAt (fetchWords s 0 0 0 (lenOf 0x28710576 - 1))).map (·.code) = some 8 ∧ opMajor 0x28710576 ≠ 0x3E ∧
         classTrap s (opMajor 0x28710576) (0x28710576 % 2 ^ 32 / 2 ^ 26) = some (Trap.plain 0x01 0)) := by decide +kernel

theorem witness_StepRunsDecodedInstruction_tick :
    State.gated { State.reset with halted := true } = true ∧
      (let s : State := { State.reset with tick := 1 }
       s.gated = false ∧ s.dbg.writes = [] ∧ s.dbg.stopReq = none ∧ s.tickWait = 0 ∧ (∀ k ∈ s.cores.toList, k.stamps = []) ∧
         s.tick % 1024 ≠ 0) ∧
      State.tickWait { State.reset with tickWait := 3 } ≠ 0 := by decide +kernel

theorem stands_ctl (l : List (Nat × Word)) : Stands (ctl l) := ⟨Nat.zero_lt_succ 95, .inr rfl⟩

theorem witness_IntegerTwoSourceResults : Stands (ctl []) ∧ ∀ e ∈ twoSource, Admits (ctl []) e.since :=
  ⟨stands_ctl _, by unfold Admits; decide +kernel⟩

/-- The statements whose only premise is that the moving context is one the device has, in a control context and a helper. -/
theorem witness_IntegerOneSourceResults : Stands (ctl []) ∧ Stands (helper []) := ⟨stands_ctl _, ⟨by decide, .inl (by decide)⟩⟩
theorem witness_ImmediateAndFieldResults : Stands (ctl []) ∧ 63 < 64 := ⟨stands_ctl _, by decide⟩
theorem witness_LongLatencyResults : Stands (ctl [(1, 5)]) := stands_ctl _
theorem witness_ScalarFloatResults : Stands (ctl []) := stands_ctl _
theorem witness_GuardResults : Stands (ctl []) ∧ 7 < 8 ∧ ∀ cond, cond < 8 → ∃ e, compares[cond]? = some e :=
  ⟨stands_ctl _, by decide, fun cond h => ⟨compares[cond]'(Nat.lt_of_lt_of_le h (by decide)), List.getElem?_eq_getElem _⟩⟩

theorem witness_PrepareResults :
    let s := ctl [(4, 0x2000)]
    Stands s ∧ Stands (prefetch s 0x1008).2 ∧ goodTarget 0x2000 ∧ Stands (prefetch s 0x2000).2 ∧
      (let u := s.setCur { s.cur with la := latchAfter s.cur s.cur.la (some 4) }
       goodTarget (operand s.cur 4) ∧ Stands (prefetch u (operand s.cur 4)).2 ∧ (prefetch u (operand s.cur 4)).2.cur = u.cur) ∧
      ¬ goodTarget 0x2001 ∧ ¬ goodTarget 0x8000_0000_0000 := by
  unfold Stands goodTarget; decide +kernel

/-- A transfer's state: b1 and b7 valid, and two words of NOP from its PC on. -/
def jumping : State := (inline [8, 8]).setCur { (inline [8, 8]).cur with b := Vector.replicate 8 ⟨0x40, true, 0, 3, 2, none⟩ }

theorem witness_TransfersHoldTheirDestination :
    Stands jumping ∧ jumping.cur.tv = none ∧
      words (fetchWord jumping jumping.curCore jumping.curSlot (jumping.cur.pc + 4)) = some [8] ∧
      (fetchedSt (fetchWord jumping jumping.curCore jumping.curSlot (jumping.cur.pc + 4))).cur = jumping.cur ∧
      (vget jumping.cur.b 1 BTarget.clear).valid = true ∧ (vget jumping.cur.b 7 BTarget.clear).valid = true ∧
      Stands (prefetch jumping (jumping.cur.pc + 8)).2 ∧ (prefetch jumping (jumping.cur.pc + 8)).2.cur = jumping.cur := by
  unfold Stands; decide +kernel

theorem witness_TransferFaults :
    (Stands (ctl []) ∧ (ctl []).cur.tv = none ∧ (vget (ctl []).cur.b 1 BTarget.clear).valid = false ∧
      (vget (ctl []).cur.b 7 BTarget.clear).valid = false) ∧
    (Stands (State.reset.setCtx 0 15 { ctxWith [] with tv := some 0x40 }) ∧
      (State.reset.setCtx 0 15 { ctxWith [] with tv := some 0x40 }).cur.tv = some 0x40) := by
  unfold Stands; decide +kernel

theorem witness_FencesAndWaitsComplete :
    let s := ctl []
    Stands s ∧ (∃ u, settleScope s s.curCore 3 = .ok () u ∧ Stands u) ∧ (∃ u, settleWait s s.who 3 = .ok () u ∧ Stands u) ∧
      (∃ u, settleScope s s.curCore 2 = .ok () u ∧ Stands u) ∧ s.me.posted = [] ∧ s.flights = [] ∧ 2 ≤ 2 :=
  ⟨stands_ctl _, ⟨_, ok_of_val (by decide +kernel), by unfold Stands; decide +kernel⟩,
    ⟨_, ok_of_val (by decide +kernel), by unfold Stands; decide +kernel⟩,
    ⟨_, ok_of_val (by decide +kernel), by unfold Stands; decide +kernel⟩, by decide +kernel, by decide +kernel, by decide⟩

/-- A FENCE behind a store to a full queue, which cannot be performed yet. -/
def fencing : State :=
  let s := (ctl []).setBank 0 3 { Bank.init 3 0 with count := 16384 }
  s.setMe { s.me with posted := [{ slot := 15, pt := false, form := .scalar, born := 0, ctxid := 0, pid := 0, pc := 0, space := 0,
                                   addr := 0x6_0000, bytes := List.replicate 8 1, dest := .pad 0x6_0000, also := [] }] }

theorem witness_FencesAndWaitsComplete_waiting :
    let u := waitSt (settleScope fencing fencing.curCore 3)
    Stands fencing ∧ settleScope fencing fencing.curCore 3 = .wait u ∧ Stands u ∧
      Stands (u.setMe { u.me with posted := u.me.posted ++ [fenceMark u 3 true] }) :=
  ⟨⟨by decide, .inr (by decide)⟩, wait_of_isWait (by decide +kernel), by unfold Stands; decide +kernel, by unfold Stands; decide +kernel⟩

theorem flushDone_nil {v : State} {die pid lo hi : Nat} {keep : Bool} (h : v.l2Of die = []) : FlushDone v die pid lo hi keep := by
  simp [FlushDone, h]

/-- The state of a FLUSH of line 32, with what its release and its walks over both dies leave. -/
def flushing : State := ctl [(1, 0xFFFF_FFFF_FFFF_FFFF), (2, 2), (3, 0x1000), (4, 128)]
def flushed (u : State) : State :=
  let p := flushDie u 0 u.me.pid 32 32 false
  flushDie p 1 p.me.pid 32 32 false

/-- FLUSH of no bytes, of a line that no die holds, past the address space; and of a dirty line whose controller is not ready. -/
theorem witness_FlushCompletes :
    Stands flushing ∧ 2 ^ 64 < (operand flushing.cur 1).toNat + (operand flushing.cur 2).toNat ∧ operand flushing.cur 0 = 0 ∧
      (let x := operand flushing.cur 3
       let n := operand flushing.cur 4
       n ≠ 0 ∧ x.toNat + n.toNat ≤ 2 ^ 64 ∧ (x.setWidth 48).signExtend 64 = x ∧ ((x + n - 1).setWidth 48).signExtend 64 = x + n - 1 ∧
         x.toNat % 2 ^ 48 / 128 = 32 ∧ (x + n - 1).toNat % 2 ^ 48 / 128 = 32) ∧
      ∃ u, settleScope flushing flushing.curCore 3 = .ok () u ∧ Stands u ∧ u.cur = flushing.cur ∧
        Stands (flushed u) ∧ (flushed u).cur = flushing.cur ∧ FlushDone (flushed u) 0 (flushed u).me.pid 32 32 false ∧
        FlushDone (flushed u) 1 (flushed u).me.pid 32 32 false :=
  ⟨stands_ctl _, by decide +kernel, by decide +kernel, by decide +kernel, _, ok_of_val (by decide +kernel), by unfold Stands; decide +kernel,
    by decide +kernel, by unfold Stands; decide +kernel, by decide +kernel, flushDone_nil (by decide +kernel), flushDone_nil (by decide +kernel)⟩

/-- A dirty line of the range whose controller cannot take it. -/
def unflushed : State :=
  { flushing with l2 := #v[[{ pid := 0, vln := 32, pln := 32, data := List.replicate 128 0x5A, valid := List.replicate 128 true,
                              dirty := List.replicate 128 true, comp := false, sharers := [], ovf := false, bad := [] }], []] }

theorem witness_FlushCompletes_waits :
    ∃ u, settleScope unflushed unflushed.curCore 3 = .ok () u ∧ Stands u ∧ u.cur = unflushed.cur ∧
      ¬ FlushDone (flushed u) 0 (flushed u).me.pid 32 32 false := by
  refine ⟨_, ok_of_val (by decide +kernel), by unfold Stands; decide +kernel, by decide +kernel, fun h => ?_⟩
  have l : (((flushed (okSt (settleScope unflushed unflushed.curCore 3))).l2Of 0).any fun l =>
      decide (l.pid = (flushed (okSt (settleScope unflushed unflushed.curCore 3))).me.pid) && decide (l.vln = 32)) = true := by decide +kernel
  obtain ⟨x, hx, e⟩ := List.any_eq_true.mp l
  simp only [Bool.and_eq_true, decide_eq_true_eq] at e
  exact absurd (h x hx e.1 (by omega) (by omega)).1 (by decide)

/-! Scalar memory -/

theorem executes (s : State) : Executes s noExt := .inl rfl

/-- Every LOCAL load, at the first byte of bank 3 and at the last bytes of bank 15. -/
theorem witness_LocalLoads :
    (∀ e ∈ loadsM, e.space = 0 → PadClear (ctl [(4, 0x6_0008)]) (addressM 0x6_0008 0xFF e.lg).toNat (2 ^ e.lg) ∧
      NoFailing (ctl [(4, 0x6_0008)]) (addressM 0x6_0008 0xFF e.lg).toNat (2 ^ e.lg)) ∧
    (∀ e ∈ loadsX, PadClear (ctl [(4, 0x20_0000)]) (addressX 0x20_0000 0 0 (.disp (BitVec.ofInt 32 (-2 ^ e.lg)))).toNat (2 ^ e.lg) ∧
      NoFailing (ctl [(4, 0x20_0000)]) (addressX 0x20_0000 0 0 (.disp (BitVec.ofInt 32 (-2 ^ e.lg)))).toNat (2 ^ e.lg)) ∧
    noExt.wait = 0 := by
  unfold PadClear NoFailing; decide +kernel

theorem witness_LocalStores :
    (∀ e ∈ storesM, e.space = 0 → PadClear (ctl []) (addressM 0x6_0000 1 e.lg).toNat (2 ^ e.lg)) ∧
    (∀ e ∈ storesX, PadClear (ctl []) (addressX 0x6_0000 0 0 (.lit 0x7_0000)).toNat (2 ^ e.lg)) ∧ noExt.wait = 0 ∧ noExt.ord ≠ 2 := by
  unfold PadClear; decide +kernel

/-- A state whose tables map the first GiB, the memory controllers ready, with registers. -/
def mapped (l : List (Nat × Word)) : State := { placeMap (ctl l) 0 with ready := 0x0000_FFFF_0000_0000 }

/-- A GLOBAL load through the tables. -/
def settledFor : State := settleFor (mapped []) (mapped []).who 2 0 0x1000

theorem witness_LoadsOfEverySpaceComplete :
    Stands (mapped []) ∧ check6 settledFor settledFor.who .scalar 2 0 0x1000 8 3 1 = none ∧
    okVal (loadPiece settledFor settledFor.who .scalar 2 0 0x1000 8) = some (List.replicate 8 0) ∧
    Stands (okSt (loadPiece settledFor settledFor.who .scalar 2 0 0x1000 8)) ∧
    okVal (settleWait (mapped []) (mapped []).who 0) = some () := by
  unfold Stands; decide +kernel

/-- A GLOBAL store: its pieces, and their leaving the core. -/
def sent : State := (storePieces (mapped []) (mapped []).who .scalar 2 0 0x1000 2 0 [1, 2, 3, 4]).2
def sending : Res Unit :=
  match (storePieces (mapped []) (mapped []).who .scalar 2 0 0x1000 2 0 [1, 2, 3, 4]).1 with
  | .ok ps => sendPieces sent sent.who (sent.ctxid 0 15) sent.cur.pc 2 ps
  | .error _ => .wait State.reset

theorem witness_StoresOfEverySpaceComplete :
    check6 (mapped []) (mapped []).who .scalar 2 0 0x1000 4 2 2 = none ∧ okVal (settleScope (mapped []) 0 3) = some () ∧
    (storePieces (mapped []) (mapped []).who .scalar 2 0 0x1000 2 0 [1, 2, 3, 4]).1.isOk = true ∧
    okVal sending = some () ∧ (okSt sending).curCore = 0 ∧ (okSt sending).curSlot = 15 := by decide +kernel

/-- A translation and an L2 line that a load at 0x108 meets. -/
def hitLine : L2Line :=
  { pid := 0, vln := 2, pln := 2, data := List.replicate 128 0x5A, valid := List.replicate 128 true, dirty := List.replicate 128 false,
    comp := false, sharers := [], ovf := false, bad := [] }
def hit : State :=
  { ctl [(4, 0x100)] with tlb := Vector.replicate 16 [⟨0, 0, 30, 0x1F⟩], l2 := #v[[hitLine], []] }

theorem witness_GlobalLoadHitsL2 :
    Stands hit ∧ hit.curSlot ≠ 9 ∧ (∀ e ∈ loadsM, e.space = 2 → (addressM 0x100 1 e.lg).toNat % 2 ^ e.lg = 0 ∧
      ((hit.station (stationOf 0 hit.me.pid ((addressM 0x100 1 e.lg).toNat % 2 ^ 48))).find?
        (·.hits hit.me.pid ((addressM 0x100 1 e.lg).toNat % 2 ^ 48))) = some ⟨0, 0, 30, 0x1F⟩ ∧
      dirBusy hit 0 hitLine.pid hitLine.vln = false ∧
      (∀ l ∈ hit.l2Of 0, l.pid = hit.me.pid → l.vln = (addressM 0x100 1 e.lg).toNat % 2 ^ 48 / 128 → l.pln = 2)) ∧
    (((0x100 : Word).setWidth 48).signExtend 64 = 0x100) ∧ hit.me.posted = [] ∧ wbit (0x1F : Word) 6 = false ∧ wbit (0x1F : Word) 2 = true ∧
    hit.pc 0 = [] ∧ ((hit.l2Of 0).find? (·.pln == 2)) = some hitLine ∧ hitLine.bad = [] ∧ hitLine.data.length = 128 ∧
    hitLine.valid = List.replicate 128 true ∧ wayCount hit 0 = 0 := by
  unfold Stands; decide +kernel

theorem witness_LocalAtomics :
    Stands (ctl []) ∧ PadClear (ctl []) 0x6_0000 4 ∧ NoFailing (ctl []) 0x6_0000 4 ∧ PadClear (ctl []) 0x1F_FFF8 8 ∧
      NoFailing (ctl []) 0x1F_FFF8 8 ∧ noExt.wait = 0 ∧ noExt.ord < 2 ∧ Admits (ctl []) 2 := by
  unfold Stands PadClear NoFailing Admits; decide +kernel

/-- Atomics of every kind on HBM with release and acquire; and ACAS and AFADD.f32 at the head of a helper. -/
def remote : State := mapped [(4, 0x1000), (5, 3)]
def remoteEnd : State := okSt (settleScope (okSt (settleWait remote remote.who 1)) 0 3)

theorem witness_LocalAtomics_remote :
    okVal (settleWait remote remote.who 1) = some () ∧ okVal (settleScope (okSt (settleWait remote remote.who 1)) 0 3) = some () ∧
      (let z := settleFor remoteEnd remoteEnd.who 2 0 0x1000
       addressX (operand remoteEnd.cur 4) 0 0 (.disp 0) = 0x1000 ∧ check6 z z.who .atomic 2 0 0x1000 4 2 3 = none ∧
         (∀ e ∈ atomics, okVal (atomicAt z z.who 2 0 0x1000 4 fun o => some (e.new 32 o 3)) = some 0 ∧
           Stands (okSt (atomicAt z z.who 2 0 0x1000 4 fun o => some (e.new 32 o 3)))) ∧
         okVal (atomicAt z z.who 2 0 0x1000 4 fun o => if o = (z.cur.sreg 6).toNat % 2 ^ 32 then some 3 else none) = some 0 ∧
         okVal (atomicAt z z.who 2 0 0x1000 4 fun o => some (rneF32 ((f32 o).add (f32 3)))) = some 0) := by
  unfold Stands; decide +kernel

/-- The bank that a LOCAL or PADDOCK access meets. -/
def met (s : State) (space : Nat) (ea : Word) : Bank :=
  let z := settleFor s s.who space 0 ea
  let k := padOfAddr z.curCore space 0 ea
  z.bank (keyHome k) (keyBank k)

/-- Bank 3 of core 0 in a mode, of a PID; and the overflow area in it. -/
def inBank (mode esize pid : Nat) : State := (ctl []).setBank 0 3 { Bank.init mode pid with esize := esize }
def inArea : State := (ctl []).setCore 0 { (ctl []).core 0 with dirArea := 0x8000_0000_0006_0000 }

/-- Each way an address is bad, of a load, a store and an atomic, in every space; the forms that a FIFO bank does not take; a bank of
another mode, of another PID, and the overflow area. -/
theorem witness_ScalarAddressFaults :
    (∀ e ∈ loadsM, (addressM 0x6_0001 0 e.lg).toNat % 2 ^ e.lg ≠ 0) ∧ (∀ e ∈ storesM, (addressM 0x6_0001 0 e.lg).toNat % 2 ^ e.lg ≠ 0) ∧
    ((0x6_0001 : Word).toNat % 2 ^ 2 ≠ 0 ∧ addressX 0x6_0000 0 0 (.disp 1) = 0x6_0001 ∧ addressX 0x6_0000 1 0 (.disp 0) = 0x6_0001) ∧
    (∀ e ∈ loadsM, e.space = 0 → (addressM 0x20_0000 0 e.lg).toNat % 2 ^ e.lg = 0 ∧ ¬ (addressM 0x20_0000 0 e.lg).toNat < 2 ^ 21) ∧
    ¬ (0x100_0000 : Word).toNat < 2 ^ 24 ∧
    (∀ e ∈ loadsM, e.space = 2 → (addressM 0x8000_0000_0000 0 e.lg).toNat % 2 ^ e.lg = 0 ∧
      ¬ ((addressM 0x8000_0000_0000 0 e.lg).setWidth 48).signExtend 64 = addressM 0x8000_0000_0000 0 e.lg) ∧
    (let b := met (inBank 3 3 0) 0 0x6_0000
     b.mode = 3 ∧ 8 * 2 ^ b.esize ≠ 2 ^ 3) ∧
    (let b := met (inBank 4 0 0) 0 0x6_0000
     b.switches = [] ∧ b.clearing = false ∧ b.mode = 4) ∧
    (met (inBank 0 0 0) 1 0x6_0000).mode = 0 ∧
    (let b := met (inBank 1 0 5) 0 0x6_0000
     b.switches = [] ∧ b.clearing = false ∧ b.mode = 1 ∧ b.pid ≠ (ctl []).me.pid ∧ (ctl []).curSlot ≠ 9) ∧
    (let b := met inArea 0 0x6_0000
     b.mode = 1 ∧ b.pid = inArea.me.pid ∧ isDirArea inArea (keyHome (padOfAddr 0 0 0 0x6_0000)) (keyBank (padOfAddr 0 0 0 0x6_0000)) = true) ∧
    okVal (settleWait (ctl []) (ctl []).who 0) = some () ∧ Executes (ctl []) noExt ∧ noExt.ord < 2 ∧ Admits (ctl []) 2 := by
  unfold Executes Admits; decide +kernel

/-- A page of 1 GiB with these leaf bits, in HBM or elsewhere. -/
def paged (leaf : Word) : State := { ctl [] with tlb := Vector.replicate 16 [⟨0, 0, 30, leaf⟩] }

theorem witness_ScalarAddressFaults_pages :
    ([(0x1F : Word), 0x5F, 0x13, 0x17, 0x1B, 0x2000_0000_001F].all (fun leaf =>
      let z := settleFor (paged leaf) (paged leaf).who 2 0 0x100
      (z.station (stationOf (z.curCore / 48) z.me.pid 0x100)).find? (·.hits z.me.pid 0x100) == some ⟨0, 0, 30, leaf⟩) = true) ∧
    (0x5F : Word).getLsbD 6 = true ∧ (0x13 : Word).getLsbD 6 = false ∧ (0x13 : Word).getLsbD 2 = false ∧ (0x13 : Word).getLsbD 3 = false ∧
    (0x17 : Word).getLsbD 3 = false ∧ (0x1B : Word).getLsbD 2 = false ∧ wfld (0x1F : Word) 45 16 * 65536 + 0x100 < 0x47_B800_0000 ∧
    regionOf (wfld (0x2000_0000_001F : Word) 45 16 * 65536 + 0x100) = .host := by decide +kernel

/-! Run vectors and masks -/

/-- Two vectors and a mask whose runs end at different elements. -/
def runs : State :=
  vec [(4, 7), (5, 8)] [(1, [⟨5, 4⟩, ⟨7, 4⟩]), (2, [⟨1, 2⟩, ⟨2, 6⟩]), (3, [⟨9, 8⟩])]
    [(1, [⟨true, 3⟩, ⟨false, 5⟩]), (2, [⟨false, 2⟩, ⟨true, 6⟩])]

/-- A prefix with a mask. -/
def masked : Pfx := { Pfx.none with present := true, mask := 1 }

theorem stands_runs : Stands runs := ⟨Nat.zero_lt_succ 95, .inr rfl⟩

theorem witness_VectorTwoSourceElements :
    Stands runs ∧ ∀ w, w < 3 → ∀ e ∈ vecInts w ++ vecFloats, ∃ r, vecResult masked.coal (applySegs (fun x => e.op masked x.1 x.2)
      (segments runs.cur masked.mask masked.zero (lenV (runs.cur.vreg 1)) (pairRuns runs.cur 1 2) (runs.cur.vruns 3) 0)) = .ok r := by
  refine ⟨stands_runs, fun w hw e he => exists_ok ?_⟩
  have h : ∀ w, w < 3 → ∀ e ∈ vecInts w ++ vecFloats, (vecResult masked.coal (applySegs (fun x => e.op masked x.1 x.2)
      (segments runs.cur masked.mask masked.zero (lenV (runs.cur.vreg 1)) (pairRuns runs.cur 1 2) (runs.cur.vruns 3) 0))).isOk = true := by
    decide +kernel
  exact h w hw e he

/-- The clause on overflow: 64 runs of two elements and one of an odd element more. -/
def manyRuns : State := vec [] [(1, (List.range 64).map fun i => ⟨BitVec.ofNat 32 i, 2⟩), (2, [⟨1, 1⟩, ⟨2, 127⟩])] []

theorem witness_VectorTwoSourceElements_overflow :
    Stands manyRuns ∧ ∃ t, vecResult false (applySegs (fun x => lowBits 32 (fun x y => (x + y : Int)) x.1 x.2)
      (segments manyRuns.cur 0 false (lenV (manyRuns.cur.vreg 1)) (pairRuns manyRuns.cur 1 2) (manyRuns.cur.vruns 3) 0)) = .error t :=
  ⟨⟨Nat.zero_lt_succ 95, .inr rfl⟩, exists_error (by decide +kernel)⟩

theorem witness_VectorOneAndThreeSourceElements :
    Stands runs ∧ masked.fourth < 16 ∧
    (∀ e ∈ vecOnes, (vecResult masked.coal (applySegs (e.op masked)
      (segments runs.cur masked.mask masked.zero (lenV (runs.cur.vreg 1)) (runs.cur.vruns 1) (runs.cur.vruns 3) 0))).isOk = true) ∧
    (vecResult false (applySegs (fun x => rounded masked (((f32 x.1.1).mul (f32 x.1.2)).add (f32 x.2)))
      (segments runs.cur masked.mask masked.zero 8 (zipRuns (pairRuns runs.cur 1 2) (fitRuns 0 8 (runs.cur.vruns 3))) (runs.cur.vruns 3) 0))).isOk = true ∧
    (vecResult false (applySegs id (segments runs.cur masked.mask false 8 (runs.cur.vruns 1) (runs.cur.vruns 2) 0))).isOk = true := by
  refine ⟨stands_runs, ?_⟩; decide +kernel

theorem witness_VectorCompareElements :
    Stands runs ∧ ∀ w, w < 3 → ∀ e ∈ vecCompares w, (maskResult (applySegs (fun x => e.cond x.1 x.2)
      (segments runs.cur masked.mask masked.zero (lenV (runs.cur.vreg 1)) (pairRuns runs.cur 1 2) (runs.cur.kruns 3) false))).isOk = true := by
  refine ⟨stands_runs, ?_⟩; decide +kernel

theorem witness_MaskLogicElements :
    Stands runs ∧ (∀ e ∈ maskTwos, (maskResult (applySegs (fun x => e.op x.1 x.2)
      (segments runs.cur 0 false (maskLen runs.cur 1) (zipRuns (runs.cur.kruns 1) (fitRuns false (maskLen runs.cur 1) (runs.cur.kruns 2)))
        (runs.cur.kruns 3) false))).isOk = true) ∧
    (∀ e ∈ maskOnes, (maskResult (applySegs e.op
      (segments runs.cur 0 false (maskLen runs.cur 1) (runs.cur.kruns 1) (runs.cur.kruns 3) false))).isOk = true) := by
  refine ⟨stands_runs, ?_⟩; decide +kernel

/-- STOK at its longest, 64 elements. -/
theorem witness_MaskConversions :
    Stands runs ∧ Admits runs 1 ∧ trueCount (runs.cur.kruns 1) ≤ 511 ∧
      (maskResult (parityRuns ((operand runs.cur 4).getLsbD 0) (runs.cur.kruns 1))).isOk = true ∧ (operand (vec [(4, 64)] [] []).cur 4).toNat ≤ 64 := by
  refine ⟨stands_runs, ?_⟩; unfold Admits; decide +kernel

/-- Lengths of 8, and the greatest, 2^22, of VSPLAT. -/
theorem witness_VectorConstruction :
    Stands runs ∧ (operand runs.cur 5).toNat ≤ 2 ^ 22 ∧
    (vecResult true (applySegs (fun _ => 7) (segments runs.cur 1 false 8 (plainRuns 8) (runs.cur.vruns 3) 0))).isOk = true ∧
    (vecResult true (applySegs (fun _ => 7) (segments runs.cur 0 false (2 ^ 22) (plainRuns (2 ^ 22)) (runs.cur.vruns 3) 0))).isOk = true ∧
    ((List.range 8).filter (active runs.cur 1)).length ≤ 511 ∧
    (vecResult true (iotaRuns 7 0 (segments runs.cur 1 false 8 (plainRuns 8) (runs.cur.vruns 3) 0))).isOk = true ∧
    (vecResult false (fitRuns 0 8 (runs.cur.vruns 1))).isOk = true ∧
    lenV (runs.cur.vreg 3) + 8 ≤ 2 ^ 22 ∧ (vecResult false (runAppend true (runs.cur.vruns 3) 7 8)).isOk = true ∧
    (vecResult true (runs.cur.vruns 1)).isOk = true ∧
    (vecResult false (activeRuns (segments (β := Nat) runs.cur 1 true 8 (runs.cur.vruns 1) [] 0))).isOk = true ∧
    (vecResult false (expRuns (2 + (segments runs.cur 1 false 8 (plainRuns 8) (runs.cur.vruns 3) 0).length) (runs.cur.vruns 1)
      (segments runs.cur 1 false 8 (plainRuns 8) (runs.cur.vruns 3) 0))).isOk = true := by
  refine ⟨stands_runs, ?_⟩; decide +kernel

theorem witness_VectorToScalar : Stands runs := stands_runs
theorem witness_VectorReductions : Stands runs ∧ 15 < 16 := ⟨stands_runs, by decide⟩

theorem witness_VectorScans :
    Stands runs ∧ ∀ e ∈ scans, (vecResult true (scanRuns e.step 7
      (segments runs.cur masked.mask masked.zero (lenV (runs.cur.vreg 1)) (runs.cur.vruns 1) (runs.cur.vruns 3) 0))).isOk = true := by
  refine ⟨stands_runs, ?_⟩; decide +kernel

/-- Runs and masks of too many parts: v4 of 64 runs of four elements, v5 of 300 equal ones, v6 of 65 runs, v7 as long as a vector gets;
k1 alternates over 128 elements, k3 after them, k5 unevenly; k2 of 300 true bits, k4 of 512. -/
def parted : State :=
  let alternate (n a : Nat) : List KRun := (List.range n).map fun i => ⟨i % 2 == 0, if i % 2 = 0 then a else 1⟩
  vec [(4, 7), (5, 100), (6, 65), (7, 2 ^ 22 + 1), (8, 512), (9, 1)]
    [(3, (List.range 64).map fun i => ⟨BitVec.ofNat 32 i, 1⟩), (4, (List.range 64).map fun i => ⟨BitVec.ofNat 32 i, 4⟩), (5, [⟨1, 300⟩]),
     (6, (List.range 65).map fun i => ⟨BitVec.ofNat 32 i, 1⟩), (7, List.replicate 64 ⟨1, 65536⟩)]
    [(1, alternate 128 1), (2, [⟨true, 300⟩]), (3, ⟨false, 128⟩ :: alternate 127 1), (4, [⟨true, 512⟩]), (5, alternate 100 4)]

theorem stands_parted : Stands parted := ⟨Nat.zero_lt_succ 95, .inr rfl⟩

theorem witness_VectorOneAndThreeSourceElements_overflow :
    Stands parted ∧
    (∀ e ∈ vecOnes, (vecResult masked.coal (applySegs (e.op masked)
      (segments parted.cur masked.mask masked.zero (lenV (parted.cur.vreg 4)) (parted.cur.vruns 4) (parted.cur.vruns 6) 0))).isOk = false) ∧
    (vecResult false (applySegs (fun x => rounded masked (((f32 x.1.1).mul (f32 x.1.2)).add (f32 x.2)))
      (segments parted.cur masked.mask masked.zero 256 (zipRuns (pairRuns parted.cur 4 4) (fitRuns 0 256 (parted.cur.vruns 3)))
        (parted.cur.vruns 3) 0))).isOk = false ∧
    (vecResult false (applySegs id (segments parted.cur masked.mask false 256 (parted.cur.vruns 4) (parted.cur.vruns 5) 0))).isOk = false :=
  ⟨stands_parted, by decide +kernel⟩

theorem witness_VectorCompareElements_overflow :
    Stands parted ∧ ∀ e ∈ vecCompares 2, (maskResult (applySegs (fun x => e.cond x.1 x.2)
      (segments parted.cur masked.mask masked.zero (lenV (parted.cur.vreg 5)) (pairRuns parted.cur 5 5) (parted.cur.kruns 3) false))).isOk = false :=
  ⟨stands_parted, by decide +kernel⟩

theorem witness_MaskLogicElements_overflow :
    Stands parted ∧
    (∀ e ∈ maskTwos, (maskResult (applySegs (fun x => e.op x.1 x.2)
      (segments parted.cur 1 false 300 (zipRuns (parted.cur.kruns 2) (fitRuns false 300 (parted.cur.kruns 4))) (parted.cur.kruns 3) false))).isOk
        = false) ∧
    (∀ e ∈ maskOnes, (maskResult (applySegs e.op
      (segments parted.cur 1 false 300 (parted.cur.kruns 2) (parted.cur.kruns 3) false))).isOk = false) :=
  ⟨stands_parted, by decide +kernel⟩

theorem witness_MaskConversions_overflow :
    Stands parted ∧ 511 < trueCount (parted.cur.kruns 4) ∧ trueCount (parted.cur.kruns 2) ≤ 511 ∧
      (maskResult (parityRuns ((operand parted.cur 9).getLsbD 0) (parted.cur.kruns 2))).isOk = false ∧ 64 < (operand parted.cur 6).toNat := by
  refine ⟨stands_parted, ?_⟩; decide +kernel

theorem witness_VectorConstruction_overflow :
    Stands parted ∧ 2 ^ 22 < (operand parted.cur 7).toNat ∧ 511 < ((List.range 512).filter (active parted.cur 0)).length ∧
    (operand parted.cur 8).toNat = 512 ∧ (operand parted.cur 5).toNat = 100 ∧ ((List.range 100).filter (active parted.cur 0)).length ≤ 511 ∧
    (vecResult true (applySegs (fun _ => 7) (segments parted.cur 1 false 100 (plainRuns 100) (parted.cur.vruns 3) 0))).isOk = false ∧
    (vecResult true (iotaRuns 7 0 (segments parted.cur 0 false 100 (plainRuns 100) (parted.cur.vruns 3) 0))).isOk = false ∧
    (vecResult false (fitRuns 0 512 (parted.cur.vruns 4))).isOk = false ∧ 2 ^ 22 < lenV (parted.cur.vreg 7) + (operand parted.cur 9).toNat ∧
    (vecResult false (runAppend false (parted.cur.vruns 4) 7 100)).isOk = false ∧ (vecResult true (parted.cur.vruns 6)).isOk = false ∧
    (vecResult false (activeRuns (segments (β := Nat) parted.cur 5 true 256 (parted.cur.vruns 4) [] 0))).isOk = false ∧
    (let segs := segments parted.cur 1 true 128 (plainRuns 128) (parted.cur.vruns 3) 0
     (vecResult false (expRuns ((parted.cur.vruns 4).length + segs.length) (parted.cur.vruns 4) segs)).isOk = false) := by
  refine ⟨stands_parted, ?_⟩; decide +kernel

theorem witness_VectorScans_overflow :
    Stands parted ∧ ∀ e ∈ scans, (vecResult true (scanRuns e.step 7
      (segments parted.cur masked.mask masked.zero (lenV (parted.cur.vreg 4)) (parted.cur.vruns 4) (parted.cur.vruns 3) 0))).isOk = false :=
  ⟨stands_parted, by decide +kernel⟩

/-- The vectors and masks of `runs` have no empty run. -/
theorem witness_canonical : Solid runs.cur := by unfold Solid; decide +kernel

/-- VLD of 8 elements, VLDR of 8 records, VGATH by v1, from LOCAL 0x6_0000; the bytes there are zeros. -/
def loading : State :=
  (vec [(4, 0x6_0000), (5, 8)] [(1, [⟨5, 4⟩, ⟨7, 4⟩]), (3, [⟨9, 8⟩])] [(1, [⟨true, 3⟩, ⟨false, 5⟩])])

theorem witness_VectorLoads :
    Stands loading ∧ (loading.cur.pend.filter (·.isVec)).length < 4 ∧
    (∀ e, e < 8 → PadClear loading (0x6_0000 + e * 2 ^ 2) (2 ^ 2) ∧ NoFailing loading (0x6_0000 + e * 2 ^ 2) (2 ^ 2)) ∧
    (vecResult true (fillElems (segments loading.cur 1 false 8 (plainRuns 8) (loading.cur.vruns 3) 0)
      ((activeIdx 0 (segments loading.cur 1 false 8 (plainRuns 8) (loading.cur.vruns 3) 0)).map fun _ => 0))).isOk = true ∧
    (∀ i, i < 8 → PadClear loading (0x6_0000 + 8 * i) 8 ∧ NoFailing loading (0x6_0000 + 8 * i) 8) ∧
    (∀ q ∈ activeRuns (segments loading.cur 1 false 8 (loading.cur.vruns 1) (loading.cur.vruns 3) 0), q.2 ≠ 0) ∧
    (∀ e, e < 8 → PadClear loading (0x6_0000 + el (loading.cur.vreg 1) e * 2 ^ 2) 4 ∧
      NoFailing loading (0x6_0000 + el (loading.cur.vreg 1) e * 2 ^ 2) 4) ∧
    (vecResult true (fillSegs (segments loading.cur 1 false 8 (loading.cur.vruns 1) (loading.cur.vruns 3) 0)
      ((activeRuns (segments loading.cur 1 false 8 (loading.cur.vruns 1) (loading.cur.vruns 3) 0)).map fun _ => 0))).isOk = true := by
  refine ⟨⟨Nat.zero_lt_succ 95, .inr rfl⟩, ?_, ?_, ?_, ?_, ?_, ?_, ?_⟩ <;> (try unfold PadClear NoFailing) <;> decide +kernel

/-- 65 records; an ea of 0x6_0004. -/
theorem witness_VectorLoads_faults :
    Stands loading ∧ 64 < (operand (Ctx.setS loading.cur 9 65) 9).toNat ∧ (BitVec.ofInt 64 (0x6_0004 + 0)).toNat % 8 ≠ 0 ∧
      (operand loading.cur 0).toNat ≤ 64 ∧ Ext.ord noExt ≠ 2 := by
  unfold Stands; decide +kernel

theorem witness_VectorStores :
    Stands loading ∧ (∀ r ∈ loading.cur.vreg 3, r.len ≠ 0) ∧ (∀ r ∈ loading.cur.vreg 1, r.len ≠ 0) ∧
    (∀ r ∈ vget loading.cur.k 1 [], r.len ≠ 0) ∧
    (∀ w, w < 3 → ∀ e ∈ (List.range (lenV (loading.cur.vreg 3))).filter (active loading.cur 1), PadClear loading (0x6_0000 + e * 2 ^ w) (2 ^ w)) ∧
    (∀ i, i < (loading.cur.vreg 3).length → PadClear loading (0x6_0000 + 8 * i) 8) ∧
    (∀ e ∈ (List.range 8).filter (active loading.cur 1), PadClear loading (0x6_0000 + el (loading.cur.vreg 1) e * 2 ^ 2) 4) := by
  unfold Stands PadClear; decide +kernel

/-! Tiles -/

/-- Live tiles of every tag: t0 a plane of E2M1, t1 ROW, t2 PART, t3 ACC, t4 ROW. -/
def tiled : State :=
  withTiles (ctl [(4, 0x6_0000), (5, 0x100), (6, 0x3F_0000_0100)])
    [(0, tileOf 0 0x29 []), (1, tileOf 1 0x00 [1]), (2, tileOf 2 0x40 [2]), (3, tileOf 3 0x60 [3]), (4, tileOf 4 0x00 [4])]

theorem control_tiled : Control tiled := ⟨Nat.zero_lt_succ 95, rfl⟩

theorem witness_TileCopies : Control tiled ∧ (freePhys tiled.me).isSome = true ∧ ∃ y, tiled.tile 1 = some y ∧ y.bad = [] :=
  ⟨control_tiled, by decide +kernel, _, rfl, rfl⟩

/-- ROW for every format, ACC for .f32, PART for .i32. -/
theorem witness_TileElementResults :
    Control tiled ∧ (freePhys tiled.me).isSome = true ∧ (tiled.tile 1).map (·.tag) = some 0x00 ∧ (tiled.tile 4).map (·.tag) = some 0x00 ∧
      (tiled.tile 2).map (·.tag) = some 0x40 ∧ (tiled.tile 3).map (·.tag) = some 0x60 ∧ elemTagOk 0 0x00 ∧ elemTagOk 8 0x60 ∧ elemTagOk 4 0x40 ∧
      15 < 16 := by
  refine ⟨control_tiled, ?_⟩; unfold elemTagOk; decide +kernel

/-- The two halves of a .f32 tile's 64 elements in 128 of .b16; the squares of a row of 256 bytes; the last slot of a plane. -/
theorem witness_TileUnaryResults :
    Control tiled ∧ (freePhys tiled.me).isSome = true ∧ (tiled.tile 5 = none) ∧ (tiled.tile 1).map (fun y => (y.tag, y.bad)) = some (0x00, []) ∧
      (tiled.tile 3).map (fun y => (y.tag, y.bad)) = some (0x60, []) ∧
      (1 + 1) * min (Machine.rowCap (tileWidth 8)) (Machine.rowCap (tileWidth 6)) ≤ max (Machine.rowCap (tileWidth 8)) (Machine.rowCap (tileWidth 6)) ∧
      (3 + 1) * 64 ≤ Machine.rowCap (tileWidth 0) ∧ (∀ pf, pf < 9 → (0 + 1) * planeSlot pf ≤ Machine.rowCap (Machine.planeWidth pf)) := by
  refine ⟨control_tiled, ?_⟩; decide +kernel

theorem witness_TileVectorExchange :
    Control tiled ∧ (∀ i, i ∈ [1, 2, 3] → (tiled.tile i).any (fun y => y.bad == [] && (y.tag == 0x00 || y.tag == 0x40 || y.tag == 0x60)) = true) ∧
      (freePhys tiled.me).isSome = true := by
  refine ⟨control_tiled, ?_⟩; decide +kernel

theorem witness_MatrixResults :
    Control tiled ∧ (freePhys tiled.me).isSome = true ∧ (tiled.tile 0).map (·.tag) = some (tagPlane (planeSpec 4).1 (planeSpec 4).2) ∧
      (∃ x, tiled.tile 2 = some x ∧ x.tag = 0x40 ∧ x.bad = []) ∧ Live tiled 3 (· = 0x60) ∧ (tiled.tile 1).map (·.tag) = some 0x00 :=
  ⟨control_tiled, by decide +kernel, by decide +kernel, ⟨_, rfl, rfl, rfl⟩, ⟨_, rfl, rfl, rfl⟩, by decide +kernel⟩

/-- A window of one row at the top of LOCAL bank 3; the last row alone. -/
theorem witness_TileLoadsAndStores :
    Control tiled ∧ (freePhys tiled.me).isSome = true ∧ (tiled.tile 5 = none) ∧ (tiled.tile 1).map (·.bad) = some [] ∧ noExt.ord ≠ 2 ∧
      strideOf tiled.cur 5 = 256 ∧ row0Of tiled.cur 5 + nrowOf tiled.cur 5 = 1 ∧
      row0Of tiled.cur 6 + nrowOf tiled.cur 6 = 64 ∧ strideOf tiled.cur 0 = 256 ∧ row0Of tiled.cur 0 + nrowOf tiled.cur 0 = 64 ∧
      (∀ i, i < 256 → PadClear tiled (0x6_0000 + i) 1 ∧ NoFailing tiled (0x6_0000 + i) 1) := by
  refine ⟨control_tiled, by decide +kernel, by decide +kernel, by decide +kernel, by decide, by decide +kernel, by decide +kernel, by decide +kernel,
    by decide +kernel, by decide +kernel, ?_⟩
  unfold PadClear NoFailing; decide +kernel

/-- h0 with tiles beside it; the same tiles, with t5 dead; a core without a TILE bank. -/
def tileless : State := tiled.setCore 0 { tiled.core 0 with banks := Vector.replicate 16 (Bank.init 1 0) }

theorem live_of {s : State} {i : Nat} {ok : BitVec 7 → Prop} {tag : BitVec 7} (h : (s.tile i).map (fun y => (y.tag, y.bad)) = some (tag, []))
    (k : ok tag) : Live s i ok := by
  obtain ⟨y, e, w⟩ := Option.map_eq_some_iff.1 h
  simp only [Prod.mk.injEq] at w
  exact ⟨y, e, w.1 ▸ k, w.2⟩

theorem oldFine_of {s : State} {d : Nat} (h : s.tile d = none) : OldFine s d := by simp [OldFine, h]

theorem witness_TileInstructionFaults :
    ((helper []).curCore < 96 ∧ (helper []).curSlot < 10) ∧ (tiled.curCore < 96 ∧ tiled.curSlot = 15) ∧
    (let uses := tileUses tiled 3 5 1 4 false false false (fun _ => 0) noExt
     uses.all (fun e => e.srcs.all fun q => q.tile == 5 || q.tile == 1 || q.tile == 3 || q.tile == 4) = true ∧ uses.length = 17) ∧
    tiled.tile 5 = none ∧ (tiled.tile 0).map (·.tag) = some 0x29 ∧ ¬ elemTagOk 8 0x29 ∧
    Live tiled 1 (· = 0x00) ∧ Live tiled 2 (· = 0x40) ∧ Live tiled 3 (· = 0x60) := by
  refine ⟨by decide, by decide, by decide +kernel, by decide +kernel, by decide +kernel, by unfold elemTagOk; decide,
    live_of (by decide +kernel) rfl, live_of (by decide +kernel) rfl, live_of (by decide +kernel) rfl⟩

theorem witness_TileInstructionFaults_waits :
    (freePhys tileless.me = none ∧ tileless.curCore < 96 ∧ tileless.curSlot = 15) ∧ OldFine tileless 5 ∧
      Live tileless 1 (· = 0x00) ∧ Live tileless 2 (· = 0x40) ∧ Live tileless 3 (· = 0x60) ∧ Live tileless 0 (· = tagPlane 4 true) :=
  ⟨by decide +kernel, oldFine_of (by decide +kernel), live_of (tag := 0) (by decide +kernel) rfl, live_of (tag := 0x40) (by decide +kernel) rfl,
    live_of (tag := 0x60) (by decide +kernel) rfl, live_of (tag := 0x29) (by decide +kernel) (by decide)⟩

/-- A window past row 63; one within; a misaligned address and stride; a TLD that waits for a physical tile. -/
theorem witness_TileInstructionFaults_windows :
    (let y := settleRows tiled 0 0 0x6_0000 ⟨strideOf tiled.cur 6, row0Of tiled.cur 6, nrowOf tiled.cur 6⟩
     y.cur = tiled.cur ∧ y.curCore = tiled.curCore ∧ row0Of tiled.cur 6 + nrowOf tiled.cur 6 ≤ 64 ∧ y.tile 5 = none ∧
       (y.tile 1).isSome = true ∧ (y.tile 5).isSome = (tiled.tile 5).isSome) ∧
    (let s := ctl [(1, 0x13F_0000_0100), (2, 0x0_0000_0101)]
     64 < row0Of s.cur 1 + nrowOf s.cur 1 ∧ strideOf s.cur 2 % 8 ≠ 0 ∧ row0Of s.cur 2 + nrowOf s.cur 2 ≤ 64 ∧
       (0x6_0004 : Word).toNat % 8 ≠ 0) ∧
    (let y := settleRows tileless 0 0 0x6_0000 ⟨strideOf tileless.cur 6, row0Of tileless.cur 6, nrowOf tileless.cur 6⟩
     tileCheck 0 0 1 0x6_0000 ⟨strideOf tileless.cur 6, row0Of tileless.cur 6, nrowOf tileless.cur 6⟩ y = none ∧ freePhys y.me = none ∧
       y.cur = tileless.cur ∧ y.curCore = tileless.curCore ∧ y.tile 5 = none ∧ tileless.tile 5 = none) := by
  decide +kernel

/-- A run-vector load of one element answers what its one access reads. -/
theorem vload_one {s t u : State} {sp cs lg : Nat} {a : Word} {bs : List Byte}
    (h : checkAll sp cs lg 1 [a] (settleAll s sp cs [a]) = (none, t)) (g : loadPiece t t.who .vmem sp cs a (2 ^ lg) = .ok bs u)
    (f : List Nat → State → Out) : vload s sp cs lg [a] f = f [bytesToNat bs] u := by
  simp only [vload, h, Out.first, List.findSome?, id, loadElems, Res.run, g, List.reverse_cons, List.reverse_nil, List.nil_append]

/-- A run-vector store of one element sends its pieces. -/
theorem vstore_one {s t y u : State} {sp cs lg v : Nat} {a : Word} {ps : List Piece}
    (h : checkAll sp cs lg 2 [a] (settleAll s sp cs [a]) = (none, t))
    (p : storePieces t t.who .vmem sp cs a 2 0 (natToBytes (2 ^ lg) v) = (.ok ps, y))
    (g : sendPieces y y.who (y.ctxid y.curCore y.curSlot) y.cur.pc sp ps = .ok () u) (f : State → Out) :
    vstore s sp cs lg [(a, v)] f = f u := by
  simp only [vstore, List.map_cons, List.map_nil, h, Out.first, List.findSome?, id, storeElems, p, List.append_nil, List.reverse_reverse,
    Res.run, g]

/-- A tile access of one row of GLOBAL reads that row. -/
theorem readWindow_one {s t u : State} {cs : Nat} {ea : Word} {w : Window} {a : Word} {bs : List Byte}
    (h : atFifo s 2 cs (rowAddr ea w w.row0) = false) (l : w.list.map (rowAddr ea w) = [a])
    (c : checkBlocks ([a].flatMap fun a => piecesAt 2 cs 40 256 a) false s = (none, t))
    (g : loadRange t t.who (.tile false) 2 cs a 40 256 = .ok bs u) (f : List (List Byte) → State → Out) :
    readWindow s 2 cs ea w f = f [bs] u := by
  simp only [readWindow, h, l, if_true, c, loadRows, Res.run, g, Bool.false_eq_true, if_false, List.reverse_cons, List.reverse_nil,
    List.nil_append]

/-- A tile access of one row sends that row's pieces. -/
theorem writeWindow_one {s y u : State} {sp cs r : Nat} {ea : Word} {w : Window} {rows : Vector Row 64} {ps : List Piece}
    (h : atFifo s sp cs (rowAddr ea w w.row0) = false) (l : w.list = [r])
    (p : storePieces s s.who (.tile false) sp cs (rowAddr ea w r) 40 0 (rowBytes (rows[r]?.getD 0)) = (.ok ps, y))
    (g : sendPieces y y.who (y.ctxid y.curCore y.curSlot) y.cur.pc sp (mergeBlocks ps) = .ok () u) (f : State → Out) :
    writeWindow s sp cs ea w rows f = f u := by
  simp only [writeWindow, h, l, List.map_cons, List.map_nil, storeRows, p, List.append_nil, List.reverse_reverse, Res.run, g,
    Bool.false_eq_true, if_false]

/-- VLD and VST of element 0, and TLD and TST of row 0, of GLOBAL 0x1000. -/
@[irreducible] def far : State := { withTiles (mapped [(4, 0x1000), (5, 1)]) [(1, tileOf 1 0x00 [1])] with tick := 1 }
@[irreducible] def farChecked (acc : Nat) : State := (checkAll 2 0 2 acc [0x1000] (settleAll far 2 0 [0x1000])).2
@[irreducible] def piecesOf (r : Except MemFault (List Piece) × State) : List Piece :=
  match r.1 with
  | .ok p => p
  | .error _ => []
theorem pieces_ok {r : Except MemFault (List Piece) × State} (h : r.1.isOk = true) : r = (.ok (piecesOf r), r.2) := by
  obtain ⟨x, y⟩ := r
  cases x <;> simp_all [piecesOf, Except.isOk, Except.toBool]

theorem checked_far (acc : Nat) (h : (checkAll 2 0 2 acc [0x1000] (settleAll far 2 0 [0x1000])).1 = none) :
    checkAll 2 0 2 acc [0x1000] (settleAll far 2 0 [0x1000]) = (none, farChecked acc) := by
  unfold farChecked; exact Prod.ext h rfl

theorem stands_far : Stands far := by unfold Stands; decide +kernel

theorem witness_VectorLoads_far :
    ((operand far.cur 5).toNat = 1 ∧ (List.range 1).filter (active far.cur 0) = [0] ∧
      okVal (settleWait far far.who 0) = some () ∧ (okSt (settleWait far far.who 0)).cur = far.cur) ∧
    Stands far ∧ ∃ u, (∀ f, vload far 2 0 2 [0x1000] f = f [0] u) ∧ Stands u ∧ u.cur = far.cur := by
  have g : okVal (loadPiece (farChecked 1) (farChecked 1).who .vmem 2 0 0x1000 (2 ^ 2)) = some (List.replicate 4 0) := by decide +kernel
  have h := checked_far 1 (by decide +kernel)
  refine ⟨by decide +kernel, stands_far, _, vload_one h (ok_of_val g), ?_⟩
  unfold Stands; decide +kernel

/-- The pieces of the store, and their leaving the core. -/
@[irreducible] def farStored : Except MemFault (List Piece) × State :=
  storePieces (farChecked 2) (farChecked 2).who .vmem 2 0 0x1000 2 0 (natToBytes (2 ^ 2) 7)
theorem farStored_ok : storePieces (farChecked 2) (farChecked 2).who .vmem 2 0 0x1000 2 0 (natToBytes (2 ^ 2) 7) =
    (.ok (piecesOf farStored), farStored.2) := by
  have a : farStored.1.isOk = true := by decide +kernel
  have e : storePieces (farChecked 2) (farChecked 2).who .vmem 2 0 0x1000 2 0 (natToBytes (2 ^ 2) 7) = farStored := by unfold farStored; rfl
  exact e.trans (pieces_ok a)
@[irreducible] def sentOf (y : State) (ps : List Piece) : Res Unit := sendPieces y y.who (y.ctxid y.curCore y.curSlot) y.cur.pc 2 ps
theorem sentOf_ok {y : State} {ps : List Piece} (h : okVal (sentOf y ps) = some ()) :
    sendPieces y y.who (y.ctxid y.curCore y.curSlot) y.cur.pc 2 ps = .ok () (okSt (sentOf y ps)) := by
  have e : sendPieces y y.who (y.ctxid y.curCore y.curSlot) y.cur.pc 2 ps = sentOf y ps := by unfold sentOf; rfl
  exact e.trans (ok_of_val h)

theorem witness_VectorStores_far :
    Stands far ∧ okVal (settleWait far far.who 0) = some () ∧ ∃ u, (∀ f, vstore far 2 0 2 [(0x1000, 7)] f = f u) ∧ Stands u := by
  have h := checked_far 2 (by decide +kernel)
  have g := sentOf_ok (y := farStored.2) (ps := piecesOf farStored) (by decide +kernel)
  refine ⟨stands_far, by decide +kernel, _, vstore_one h farStored_ok g, ?_⟩
  unfold Stands; decide +kernel

/-- The window of row 0 alone, and its row's load and store. -/
def farRow : Window := ⟨256, 0, 1⟩
@[irreducible] def farBase : State := settleRows (far.setCur { far.cur with s := far.cur.s.setIfInBounds 5 256 }) 2 0 0x1000 farRow
@[irreducible] def farRead : State := (checkBlocks ([0x1000].flatMap fun a => piecesAt 2 0 40 256 a) false farBase).2
@[irreducible] def farRowStored : Except MemFault (List Piece) × State :=
  storePieces farBase farBase.who (.tile false) 2 0 (rowAddr 0x1000 farRow 0) 40 0 (rowBytes ((farBase.rows 1)[0]?.getD 0))
theorem farRowStored_ok :
    storePieces farBase farBase.who (.tile false) 2 0 (rowAddr 0x1000 farRow 0) 40 0 (rowBytes ((farBase.rows 1)[0]?.getD 0)) =
      (.ok (piecesOf farRowStored), farRowStored.2) := by
  have a : farRowStored.1.isOk = true := by decide +kernel
  have e : storePieces farBase farBase.who (.tile false) 2 0 (rowAddr 0x1000 farRow 0) 40 0 (rowBytes ((farBase.rows 1)[0]?.getD 0)) =
      farRowStored := by unfold farRowStored; rfl
  exact e.trans (pieces_ok a)

theorem witness_TileLoadsAndStores_far :
    (Control farBase ∧ strideOf farBase.cur 5 = 256 ∧ row0Of farBase.cur 5 = 0 ∧ nrowOf farBase.cur 5 = 1 ∧
      (freePhys farBase.me).isSome = true ∧ farBase.tile 5 = none ∧ (farBase.tile 1).map (·.bad) = some [] ∧
      tileCheck 2 0 1 0x1000 farRow farBase = none ∧ tileCheck 2 0 2 0x1000 farRow farBase = none ∧
      okVal (settleWait farBase farBase.who 0) = some ()) ∧
    (∃ u, (∀ f, readWindow farBase 2 0 0x1000 farRow f = f [List.replicate 256 0] u) ∧ (freePhys u.me).isSome = true ∧ Control u) ∧
    ∃ u, (∀ f, writeWindow farBase 2 0 0x1000 farRow (farBase.rows 1) f = f u) ∧ Control u := by
  have ⟨c1, l, l0, n, g⟩ : (checkBlocks ([0x1000].flatMap fun a => piecesAt 2 0 40 256 a) false farBase).1 = none ∧
      farRow.list.map (rowAddr 0x1000 farRow) = [0x1000] ∧ farRow.list = [0] ∧
      atFifo farBase 2 0 (rowAddr 0x1000 farRow farRow.row0) = false ∧
      okVal (loadRange farRead farRead.who (.tile false) 2 0 0x1000 40 256) = some (List.replicate 256 0) := by decide +kernel
  have c : checkBlocks ([0x1000].flatMap fun a => piecesAt 2 0 40 256 a) false farBase = (none, farRead) := by
    unfold farRead; exact Prod.ext c1 rfl
  have w := sentOf_ok (y := farRowStored.2) (ps := mergeBlocks (piecesOf farRowStored)) (by decide +kernel)
  refine ⟨?_, ⟨_, readWindow_one n l c (ok_of_val g), ?_⟩, _, writeWindow_one n l0 farRowStored_ok w, ?_⟩ <;> (unfold Control; decide +kernel)

/-- Executed when g3 is true, and it is false; and the other way round. -/
theorem witness_FalseGuardsDiscard :
    let x : Ext := { noExt with g := true, gslot := 3, ginv := false }
    x.g = true ∧ (ctl []).cur.guard x.gslot = x.ginv ∧ Stands (ctl []) ∧ Control (ctl []) ∧ Admits (ctl []) 2 ∧ (ctl []).curSlot = 15 := by
  unfold Stands Control Admits; decide +kernel

/-! Commands, waits and work -/

/-- Registers of a copy: 64 bytes from LOCAL bank 3 to bank 4, with a cell in bank 5. -/
def copying : State := ctl [(5, 64), (6, 0x6_0000), (7, 0x8_0000), (8, 0xA_0000), (9, 2 ^ 26)]

theorem witness_CommandsAreSent :
    Stands copying ∧ (∀ scope, scope ≤ 4 → ∃ u, settleScope copying copying.curCore scope = .ok () u ∧ Stands u ∧ u.cur = copying.cur) ∧
      goodRange 0 (operand copying.cur 6) 64 8 ∧ goodRange 0 (operand copying.cur 7) 64 8 ∧ goodRange 0 (operand copying.cur 8) 8 8 ∧
      cellInside copying.curCore 0 0 0 0 (operand copying.cur 8) (operand copying.cur 7) 64 = false ∧ goodRange 0 (operand copying.cur 6) 64 64 ∧
      (operand copying.cur 9).toNat ≤ 2 ^ 26 ∧ 64 % (copying.me.gx * copying.me.gy) = 0 ∧ 0 < copying.me.gx * copying.me.gy ∧
      goodRange 2 (0x1000 : Word) (4 * 2 ^ 26) 4 := by
  refine ⟨⟨Nat.zero_lt_succ 95, .inr rfl⟩, ?_, ?_⟩
  · intro scope h
    have h1 : ∀ scope, scope ≤ 4 → okVal (settleScope copying copying.curCore scope) = some () := by decide +kernel
    have h2 : ∀ scope, scope ≤ 4 → (okSt (settleScope copying copying.curCore scope)).curCore < 96 ∧
        (okSt (settleScope copying copying.curCore scope)).curSlot = 15 ∧ (okSt (settleScope copying copying.curCore scope)).cur = copying.cur := by
      decide +kernel
    exact ⟨_, ok_of_val (h1 scope h), ⟨(h2 scope h).1, .inr (h2 scope h).2.1⟩, (h2 scope h).2.2⟩
  · refine ⟨?_, ?_, ?_, ?_, ?_, ?_, ?_, ?_, ?_⟩ <;> (try unfold goodRange inSpace) <;> decide +kernel

/-- Both boxes up, for a COLL with SPAN. -/
theorem witness_CommandsAreSent_span : State.tandemUp { copying with ready := 0x40 } = true := by decide +kernel

/-- A counter at DONE 3 with a fault latched at 3, and one without. -/
def counted : State :=
  let s := mapped [(4, 3), (5, 2), (6, 4), (7, 0x1000)]
  s.setMe { s.me with tcs := (s.me.tcs.setIfInBounds 1 ⟨5, 3, none⟩).setIfInBounds 2 ⟨5, 3, some ⟨3, 0x08, 5, 0⟩⟩,
                      mfull := s.me.mfull.setIfInBounds 3 true }

theorem witness_WaitsCompleteOrWait :
    Stands counted ∧
    ((operand counted.cur 4).toNat ≤ (vget counted.me.tcs 1 ⟨0, 0, none⟩).done.toNat ∧ (vget counted.me.tcs 1 ⟨0, 0, none⟩).latch = none) ∧
    ((operand counted.cur 5).toNat ≤ 3 ∧ (vget counted.me.tcs 2 ⟨0, 0, none⟩).latch = some ⟨3, 0x08, 5, 0⟩ ∧ (operand counted.cur 5).toNat < 3) ∧
    ((operand counted.cur 4).toNat = 3) ∧
    (let s := counted.setCur { counted.cur with wait := .joined (operand counted.cur 7) }
     s.cur.wait = .joined (operand s.cur 7) ∧ Stands (drainDies s) ∧ (drainDies s).cur = s.cur ∧
       counted.cur.wait ≠ .joined (operand counted.cur 7)) ∧
    (State.cur (counted.setCur { counted.cur with given := some 9 })).given = some 9 ∧
    (counted.cur.given = none ∧ vget counted.me.mfull 3 false = true ∧ vget counted.me.mfull 4 false = false) ∧
    groupStopped counted counted.me.pid counted.cur.group = false ∧
    ((vget counted.me.tcs 1 ⟨0, 0, none⟩).done.toNat < (operand counted.cur 6).toNat) := by
  unfold Stands; decide +kernel

/-- JOIN of a cell that reads zero, and of one that reads 1. -/
theorem witness_WaitsCompleteOrWait_join :
    (operand counted.cur 7).toNat % 8 = 0 ∧ inSpace 2 (operand counted.cur 7) ∧ inSpace 2 (operand counted.cur 7 + 7) ∧
    okVal (readCell counted counted.who 0x1000) = some 0 ∧ (okSt (readCell counted counted.who 0x1000)).curCore = 0 ∧
    (okSt (readCell counted counted.who 0x1000)).cur = counted.cur ∧
    okVal (readCell { counted with phys := memSet counted.phys 0x1000 1 } counted.who 0x1000) = some 1 := by
  unfold inSpace; decide +kernel

/-- A control context whose PID maps virtual core 1 to core 9, with targets and cells. -/
def working : State :=
  let s := mapped [(1, 0x2000), (2, 1), (3, 2 ^ 63), (4, 0x6_0000), (7, 0x1000)]
  s.setMe { s.me with map := s.me.map.setIfInBounds 1 (2 ^ 11 + 9) }

theorem witness_WorkInstructionsComplete :
    Stands working ∧ goodTarget (operand working.cur 1) ∧
    (okVal (settleScope working working.curCore 4) = some () ∧ groupAlive working working.me.pid working.cur.group = true ∧
      working.tandemUp = false ∧ working.reins.contains (working.me.pid, working.cur.group) = false) ∧
    (∀ l ∈ working.me.launchQ, l.pid = working.me.pid → l.vcore = working.me.ctl.vcore) ∧
    working.me.deque.length < 32 ∧ groupStopped working working.me.pid working.cur.group = false ∧ working.curSlot = 15 ∧
    working.cur.cell = 0 ∧ working.cur.stall = none := by
  unfold Stands goodTarget; decide +kernel

/-- MSEND to virtual core 1, with and without a payload, and to the peer. -/
theorem witness_WorkInstructionsComplete_msend :
    Payload working 0 0 (List.replicate 40 0) working ∧ PayloadOk working 4 1 ∧
    (goodRange 0 (working.cur.sreg 4) 44 8 ∧ (meetsFifo working (working.cur.sreg 4) 44).isNone = true ∧
      okVal (loadRange working working.who .scalar 0 0 (working.cur.sreg 4) 44 44) = some (List.replicate 44 0)) ∧
    ((operand working.cur 2).toNat / 2 ^ 8 = 0 ∧ working.me.pcoreOf ((operand working.cur 2).toNat % 256) = some 9 ∧
      okVal (settleScope working working.curCore (scopeOfCores 0 9)) = some ()) ∧
    ((operand working.cur 3).toNat / 2 ^ 8 = 2 ^ 55 ∧ State.tandemUp { working with ready := 0x40 } = true) ∧
    (let s := working.setBank 0 3 { Bank.init 3 0 with esize := 3, count := 1 }
     fifoEntry s (s.cur.sreg 4) 64 = true ∧ okVal (loadPiece s s.who .scalar 0 0 (s.cur.sreg 4) 64) = some (List.replicate 64 0)) := by
  refine ⟨⟨rfl, rfl, rfl, rfl⟩, ?_⟩; unfold PayloadOk goodRange inSpace; decide +kernel

/-- The payload is read in the state that the release leaves. -/
theorem witness_WorkInstructionsComplete_payload :
    let u := okSt (settleScope working working.curCore (scopeOfCores 0 9))
    u.cur = working.cur ∧ fifoEntry u (u.cur.sreg 4) 44 = false ∧
      okVal (loadRange u u.who .scalar 0 0 (u.cur.sreg 4) 44 44) = some (List.replicate 44 0) ∧
      Stands (okSt (loadRange u u.who .scalar 0 0 (u.cur.sreg 4) 44 44)) ∧
      (okSt (loadRange u u.who .scalar 0 0 (u.cur.sreg 4) 44 44)).cur = working.cur ∧
      (okSt (loadRange u u.who .scalar 0 0 (u.cur.sreg 4) 44 44)).me.pid = working.me.pid := by
  unfold Stands; decide +kernel

/-- FORK with a join cell, and EXIT with a cell. -/
theorem witness_WorkInstructionsComplete_cells :
    check6 working working.who .atomic 2 0 0x1000 8 3 3 = none ∧
    okVal (atomicAt working working.who 2 0 0x1000 8 fun old => some ((old + 1) % 2 ^ 64)) = some 0 ∧
    (okSt (atomicAt working working.who 2 0 0x1000 8 fun old => some ((old + 1) % 2 ^ 64))).cur = working.cur ∧
    (State.cur (working.setCur { working.cur with cell := 0x1000 })).cell ≠ 0 := by decide +kernel

/-! System registers, traps, banks -/

/-- Privileged by descent; as h9; in its handler. -/
theorem witness_SystemRegisterReads :
    Stands (sys [(1, 127), (2, 255)]) ∧ Privileged (sys []) ∧ (∃ e ∈ sysReads, e.sel ≤ 8) ∧ (sys []).me.resident = false ∧
      (State.me (State.setMe (sys []) { (sys []).me with resident := true })).resident = true ∧ (sys []).me.gx ≤ 256 ∧ (sys []).me.gy ≤ 256 ∧
      (sys []).cur.vcore < (sys []).me.gx * (sys []).me.gy ∧ (operand (sys [(2, 255)]).cur 2).toNat < 256 ∧
      (operand (sys [(1, 127)]).cur 1).toNat < 128 :=
  ⟨⟨Nat.zero_lt_succ 95, .inr rfl⟩, .inr (.inr rfl), ⟨_, .head _, by decide⟩, by decide +kernel, by decide +kernel, by decide +kernel,
    by decide +kernel, by decide +kernel,
    by decide +kernel, by decide +kernel⟩

/-- Entry 127 of BANKMAP, after its bank has settled. -/
theorem witness_SystemRegisterReads_bankmap :
    (settleBankmap (sys []) 127).curCore = 0 ∧ (settleBankmap (sys []) 127).curSlot = 15 ∧ (settleBankmap (sys []) 127).cur = (sys []).cur ∧
      (let b := (settleBankmap (sys []) 127).bank 7 15
       b.mode < 8 ∧ b.esize < 4 ∧ b.head < 2 ^ 14 ∧ b.tail < 2 ^ 14 ∧ b.count < 2 ^ 15) := by decide +kernel

theorem within_zero (bits : Nat) : within 0 bits := by intro i _ h; simp at h

theorem witness_SystemRegisterWrites :
    Stands (sys [(1, 800)]) ∧ Privileged (sys [(1, 800)]) ∧
      (∀ e ∈ sysWrites, within 0 e.bits ∧ Stands (e.upd (readsA (sys []) 1) 0)) ∧
      within 0 0x80FF_FFFF_FFFF_0000 ∧ Stands (xinv (readsA (sys []) 1) 0) ∧ (((sys [(3, 255)]).cur.sreg 3).toNat < 256) ∧
      within 800 0x0000_030F_0000_FFFF ∧ 450 ≤ 800 ∧ 800 % 5 = 0 := by
  refine ⟨⟨Nat.zero_lt_succ 95, .inr rfl⟩, .inr (.inr rfl), fun e he => ⟨within_zero _, ?_⟩, within_zero _, ?_, by decide +kernel, ?_, by decide, by decide⟩
  · have h : ∀ e ∈ sysWrites, (e.upd (readsA (sys []) 1) 0).curCore < 96 ∧ (e.upd (readsA (sys []) 1) 0).curSlot = 15 := by decide +kernel
    exact ⟨(h e he).1, .inr (h e he).2⟩
  · have h : (xinv (readsA (sys []) 1) 0).curCore < 96 ∧ (xinv (readsA (sys []) 1) 0).curSlot = 15 := by decide +kernel
    exact ⟨h.1, .inr h.2⟩
  · unfold within; decide +kernel

/-- At user level; privileged with a reserved bit set; indices just past the arrays; not h9; no handler. -/
theorem witness_PrivilegeFaults :
    (Stands (ctl []) ∧ ¬ Privileged (ctl []) ∧ 8 < 9) ∧ Privileged (sys []) ∧
      (∃ e ∈ sysWrites, ¬ within 0x100 e.bits) ∧ 256 ≤ (operand (sys [(1, 256)]).cur 1).toNat ∧
      128 ≤ (operand (ctl [(1, 128)]).cur 1).toNat ∧ (ctl []).curSlot ≠ 9 ∧ (ctl []).cur.tv = none ∧ (ctl []).cur.inHandler = false := by
  refine ⟨⟨stands_ctl _, ?_, by decide⟩, .inr (.inr rfl), ⟨_, .head _, ?_⟩, by decide +kernel, by decide +kernel, by decide, rfl, rfl⟩
  · unfold Privileged; decide +kernel
  · unfold within; decide +kernel

/-- A context of a PID with a handler; the same in its handler; and one of a PID without. -/
theorem witness_TrapsEnterAndReturn :
    HasHandler (caught (ctl [])) ∧ (caught (ctl [])).cur.tv = none ∧ (Trap.plain 0x20 5).unit = none ∧ (Trap.plain 0x20 5).code ≠ 0 ∧
      (let s := next (exec (.trap 5) (caught (ctl [])))
       s.cur.inHandler = true ∧ s.cur.tv = none ∧ okVal (settleScope s s.curCore 2) = some () ∧
         (okSt (settleScope s s.curCore 2)).cur = s.cur ∧ (okSt (settleScope s s.curCore 2)).me.preempt = none) ∧
      (¬ HasHandler (ctl []) ∧ (ctl []).curSlot ≠ 9 ∧ (ctl []).cur.cell = 0 ∧ (ctl []).cur.stall = none ∧ (ctl []).me.posted = [] ∧
        (ctl []).flights = [] ∧ (ctl []).tandemUp = false ∧ (ctl []).fltRing.getLsbD 63 = false) := by
  unfold HasHandler; decide +kernel

/-- BANKCFG of bank 5 to TILE. -/
theorem witness_BanksDirectoryAndMarks_bank :
    let s := ctl [(4, 5)]
    let u := settleBank (settleHomeBanks s 0) 0 0 5
    Stands s ∧ u.cur = s.cur ∧ u.curCore = s.curCore ∧ (∀ t ∈ bankcfgTraps u 0 5 4, t = none) ∧
      okVal (settleScope u u.curCore 1) = some () ∧ (okSt (settleScope u u.curCore 1)).cur = s.cur := by
  unfold Stands; decide +kernel

/-- h9 of core 0 handling a COLLECT request for a line that the L2 holds, for one it does not hold, and no request. -/
def handling (r : Option DirReq) : State :=
  let s : State := { State.reset.setCtx 0 9 (ctxWith [(4, 0x0101)]) with curSlot := 9, l2 := #v[[hitLine], []] }
  s.setMe { s.me with dirReq := r }

theorem witness_BanksDirectoryAndMarks_request :
    Stands (handling none) ∧ (handling none).curSlot = 9 ∧ (handling none).me.dirReq = none ∧
      (handling (some ⟨1, 0, 0, 0, 0, 2⟩)).me.dirReq = some ⟨1, 0, 0, 0, 0, 2⟩ ∧
      ((handling (some ⟨1, 0, 0, 0, 0, 2⟩)).l2Of 0).find? (fun x => x.pid == 0 && x.vln == 2) = some hitLine ∧
      ((handling (some ⟨1, 0, 0, 0, 0, 3⟩)).l2Of 0).find? (fun x => x.pid == 0 && x.vln == 3) = none ∧
      (operand (handling none).cur 4).toNat < 2 ^ 16 ∧
      (dirAnswer (readsA (handling (some ⟨1, 0, 0, 0, 0, 2⟩)) 4) 0 0x0101).curSlot = 9 := by
  unfold Stands; decide +kernel

/-- MARK with no ring, and with one at 0. -/
theorem witness_BanksDirectoryAndMarks_mark :
    let ringed : State := (ctl []).setMe { (ctl []).me with stampBase := 0x8000_0000_0000_0000 }
    Admits (ctl []) 2 ∧ Stands (ctl []) ∧ (ctl []).tickWait = 0 ∧ (ctl []).me.stampBase.getLsbD 63 = false ∧
      ringed.me.stampBase.getLsbD 63 = true ∧
      (let u := flushStamps (ringed.setMe { ringed.me with stamps := ringed.me.stamps ++ [.words (2 ^ 56) (ctxidOf ringed) 0 0] }) 0
       Stands u ∧ u.cur = ringed.cur ∧ u.openCount = ringed.openCount ∧ u.tickWait = 0) := by
  unfold Stands Admits; decide +kernel

/-- A context with a DONE cell in HBM, of a PID without a handler. -/
def ending : State := (mapped []).setCur { (mapped []).cur with cell := 0x1000, cellDone := true }

/-- The translation that an access finds. -/
def found (r : Except MemFault Trans × State) : Trans := r.1.toOption.getD ⟨0, 0, 0⟩

theorem found_ok {r : Except MemFault Trans × State} (h : r.1.isOk = true) : r = (.ok (found r), r.2) := by
  obtain ⟨x, y⟩ := r
  cases x <;> simp_all [found, Except.isOk, Except.toBool, Except.toOption]

/-- Its writes performed before the decrement. -/
def ended : State := okSt (released ending 0 [15] 4)

theorem witness_TrapsEnterAndReturn_cell : ¬ HasHandler ending ∧ ending.curSlot ≠ 9 ∧ ∃ u, CellLowered ending u := by
  have ⟨n, k, c, r, a, h, e⟩ : ¬ ending.cur.cell = 0 ∧
      check6 ended ⟨0, 16, 0⟩ .atomic 2 0 0x1000 8 3 3 = none ∧ ending.cur.cell = 0x1000 ∧ okVal (released ending 0 [15] 4) = some () ∧
      (resolve ended ⟨0, 16, 0⟩ .atomic .atomic (va48 0x1000) 8).1.isOk = true ∧
      (let r := resolve ended ⟨0, 16, 0⟩ .atomic .atomic (va48 0x1000) 8
       okVal (hbmAtomic r.2 0 0 (va48 0x1000) 8 (found r) false fun old => some ((old + 2 ^ 64 - 1) % 2 ^ 64)) = some 0) ∧
      (ending.curCore = 0 ∧ ending.curSlot = 15 ∧ ending.me.pid = 0 ∧ ending.cur.cellDone = true) := by decide +kernel
  refine ⟨by unfold HasHandler; decide +kernel, by decide +kernel, okSt (hbmAtomic (resolve ended ⟨0, 16, 0⟩ .atomic .atomic (va48 0x1000) 8).2 0 0
    (va48 0x1000) 8 (found (resolve ended ⟨0, 16, 0⟩ .atomic .atomic (va48 0x1000) 8)) false fun old => some ((old + 2 ^ 64 - 1) % 2 ^ 64)), ?_⟩
  unfold CellLowered
  simp only [c, e.1, e.2.1, e.2.2.1, e.2.2.2, if_true]
  exact .inl ⟨_, ok_of_val r, k, _, _, _, found_ok a, ok_of_val h⟩

/-- The same store, before the decrement of a DONE cell. -/
def fencingCell : State := fencing.setCur { fencing.cur with cell := 0x1000, cellDone := true }

/-- Contexts without a handler whose release is done, and whose older store waits on a full queue: with and without a DONE cell. -/
theorem witness_TrapsEnterAndReturn_release :
    (let s := ending.setCur { ending.cur with cell := 0 }
     ¬ HasHandler s ∧ s.curSlot ≠ 9 ∧ CellLowered s s ∧ (∃ z, released s s.curCore [s.curSlot] 4 = .ok () z)) ∧
    (¬ HasHandler fencing ∧ fencing.curSlot ≠ 9 ∧ CellLowered fencing fencing ∧ (∃ z, released fencing fencing.curCore [fencing.curSlot] 4 = .wait z)) ∧
    (¬ HasHandler fencingCell ∧ ∃ u, CellLowered fencingCell u) := by
  have none {s : State} (h : s.cur.cell = 0) : CellLowered s s := by unfold CellLowered; rw [if_pos h]
  refine ⟨⟨by unfold HasHandler; decide +kernel, by decide +kernel, none (by decide +kernel), _, ok_of_val (a := ()) (by decide +kernel)⟩,
    ⟨by unfold HasHandler; decide +kernel, by decide +kernel, none (by decide +kernel), _, wait_of_isWait (by decide +kernel)⟩,
    by unfold HasHandler; decide +kernel, ?_⟩
  unfold CellLowered
  simp only [show ¬ fencingCell.cur.cell = 0 by decide +kernel, if_false]
  exact ⟨_, .inr ⟨_, wait_of_isWait (by decide +kernel), rfl⟩⟩

theorem witness_TrapsEnterAndReturn_h9 : ¬ HasHandler (handling none) ∧ (handling none).curSlot = 9 := by
  unfold HasHandler; decide +kernel

/-! Reset and invariants -/

theorem witness_StepsKeepMemoryCanonical : State.reset.MemOk ∧ ∃ t, step (State.reset.withFetchWord 32 8) = .next t := by
  refine ⟨by unfold State.MemOk; decide +kernel, ?_⟩
  have h : goesOn (step (State.reset.withFetchWord 32 8)) = true := by decide +kernel
  revert h
  cases step (State.reset.withFetchWord 32 8) <;> simp [goesOn]

theorem bankFields_reset : BankFields State.reset := by
  have c (h : Nat) : State.reset.core h = Core.reset := by
    simp only [State.core, vget, State.reset, Vector.getElem?_replicate]; split <;> rfl
  have w : ∀ b, b < 16 → vget (Bank.home 0) b (Bank.init 0 0) ∈ [Bank.init 0 0, Bank.init 1 0, Bank.init 4 0] := by decide +kernel
  have m : ∀ x ∈ [Bank.init 0 0, Bank.init 1 0, Bank.init 4 0], x.mode < 8 ∧ x.esize = 0 ∧ x.head = 0 ∧ x.tail = 0 ∧ x.count = 0 ∧ x.switches = [] := by
    decide +kernel
  intro home b
  have e : State.reset.bank home b = vget (Bank.home 0) b (Bank.init 0 0) := by rw [State.bank, c]; rfl
  have i : State.reset.bank home b ∈ [Bank.init 0 0, Bank.init 1 0, Bank.init 4 0] := by
    rw [e]
    by_cases h : b < 16
    · exact w b h
    · have : vget (Bank.home 0) b (Bank.init 0 0) = Bank.init 0 0 := by
        simp [vget, Vector.getElem?_eq_none (show 16 ≤ b by omega)]
      rw [this]; decide
  obtain ⟨h1, h2, h3, h4, h5, h6⟩ := m _ i
  simp [h1, h2, h3, h4, h5, h6]

theorem witness_PrivilegedRegistersAndBankFieldsStay :
    (¬ Privileged (ctl []) ∧ (Instr.addi 0 0 0).isStep = false) ∧ BankFields State.reset ∧ ∃ t, step (State.reset.withFetchWord 32 8) = .next t := by
  refine ⟨⟨by unfold Privileged; decide +kernel, rfl⟩, bankFields_reset, ?_⟩
  have h : goesOn (step (State.reset.withFetchWord 32 8)) = true := by decide +kernel
  revert h
  cases step (State.reset.withFetchWord 32 8) <;> simp [goesOn]

/-! Steps of other agents -/

/-- Every function up, and PID 0's virtual core 0 on core 0. -/
def hosted : State :=
  { State.reset with ready := 0x00FF_FFFF_FFFF_FFBF, clients := Vector.replicate 64 0x40_0000_0000, phys := memWrite [] 0x801 [8] }

/-- The state that the map read of PID 0's virtual core 0 leaves. -/
def noted : State := mapNote hosted 0 0

theorem witness_HostSteps :
    LaunchGood noted 5 (List.replicate 64 0) 0 ∧ FunctionUp noted 20 ∧ noted.flights = [] ∧ groupStopped noted 0 0 = false ∧
      3 ≤ banksInService (noted.core 0) ∧ (noted.core 0).spLaunch = [] ∧ (noted.core 0).launchQ.length < 16 ∧
      (let l := launchMade hosted 5 (List.replicate 64 0)
       l.pid = 0 ∧ l.vcore = 0 ∧ l.group = 0) ∧
      (List.replicate 63 (0 : Byte)).length ≠ 64 ∧
      (let m := portMessage hosted 5 (List.replicate 64 0)
       m.pid = 0 ∧ m.dstv = 0 ∧ mapCore noted m.pid m.dstv = some 0) ∧
      (64 ∈ [4, 8, 16, 32, 64] ∧ 64 % 64 = 0 ∧ regionOf (wfld (vget hosted.apBase 5 0) 45 23 * 2 ^ 23 + 64) = .hbm ∧
        hosted.hostWait = [] ∧ noted.hostWait = [] ∧ (vget hosted.clients 5 0).getLsbD 38 = true ∧
        (∀ b, b ∈ [32, 48] → hosted.ready.getLsbD b = true)) ∧
      0x47_B800_0000 - 64 + 64 ≤ 0x47_B800_0000 ∧ (3 ∉ [4, 8, 16, 32, 64] ∧ 2 % 4 ≠ 0) ∧
      0x1000_3FFF_FFF8 + 8 ≤ 0x1000_4000_0000 ∧ 0x47_B800_0000 < 0x47_B800_0000 + 1 ∧ regionOf 0 ≠ .host := by
  unfold LaunchGood FunctionUp goodTarget; decide +kernel

/-- A map word of HBM that reads good, and one whose record no HBM holds. -/
theorem witness_HostSteps_note :
    (okVal (physLoad { hosted with ready := BitVec.allOnes 64 } (procRecord hosted 0 + 0x800 + 8 * 0) 8)).isSome = true ∧
      (let s := { hosted with procBase := 0x3000_0000_0000 }
       regionOf (procRecord s 0 + 0x800 + 8 * 0) ≠ .hbm) := by decide +kernel

/-- Accesses of one line: the second one of HBM, through an aperture, and the last; and one of two lines, of two stacks. -/
theorem witness_HostSteps_stacks : StacksUp hosted 64 64 ∧ StacksUp hosted (0x47_B800_0000 - 64) 64 ∧ StacksUp hosted 0x40 128 := by
  have up (pa n : Nat) (k : Nat) (h : pa + n ≤ (pa / 128 + k) * 128)
      (q : ∀ i, i < k → FunctionUp hosted (48 + ctrlOf ((pa / 128 + i) * 128) / 2) ∧ metaReady hosted (pa / 128 + i) = true) :
      StacksUp hosted pa n :=
    ⟨rfl, rfl, fun i hi => q i (by omega)⟩
  refine ⟨up _ _ 1 (by decide) ?_, up _ _ 1 (by decide) ?_, up _ _ 2 (by decide) ?_⟩ <;> unfold FunctionUp <;> decide +kernel

theorem witness_HostSteps_aperture :
    regionOf (wfld (vget (State.apBase { hosted with apBase := Vector.replicate 64 0x3000_0000_0000 }) 5 0) 45 23 * 2 ^ 23 + 64) ≠ .hbm := by
  decide +kernel

/-- A host line that die 0's L2 holds; a line of HBM whose two halves, and whose last half, await a BIRsp. -/
theorem witness_HostSteps_coherence :
    regionOf 0x2000_0000_0000 = .host ∧
      (let s : State := { hosted with l2 := #v[[{ hitLine with pln := 0x2000_0000_0000 / 128 }], []] }
       l2Phys s 0 (0x2000_0000_0000 / 128) = some { hitLine with pln := 0x2000_0000_0000 / 128 } ∧
         l2Phys (l2Evict s 0 { hitLine with pln := 0x2000_0000_0000 / 128 }) 1 (0x2000_0000_0000 / 128) = none) ∧
      (State.bisnp { hosted with bisnp := [128, 192] }).contains 128 = true ∧ (State.bisnp { hosted with bisnp := [128, 192] }).contains 192 = true ∧
      (State.bisnp { hosted with bisnp := [192] }).contains 128 = false := by decide +kernel

/-- A read of a line that the memory place's L2 holds, with no request of its handler outstanding. -/
theorem witness_HostSteps_read :
    let s : State := { hosted with l2 := #v[[hitLine], []] }
    0x100 + 8 ≤ 0x47_B800_0000 ∧ s.hostWait = [] ∧ s.flights = [] ∧ metaReady s 2 = true ∧ s.ready.getLsbD (48 + ctrlOf (2 * 128) / 2) = true ∧
      s.failed.getLsbD (48 + ctrlOf (2 * 128) / 2) = false ∧ memPlace (2 * 128) = 0 ∧ l2Phys s 0 2 = some hitLine ∧
      dirBusy s 0 hitLine.pid hitLine.vln = false := by decide +kernel

/-- PREEMPT of core 95 as 01 in bits 63:62; the other values; RESUME of PID 0 at 0. -/
theorem witness_PreemptionSteps :
    (let w : Word := BitVec.ofNat 64 (2 ^ 62 + 95 * 2 ^ 55)
     wfld w 63 62 = 1 ∧ wfld w 61 55 = 95 ∧ w.toNat % 2 ^ 55 = 0) ∧ State.reset.enabled 95 = true ∧
      (((ctl []).core 0).ctl.st ≠ .idle ∧ ((ctl []).core 0).preempt = none) ∧ (State.reset.core 0).ctl.st = .idle ∧
      wfld (0xC000_0000_0000_0000 : Word) 63 62 = 3 ∧ (0x40_0000_0000_0000 : Word).getLsbD 54 = true ∧ wfld (1 : Word) 11 0 ≠ 0 ∧
      wfld (0x8000_0000_0000_0000 : Word) 63 62 = 2 ∧ wfld (0x8000_0000_0000_0000 : Word) 61 54 = 0 ∧
      okVal (resumeRequest (mapped []) 0 0x1000) = some () ∧ okVal (resumeRequest (placeMap (ctl []) 0) 0 0x1000) = none := by
  decide +kernel

/-- A pre-emption whose budget runs; one that has drained; one that has not drained after 2^20 ticks; a resume that waits. -/
def preempting (expired : Bool) : State :=
  (ctl []).setCore 0 { (ctl []).core 0 with preempt := some ⟨.request, 0, false, expired, [], false⟩ }
def aStore : Posted := { slot := 0, pt := false, form := .scalar, born := 0, ctxid := 0, pid := 0, pc := 0, space := 0, addr := 0x6_0000, bytes := [1], dest := .pad 0x6_0000, also := [] }
def aResume : Resume := { pid := 0, vcore := 0, va := 0x1000, task := false, asked := true }

theorem witness_PreemptionSteps_budget :
    ((preempting false).core 0).preempt = some ⟨.request, 0, false, false, [], false⟩ ∧ inHandlers ((preempting false).core 0) = false ∧ (∀ slot, slot < 16 → ((preempting false).ctx 0 slot).stall = none) ∧
      okVal (drain (preempting true) 0 Posted.ofSaved) = some () ∧ State.tick (preempting true) < 0 + 2 ^ 20 ∧
      (State.core (settleFlights (okSt (drain (preempting true) 0 Posted.ofSaved)) 2) 0).posted = [] ∧
      (settleFlights (okSt (drain (preempting true) 0 Posted.ofSaved)) 2).flights = [] ∧
      inHandlers (State.core ((ctl []).setCtx 0 15 { ctxWith [] with inHandler := true }) 0) = true ∧
      (0 + 2 ^ 20 ≤ State.tick { preempting true with tick := 2 ^ 20 }) ∧ (∃ q ∈ [aStore], q.slot < 9) ∧
      (State.core ((ctl []).setCore 0 { (ctl []).core 0 with resumes := [aResume] }) 0).resumes = [aResume] := by decide +kernel

/-- A message to m3 of core 0, of PID 0. -/
def aMsg (kind : Nat) : Msg :=
  { kind := kind, mreg := 3, slot := 0, srcv := 0, dstv := 0, pid := 0, group := 0, domain := 0, peer := false, arga := 7, argb := 0,
    pay := List.replicate 5 0, code := [], priv := false, major := 3, minor := 2 }
def aTask : Task :=
  { pc := 0x4000, arga := 0, argb := 0, join := 0, full := false, pinned := false, vcore := 0, pid := 0, group := 0, domain := 3, cls := 0,
    priv := false }
def aLaunch : Launch :=
  { chan := 0, pc := 0, arga := 0, argb := 0, save := 0, done := 0, group := 0, domain := 0, cls := 0, helper := false, pid := 0, vcore := 1,
    priv := false }
/-- Core 0 resident, changed by `f`. -/
def core0 (f : Core → Core) : State := State.reset.setCore 0 (f { State.reset.core 0 with resident := true })

/-- The control context waits on a queue: within its budget, and past it. -/
def stalled (tick : Nat) : State :=
  let s := (preempting false).setBank 0 3 { Bank.init 3 0 with waiters := [(0, 15)] }
  { s.setCtx 0 15 { s.ctx 0 15 with stall := some 3 } with tick := tick }

theorem witness_PreemptionSteps_stalled :
    ((stalled 0).core 0).ctl.stall ≠ none ∧ ((stalled 0).core 0).preempt = some ⟨.request, 0, false, false, [], false⟩ ∧
      inHandlers ((stalled 0).core 0) = false ∧ (stalled 890).tick < 0 + cycleTicks (stalled 890) 2048 ∧
      0 + cycleTicks (stalled 891) 2048 ≤ (stalled 891).tick := by decide +kernel

theorem witness_PreemptionSteps_drain :
    DrainLeft (core0 fun k => { k with posted := [aStore] }) 0 ∧
      DrainLeft { State.reset with flights := [⟨2, 0, [1, 0, 0, 0], [(0x2000_0000_0000, [1])], false, [], some (0, 15)⟩] } 0 ∧ ¬ DrainLeft (preempting true) 0 := by
  refine ⟨.inl ⟨aStore, by decide +kernel, .inl (by decide)⟩, .inr ⟨_, .head _, rfl, rfl, 15, rfl, .inr rfl⟩, ?_⟩
  unfold DrainLeft
  have p : ((preempting true).core 0).posted = [] := by decide +kernel
  have f : (preempting true).flights = [] := by decide +kernel
  simp [p, f]

/-- A pre-emption whose image but its last word is written; a drained one; resumes of PIDs that may and may not run, of one that runs. -/
theorem witness_PreemptionSteps_image :
    (let s := (ctl []).setCore 0 { (ctl []).core 0 with preempt := some ⟨.request, 0, false, true, [], true⟩ }
     (s.core 0).preempt = some ⟨.request, 0, false, true, [], true⟩ ∧ inHandlers (s.core 0) = false) ∧
    (let k := (core0 fun k => { k with ctl := ctxWith [], resumes := [{ aResume with pid := 3 }, aResume, { aResume with pid := 2 }] }).core 0
     k.resumes = [{ aResume with pid := 3 }] ++ aResume :: [{ aResume with pid := 2 }] ∧ pidOk k aResume.pid = true ∧ pidOk k 3 = false ∧
       pidOk k 2 = false) ∧
    (let k := (core0 fun k => { k with ctl := ctxWith [], resumes := [{ aResume with asked := false }] }).core 0
     pidOk k 0 = true ∧ ({ aResume with asked := false } : Resume).asked = false) ∧
    (let k := (core0 fun k => { k with ctl := ctxWith [], resumes := [{ aResume with pid := 3 }] }).core 0
     k.resumes = [{ aResume with pid := 3 }] ∧ pidOk k 3 = false ∧ resumeBars k = false) := by decide +kernel

theorem witness_WorkInstructionsComplete_cores :
    working.enabled 9 = true ∧ working.me.spLaunch = [] ∧
      (let s := working.setMe { working.me with spLaunch := [{ aLaunch with vcore := 0 }] }
       ∀ l ∈ s.me.launchQ ++ s.me.spLaunch, l.pid = s.me.pid → l.vcore = s.me.ctl.vcore) := by decide +kernel

theorem witness_SchedulingSteps_messages :
    (let s := core0 fun k => { k with inbound := [aMsg 0] }
     groupStopped s 0 0 = false ∧ isSaved s 0 0 = false ∧ (s.core 0).resident = true ∧ (s.core 0).pid = 0 ∧
       vget (s.core 0).mfull 3 false = false ∧ (s.core 0).backlog = [] ∧ (s.core 0).spBacklog = [] ∧ mregWaiters (s.core 0) 3 = []) ∧
      vget (core0 fun k => { k with mfull := Vector.replicate 16 true }).me.mfull 3 false = true ∧
      (core0 fun k => { k with backlog := List.replicate 31 (aMsg 0) }).me.backlog.length < 32 ∧
      (aMsg 1).kind = 1 ∧ inboxFlits (core0 fun k => { k with inbox := [aMsg 1] }).me < 64 ∧
      (let k := (core0 fun k => { k with spInbox := [aMsg 1] }).me
       inboxFlits k + (aMsg 1).units ≤ 64) ∧
      (let k := (core0 fun k => { k with inbox := List.replicate 64 (aMsg 1), spInbox := [aMsg 1], spBacklog := [aMsg 0] }).me
       k.backlog.length < 32 ∧ ∀ x ∈ k.spInbox.head?, 64 < inboxFlits k + x.units) := by decide +kernel

theorem witness_SchedulingSteps_grant :
    let s := core0 fun k => { k with launchQ := [aLaunch] }
    s.enabled 0 = true ∧ (s.core 0).preempt = none ∧ (s.core 0).resumes = [] ∧ (s.core 0).ctl.st = .idle ∧
      grantPick (s.core 0) (grantPool (s.core 0) (sources s 0 false)) = some 0 := by decide +kernel

/-- Waits whose counts are reached; a control context that has waited 4,096 ticks beside a launch for another virtual core. -/
theorem witness_SchedulingSteps_wakes :
    okVal (readCell (mapped []) ⟨0, 16, 0⟩ 0x1000) = some 0 ∧
      (let s := core0 fun k => { k with ctl := { ctxWith [] with st := .waiting, wait := .tcwait 1 0 } }
       (s.ctx 0 15).wait = .tcwait 1 0 ∧ (s.ctx 0 15).st = .waiting ∧ (0 : Word).toNat ≤ (vget (s.core 0).tcs 1 ⟨0, 0, none⟩).done.toNat) ∧
      (let s : State := { core0 (fun k => { k with ctl := { ctxWith [] with st := .waiting }, launchQ := [aLaunch] }) with tick := 4096 }
       (s.core 0).ctl.st = .waiting ∧ (s.core 0).ctl.since + 4096 ≤ s.tick ∧ otherWork s 0 = true ∧ (s.core 0).preempt = none) := by
  decide +kernel

/-- Nine waiting helpers, a task for a helper, and room on PID 0's spill ring; and a parked helper whose wait is done. -/
def crowded : State :=
  { core0 (fun k => { k with hs := Vector.replicate 10 { ctxWith [] with st := .waiting, wait := .mrecv 0 }, deque := [aTask] }) with
    spillQ := 0x8000_0000_0000_0000, phys := memWrite [] 0 (natToBytes 8 (2 ^ 63) ++ natToBytes 8 (2 ^ 63)) }

theorem witness_SchedulingSteps_park :
    longestWaiter (crowded.core 0) = some 0 ∧ slotWanted crowded 0 = true ∧ (crowded.core 0).preempt = none ∧
      (parkedReturn (core0 fun k => { k with parked := [{ ctxWith [] with st := .parked, wait := .tcwait 0 0 }] }) 0).isSome = true := by
  decide +kernel

/-- A ring of PID 0 that is valid, with 2^31 units. -/
theorem witness_SchedulingSteps_spill : (spillTake crowded 0 256).isOk = true := by decide +kernel

/-- Core 0, idle, steals from core 1, which holds a task; an answer without a task; an empty sweep. -/
def stealing (t : Steal) : State :=
  (core0 fun k => { k with steal := t, map := Vector.replicate 256 (BitVec.ofNat 64 (2 ^ 11 + 1)) }).setCore 1
    { State.reset.core 1 with deque := [aTask] }

theorem witness_SchedulingSteps_steal :
    (let s := stealing Steal.idle
     (s.core 0).steal = { (s.core 0).steal with victim := none, backoff := false } ∧ isThief s 0 = true ∧
       (List.range 96).find? (fun j => decide ((s.core 0).steal.next ≤ j) && decide (1 ≤ j) && isVictim s ((0 + j) % 96) (s.core 0)) = some 1) ∧
      (let s : State := { stealing { Steal.idle with victim := some 1 } with tick := 16 }
       (s.core 0).steal.since + cycleTicks s (probeTime 0 1 / 2) ≤ s.tick ∧ (s.core 0).steal.since + cycleTicks s (probeTime 0 1) ≤ s.tick ∧
         (s.core 0).steal.victim = some 1 ∧ (s.core 0).steal.arrived = false ∧ (s.core 1).spTasks = [] ∧
         takeFirst (mayTake (s.core 0) 0 1) (s.core 1).deque.reverse = some (aTask, [])) ∧
      (let t := ((stealing { Steal.idle with victim := some 1, arrived := true }).core 0).steal
       t.victim = some 1 ∧ t.arrived = true ∧ t.task = none) ∧
      (let s : State := { stealing { Steal.idle with backoff := true } with tick := 512 }
       (s.core 0).steal.backoff = true ∧ (s.core 0).steal.since + cycleTicks s 512 ≤ s.tick) := by decide +kernel

/-- A control context that waits on m3; a parked helper that does. -/
theorem witness_SchedulingSteps_given :
    (let s := core0 fun k => { k with inbound := [aMsg 0], ctl := { ctxWith [] with st := .waiting, wait := .mrecv 3 } }
     mregWaiters (s.core 0) 3 = [(0, 0, 15)] ∧ vget (s.core 0).mfull 3 false = false ∧ (s.core 0).backlog = [] ∧ (s.core 0).spBacklog = []) ∧
    (let s := core0 fun k => { k with inbound := [aMsg 0], parked := [{ ctxWith [] with st := .parked, wait := .mrecv 3 }] }
     mregWaiters (s.core 0) 3 = [(0, 11, 16)]) := by decide +kernel

/-- A stolen task arrives for a helper; a FULL one for an idle control context and for a busy one; and one of a stopped group. -/
theorem witness_SchedulingSteps_stolen :
    let answered (x : Task) (k : Core) : State :=
      { core0 (fun _ => { k with resident := true, steal := { Steal.idle with victim := some 1, arrived := true, task := some x } }) with tick := 16 }
    (let s := answered aTask (State.reset.core 0)
     (s.core 0).steal.since + cycleTicks s (probeTime 0 1) ≤ s.tick ∧ groupStopped s 0 0 = false ∧ (s.core 0).preempt = none ∧
       (s.core 0).resumes = [] ∧ (s.core 0).parked = [] ∧ freeHelper (s.core 0) = some 0 ∧ (s.core 1).spTasks = [] ∧
       (s.core 1).deque.length < 32 ∧ (s.core 0).ctl.st = .idle ∧ 3 ≤ banksInService (s.core 0) ∧
       groupStopped { s with stoppedGroups := [(0, 0, 0)] } 0 0 = true) ∧
    ({ aTask with full := true } : Task).full = true ∧
    (let s := answered { aTask with full := true } { State.reset.core 0 with ctl := ctxWith [] }
     (s.core 0).ctl.st ≠ .idle) ∧
    (let s := answered aTask { State.reset.core 0 with hs := Vector.replicate 10 (ctxWith []) }
     freeHelper (s.core 0) = none) := by decide +kernel

/-- A copy of 16 bytes from LOCAL bank 3 to bank 4, at a stage. -/
def aCopy (stage : Stage) : Cmd :=
  { tc := 2, num := 1, op := .copy 0 0 0 0 none, a := 0x6_0000, b := 0x8_0000, len := 16, notify := none, pc := 0, ctxid := 0, group := 0,
    vcore := 0, priv := false, stage := stage, off := 0, word := none, cellAt := 0, fault := none }
/-- The same on core 0. -/
def commanded (c : Cmd) : State := core0 fun k => { k with cmds := [c] }

theorem witness_EngineSteps_copy :
    ((commanded (aCopy .sent)).core 0).cmds = [aCopy .sent] ∧ (∀ x ∈ ((commanded (aCopy .sent)).core 0).cmds, x.stage ≠ .chan 0) ∧
      cmdAt (commanded (aCopy (.chan 0))) 0 (.chan 0) = some (aCopy (.chan 0)) ∧ (aCopy (.chan 0)).off + 8 < (aCopy (.chan 0)).len.toNat ∧
      (let p := settleFor (commanded (aCopy (.chan 0))) ⟨0, 17, 0⟩ 0 0 0x6_0000
       let u := okSt (copyRead p ⟨0, 17, 0⟩ 0 0 0x6_0000 16)
       (fifoAt p 0 0 0 0x6_0000).isNone = true ∧ okVal (copyRead p ⟨0, 17, 0⟩ 0 0 0x6_0000 16) = some (List.replicate 8 0) ∧
         (fifoAt (settleFor u ⟨0, 17, 0⟩ 0 0 0x8_0000) 0 0 0 0x8_0000).isNone = true ∧
         onAlias u ⟨0, 17, 0⟩ 0 0x8_0000 = false ∧
         okVal (copyWrite u ⟨0, 17, 0⟩ 0 0 0 0 0x8_0000 (List.replicate 8 0)) = some ()) := by decide +kernel

/-- LAYV of a dense record of one .i8 element: E0 to E2 are 1 and S1 and S2 are 8. -/
def aRecord : List Byte := natToBytes 8 0x8_0000 ++ natToBytes 8 0 ++ natToBytes 8 8 ++ natToBytes 8 8 ++ natToBytes 4 1 ++ natToBytes 4 1 ++ natToBytes 4 1 ++ natToBytes 20 0
def aLayv : Cmd := { aCopy .engine with op := .layv 5, len := 0 }

theorem witness_EngineSteps_layout :
    cmdAt (withPad (commanded aLayv) 0x6_0000 aRecord) 0 .engine = some aLayv ∧
      okVal (readBytes ⟨0, 19, 0⟩ 0 0 8 8 64 0x6_0000 (withPad (commanded aLayv) 0x6_0000 aRecord)) = some aRecord ∧
      (tensorOf aRecord).reason = none := by decide +kernel

/-- A collective of a grid of one core; a complete command that DONE has reached. -/
def aColl : Cmd := { aCopy .port with op := .coll 0 0 0 false 0 0 0 0, len := 1 }

theorem witness_EngineSteps_collective :
    ((((commanded aColl).core 0).cmds.filter fun c => c.stage == .port).findSome? (matchedSet (commanded aColl) 0)).isSome = true ∧
      cmdAt (commanded aColl) 0 .judged = none ∧ (commanded (aCopy .complete)).flights = [] ∧
      ((aCopy .complete).num = (vget ((commanded (aCopy .complete)).core 0).tcs 2 ⟨0, 0, none⟩).done + 1 ∧ (aCopy .complete).notify = none) := by
  decide +kernel

theorem witness_EngineSteps_dispatch :
    (let k := (commanded (aCopy .sent)).core 0
     TakenTo k (aCopy .sent) (.chan 0)) ∧
    (let k := (core0 fun k => { k with cmds := [aCopy (.chan 0), { aCopy .sent with num := 2 }] }).core 0
     (∀ h, ¬ TakenTo k (aCopy (.chan 0)) h) ∧ TakenTo k { aCopy .sent with num := 2 } (.chan 1)) ∧
    TakenTo ((commanded { aLayv with stage := .sent }).core 0) { aLayv with stage := .sent } .engine ∧
    TakenTo ((commanded { aColl with stage := .sent }).core 0) { aColl with stage := .sent } .port := by
  refine ⟨⟨rfl, .inl ⟨rfl, by decide +kernel⟩⟩, ⟨fun h e => ?_, ⟨rfl, .inr ⟨rfl, ?_, by decide +kernel⟩⟩⟩, ⟨rfl, rfl, by decide +kernel⟩, ⟨rfl, rfl⟩⟩
  · exact absurd e.1 (by decide)
  · intro h; exact absurd rfl (h (aCopy (.chan 0)) (by decide +kernel))

/-- The sources of a COLL with SPAN 1 in LOCAL bank 3; a box with its peer up. -/
def spanned : Cmd := { aColl with stage := .sent, op := .coll 0 0 0 true 0 0 0 0 }
theorem witness_EngineSteps_span :
    okVal (readBytes ⟨0, 20, 0⟩ 0 0 4 1 4 0x6_0000 (commanded spanned)) = some [0, 0, 0, 0] ∧ spanned.len.toNat = 1 ∧
      State.tandemUp { commanded aColl with ready := 0x40 } = true ∧ (commanded aColl).tandemUp = false := by decide +kernel

/-- A copy's last word; a pointer that is due, with every write before it performed, and with one on its way that waits. -/
def pointing (off len : Nat) : Cmd := { aCopy (.chan 0) with op := .copy 0 0 0 0 (some (0, 0, 0xA_0000)), len := BitVec.ofNat 64 len, off := off }
theorem witness_EngineSteps_pointer :
    ((aCopy (.chan 0)).off + 8 ≠ 16 ∧ ({ aCopy (.chan 0) with off := 8 } : Cmd).off + 8 = 16 ∧ (8 + 8) % 256 ≠ 0) ∧
    (let c := pointing 256 512
     0 < c.off ∧ c.off % 256 = 0 ∧ c.cellAt ≠ c.off ∧ c.off ≠ c.len.toNat ∧ (pointing 16 16).off = (pointing 16 16).len.toNat ∧
       (engineRelease (commanded c)).flights = [] ∧
       okVal (copyWrite (engineRelease (commanded c)) ⟨0, 17, 0⟩ 0 0 0 0 0xA_0000 (natToBytes 8 256)) = some () ∧
       (engineRelease { commanded c with flights := [⟨0, 1, [0, 2, 0, 0], [], false, [], none⟩] }).flights ≠ []) := by decide +kernel

theorem witness_EngineSteps_notify :
    (let c : Cmd := { aCopy .complete with notify := some (3, 1) }
     let s := (commanded c).setCore 0 { (commanded c).core 0 with map := State.reset.me.map.setIfInBounds 1 (2 ^ 11 + 9) }
     c.notify = some (3, 1) ∧ (s.core 0).pcoreOf 1 = some 9 ∧ ((commanded c).core 0).pcoreOf 1 = none ∧
       (State.core (faultRing (commanded c) 1 0 0 0 0 1) 0).cmds = [c]) := by decide +kernel

/-- A transform of one .i8 element of LOCAL bank 3 to bank 4, between dense tensors; the record of an MX destination. -/
def cellRecord (base : Nat) : List Byte := natToBytes 8 base ++ natToBytes 8 0 ++ natToBytes 8 8 ++ natToBytes 8 8 ++ natToBytes 4 1 ++ natToBytes 4 1 ++ natToBytes 4 1 ++ natToBytes 20 0
def aXfm (xop : Nat) : Cmd := { aCopy .engine with op := .xfm xop 1 2 none none 0 false false, len := 0 }
def transforming (xop : Nat) (src : Option (List Byte)) : State :=
  core0 fun k => { k with cmds := [aXfm xop], layouts := (k.layouts.setIfInBounds 1 src).setIfInBounds 2 (some (cellRecord 0x8_0000)) }

theorem witness_EngineSteps_transform :
    (let s := transforming 0 (some (cellRecord 0x6_0000))
     let a := tensorOf (cellRecord 0x6_0000)
     let b := tensorOf (cellRecord 0x8_0000)
     let us := transformUnits ⟨0, 19, 0⟩ 0 a b none none 0
     let r := runUnits ⟨0, 19, 0⟩ b us none [] s
     let v := okSt r
     cmdAt s 0 .engine = some (aXfm 0) ∧ slotRecord (s.core 0) 1 false 0 = some a ∧ slotRecord (s.core 0) 2 false 0 = some b ∧
       a.reason = none ∧ b.reason = none ∧ xfmReason 0 0 (some a) (some b) = none ∧
       (okVal r).any (fun y => y.1.isNone && y.2 == [[(⟨0x8_0000, 0, 8⟩, 0)]]) = true ∧
       (piecesReady ⟨0, 19, 0⟩ (segsPieces ⟨0, 19, 0⟩ b [(⟨0x8_0000, 0, 8⟩, 0)] v).1 true (segsPieces ⟨0, 19, 0⟩ b [(⟨0x8_0000, 0, 8⟩, 0)] v).2).1 = true) ∧
    (let s := transforming 0 none
     slotRecord (s.core 0) 1 false 0 = none ∧ xfmReason 0 0 none (slotRecord (s.core 0) 2 false 0) = some (0x0A, 1)) ∧
    xfmReason 0 3 (some (tensorOf (cellRecord 0x6_0000))) (some (tensorOf (cellRecord 0x8_0000))) = some (0x0C, 3) := by decide +kernel

/-- A stream of one symbol, 0, whose code has one bit: OUTLEN 1, NWORDS 1, the length 1 of symbol 0; one whose OUTLEN does not fit. -/
def aStream (out : Nat) : List Byte := natToBytes 4 out ++ natToBytes 4 1 ++ List.replicate 8 0 ++ [1] ++ List.replicate 127 0 ++ natToBytes 4 0
/-- Its record: .n8, ROW, 148 bytes. -/
def streamRecord : List Byte := natToBytes 8 0x6_0000 ++ natToBytes 8 0 ++ natToBytes 8 152 ++ natToBytes 8 152 ++ natToBytes 4 148 ++ natToBytes 4 1 ++ natToBytes 4 1 ++ natToBytes 4 1 ++ natToBytes 16 0
def streaming (out : Nat) : State := withPad (transforming 6 (some streamRecord)) 0x6_0000 (aStream out)

theorem witness_EngineSteps_stream :
    let a := tensorOf streamRecord
    let b := tensorOf (cellRecord 0x8_0000)
    let head (out : Nat) := readBytes ⟨0, 19, 0⟩ 0 0 8 18 144 0x6_0000 (streaming out)
    let p : Payload := { who := ⟨0, 19, 0⟩, space := 0, csel := 0, base := 0x6_0090, count := 1 }
    a.reason = none ∧ xfmReason 0 6 (some a) (some b) = none ∧ okVal (head 1) = some ((aStream 1).take 144) ∧ ((aStream 1).take 144).length = 144 ∧
      streamBad ((aStream 1).take 144) a.e0 b.count = none ∧ streamBad ((aStream 2).take 144) a.e0 b.count = some 1 ∧
      okVal (decodeStream (codeLengths ((aStream 1).take 144)) p 1 (okSt (head 1))) = some ([0], .well) ∧
      okVal (decodeStream (codeLengths ((aStream 1).take 144)) { p with count := 0 } 1 (okSt (head 1))) = some ([], .bad 2 0 144) := by
  decide +kernel

/-- What lanes do: a symbol with no further one; one whose lane claims a word; no code; no word left. -/
theorem witness_EngineSteps_lanes :
    let cs := canonCodes 0 0 (codeOrder (1 :: List.replicate 255 0))
    cs = [(1, 0, 0)] ∧ headSymbol cs 0 32 12 0 0 = some (0, 1) ∧ headSymbol cs 0xFFF 32 12 0 0 = none ∧ (32 - 1) < 32 ∧ 0 + 16 < 17 := by
  decide +kernel

/-- Three participants' 1.0, 2^24 and 1.0 (R305): the tree's sum; a set of one participant that delivers; two that disagree in RED. -/
theorem witness_EngineSteps_deliver :
    (let x (p _ : Nat) : Nat := [0x3F80_0000, 0x4B80_0000, 0x3F80_0000].getD p 0
     collElement 0 0 0 3 1 0 2 0 x = 0x4B80_0000) ∧
    (let s := commanded aColl
     let ps : List Part := [.own 0 aColl]
     let f : Nat → List (Option Nat) := fun _ => [some 0]
     let r := readSources 0 ps none s
     let d := checkDests f 0 ps none (okSt r)
     Part.fields (.own 0 aColl) = [0, 0, 0, 0, 1, 0] ∧ (okVal r).any (fun y => y.1 == [[some 0]] && y.2.isNone) = true ∧
       d.1.1 = [(0, aColl, [(0x8_0000, 0)])] ∧ d.1.2.isNone = true ∧
       (destsReady true d.1.1 d.2).1 = true) ∧
    (let ps : List Part := [.own 0 aColl, .own 1 { aColl with op := .coll 0 1 0 false 0 0 0 0 }]
     mismatch ps = 2) := by decide +kernel

/-- The same cell of HBM at 0x1000, whose line the host caches; a source in a TILE bank. -/
def globalRecord : List Byte := (cellRecord 0x1000).take 44 ++ natToBytes 20 0x80
def held : State := { mapped [] with hostLines := [0x1000 / 128] }

theorem witness_EngineSteps_transform_stops :
    (let b := tensorOf globalRecord
     let r := runUnits ⟨0, 19, 0⟩ b (transformUnits ⟨0, 19, 0⟩ 0 (tensorOf (cellRecord 0x6_0000)) b none none 0) none [] held
     let ps := segsPieces ⟨0, 19, 0⟩ b [(⟨0x1000, 0, 8⟩, 0)] (okSt r)
     b.reason = none ∧ (okVal r).any (fun y => y.1.isNone && y.2 == [[(⟨0x1000, 0, 8⟩, 0)]]) = true ∧
       (piecesReady ⟨0, 19, 0⟩ ps.1 true ps.2).1 = false ∧ (destsReady true [(0, { aColl with op := .coll 0 0 0 false 0 0 2 0 }, [(0x1000, 0)])] held).1 = false) ∧
    (let b := tensorOf (cellRecord 0x8_0000)
     let r := runUnits ⟨0, 19, 0⟩ b (transformUnits ⟨0, 19, 0⟩ 0 (tensorOf (cellRecord 0)) b none none 0) none [] (ctl [])
     (okVal r).any (fun y => y.1.isSome && y.2 == []) = true) := by decide +kernel

theorem witness_EngineSteps_enabled : (commanded (aCopy .complete)).enabled 9 = true ∧ resumeBars ((commanded (aCopy .complete)).core 0) = false := by
  decide +kernel

/-- A bank with a switch on its way: one that may be made, and a retired bank's. -/
def switching (retired : Bool) : State :=
  State.reset.setBank 0 5 { Bank.init 1 0 with retired := retired, switches := [{ core := 0, mode := 3, esize := 3, pid := 0 }] }

theorem witness_MemorySteps_banks :
    switchAllowed (State.setBank (switching false) 0 5 (Bank.init 1 0)) 0 5 { core := 0, mode := 3, esize := 3, pid := 0 } = true ∧
      switchAllowed (State.setBank (switching true) 0 5 { Bank.init 1 0 with retired := true }) 0 5 { core := 0, mode := 3, esize := 3, pid := 0 } = false ∧
      copyStops (State.setBank (switching false) 0 5 (Bank.init 1 0)) 0 5 { core := 0, mode := 3, esize := 3, pid := 0 } = false ∧
      (let s := withTiles State.reset [(1, tileOf 3 0 [])]
       (tileCopyOne (s.core 0) 0).isSome = true) ∧
      (let y : BankSwitch := { core := 0, mode := 1, esize := 0, pid := 0 }
       let s := withTiles (State.setBank State.reset 0 5 (Bank.init 4 0)) [(1, { tileOf 3 0 [] with bad := [0] })]
       switchAllowed s 0 0 y = true ∧ copyStops s 0 0 y = true) ∧
      okVal (performStore (core0 fun k => { k with posted := [aStore] }) 0 aStore) = some () ∧
      (let b : Bank := { Bank.init 3 0 with count := 1, waiters := [(2, 15)] }
       b.waiters = [(2, 15)] ∧ b.count ≠ 0) ∧
      State.reset.turns.contains (.ctx 2 15) = false ∧ (∀ c, c < 96 → (State.reset.core c).posted = []) := by decide +kernel

/-- The atomic of a helper's inline code. -/
def adding : State := inline [0x08710576, 0x00000100, 0x00000000]

theorem witness_MemorySteps_atomic :
    canRun adding true 0 0 = true ∧ atBreak adding 0 0 = false ∧
      words (fetchWords adding 0 0 (adding.ctx 0 0).pc 3) = some [0x08710576, 0x00000100, 0] ∧
      decodeIn atomRows true (wordsToNat [0x08710576, 0x00000100, 0]) = .ok (.aadd 7 4 5 true ⟨0, 0, .disp 0⟩ noExt) 3 ∧
      (atomMeaning (.aadd 7 4 5 true ⟨0, 0, .disp 0⟩ noExt)).isSome = true := by decide +kernel

/-- The same with its address in s4, LOCAL bank 3. -/
def addingAt : State := adding.setCur { adding.cur with s := adding.cur.s.setIfInBounds 4 0x6_0000 }

theorem witness_LocalAtomics_step :
    let f := fetchedSt (fetchWords addingAt 0 0 (addingAt.ctx 0 0).pc 3)
    canRun addingAt true 0 0 = true ∧ atBreak addingAt 0 0 = false ∧
      words (fetchWords addingAt 0 0 (addingAt.ctx 0 0).pc 3) = some [0x08710576, 0x00000100, 0] ∧
      decodeIn atomRows (0 != 15) (wordsToNat [0x08710576, 0x00000100, 0]) = .ok (.aadd 7 4 5 true ⟨0, 0, .disp 0⟩ noExt) 3 ∧
      Stands (f.moveTo 0 0) ∧ noExt.wait = 0 ∧ noExt.ord < 2 ∧ operand (f.moveTo 0 0).cur 4 = 0x6_0000 ∧
      PadClear (f.moveTo 0 0) 0x6_0000 8 ∧ NoFailing (f.moveTo 0 0) 0x6_0000 8 := by
  unfold Stands PadClear NoFailing; decide +kernel

theorem witness_LocalAtomics_steps :
    (let s := inline [0x04710576, 0x118, 0]
     canRun s true 0 0 = true ∧ atBreak s 0 0 = false ∧ words (fetchWords s 0 0 (s.ctx 0 0).pc 3) = some [0x04710576, 0x118, 0] ∧
       decodeIn atomRows (0 != 15) (wordsToNat [0x04710576, 0x118, 0]) = .ok (.acas 7 4 5 true 6 ⟨0, 0, .disp 0⟩ noExt) 3) ∧
    (let s := inline [0x28710576, 0, 0]
     canRun s true 0 0 = true ∧ atBreak s 0 0 = false ∧ words (fetchWords s 0 0 (s.ctx 0 0).pc 3) = some [0x28710576, 0, 0] ∧
       decodeIn atomRows (0 != 15) (wordsToNat [0x28710576, 0, 0]) = .ok (.afaddF32 7 4 5 ⟨0, 0, .disp 0⟩ noExt) 3) := by decide +kernel

/-- An address of HBM that no L2 holds; a line that die 0 holds; a delivery that is ready; a queue of requests. -/
theorem witness_MemorySteps_memory :
    (match (resolve (mapped []) ⟨0, 16, 0⟩ .scalar .load 0x1000 1).1 with
     | .ok t => isAlias t.leaf = false ∧ regionOf t.pa = .hbm ∧
         l2Phys (resolve (mapped []) ⟨0, 16, 0⟩ .scalar .load 0x1000 1).2 0 (t.pa / 128) = none
     | .error _ => False) ∧
      dirBusyLine (mapped []) 0 0 (0x1000 / 128) (0x1000 / 128) = false ∧ metaReady (mapped []) (0x47_B7FF_FFFF / 128) = true ∧
      (hit.l2Of 0).find? (fun l => l.pid == 0 && l.vln == 0x100 / 128) = some hitLine ∧ 0x47_B7FF_FFFF < 0x47_B800_0000 ∧
      (applyNext { State.reset with flights := [⟨1, 0, [1, 0, 0, 0], [], false, [], none⟩] } 1).isSome = true ∧
      (let k := (core0 fun k => { k with dirQ := [⟨0, 1, 0, 0, 0, 2⟩] }).core 0
       k.dirQ = [⟨0, 1, 0, 0, 0, 2⟩] ∧ k.bcast = false ∧ (k.ctx 9).st = .idle ∧ k.dirReq = none) := by
  refine ⟨?_, ?_⟩
  · have h : (match (resolve (mapped []) ⟨0, 16, 0⟩ .scalar .load 0x1000 1).1 with
     | .ok t => isAlias t.leaf == false && regionOf t.pa == .hbm &&
         l2Phys (resolve (mapped []) ⟨0, 16, 0⟩ .scalar .load 0x1000 1).2 0 (t.pa / 128) == none
     | .error _ => false) = true := by decide +kernel
    revert h
    cases (resolve (mapped []) ⟨0, 16, 0⟩ .scalar .load 0x1000 1).1 <;> simp [and_assoc]
  · decide +kernel

/-- Descriptor 1: MXFP4, valid, of 4 blocks. -/
def aliased : State := { State.reset with ready := 0x0000_FFFF_0000_0000, aliasTab := State.reset.aliasTab.setIfInBounds 6 (BitVec.ofNat 64 (2 ^ 35 + 4)) }

theorem witness_MemorySteps_alias :
    aliasHolds aliased 1 3 = true ∧ (okVal (aliasRead aliased 1 3 0 64)).isSome = true ∧ 62 % 2 = 0 ∧ 62 + 2 ≤ 64 ∧
      okVal (aliasFree aliased 1 3) = some () := by decide +kernel

theorem witness_PlatformSteps_functions :
    mayBeReady { State.reset with ready := 0x81 } 55 = true ∧ readyField 55 = true ∧ State.reset.ready.getLsbD 55 = false ∧
      State.reset.hostWait = [] ∧ (State.meas { State.reset with meas := some (0, 0, []) }) = some (0, 0, []) ∧ State.reset.meas = none ∧
      State.reset.attest.length < 4096 ∧ (State.quote { State.reset with quote := some ([], 0) }) = some ([], 0) := by decide +kernel

/-- Caps at the ends of their range and beside them; windows above, in and below the range. -/
theorem witness_PlatformSteps_power :
    (450 ≤ 450 ∧ 800 ≤ 800 ∧ 450 % 5 = 0) ∧ ¬ (450 ≤ 449 ∧ 449 ≤ 800 ∧ 449 % 5 = 0) ∧ State.reset.tandemCfg.getLsbD 63 = false ∧
      State.reset.cap < 801 ∧ State.reset.pwrP + 1 ≤ 9 ∧ State.reset.clkStep ≠ 9 ∧ (775 ≤ State.reset.cap ∧ State.reset.cap ≤ 775 + 25) ∧
      State.reset.therm = 0 ∧ 109 < 110 ∧
      (let s : State := { State.reset with tick := 1000 }
       s.pwrTick + 1000 ≤ s.tick ∧ s.thermTick + 1000 ≤ s.tick ∧ State.reset.tick < s.pwrTick + 1000 ∧
         State.reset.tick < s.thermTick + 1000) := by decide +kernel

def corrected : ErrEvent := { cls := 2, index := 3, uncorrectable := false, unit := .corrected }

/-- A pair configured and not up; a pair that is up, with an export of 1 GiB at 0. -/
def paired : State := { State.reset with tandemCfg := 0x8000_0000_0020_0000, ready := 0xC0 }

theorem witness_PlatformSteps_links :
    (corrected.unit = .corrected ∧ corrected.cls = 2 ∧ corrected.index < 1536 ∧ corrected.uncorrectable = false ∧ State.reset.errors = []) ∧ State.reset.hostDown = false ∧
      mayBeReady { State.reset with ready := 1 } 7 = true ∧
      (let s : State := { paired with ready := 0x80, tandemArmed := true }
       s.tandemArmed = true ∧ lostLanes s 8 < 7 ∧ paired.peerCtrl = [] ∧ paired.flights = [] ∧ s.tick ≤ (5 : Word).toNat ∧ (5 : Word).toNat < ({ s with tick := 6 } : State).tick ∧
       s.tandemCfg.getLsbD 63 = true ∧ s.tandemCfg.getLsbD 62 = false ∧ s.tandemUp = false ∧ s.ready.getLsbD 7 = true ∧ s.failed.getLsbD 6 = false) ∧
      (paired.tandemUp = true ∧ 63 % 64 + 1 ≤ 64 ∧ 63 + 1 ≤ wfld paired.tandemCfg 29 21 * 2 ^ 30 ∧
        wfld paired.tandemCfg 45 30 * 2 ^ 30 + 63 + 1 ≤ 0x47_B800_0000) ∧
      (List.replicate 64 (0 : Byte)).length = 64 * (1 + wfld (word8 (List.replicate 64 0) 0) 3 2) ∧ wfld (word8 (List.replicate 64 0) 0) 1 0 < 3 := by
  decide +kernel

/-- Events: one of many, the one that makes a fault lasting, one of a unit that there is not; failing words of a pad bank. -/
theorem witness_PlatformSteps_errors :
    (UnitExists 1 1535 ∧ UnitExists 8 7 ∧ ¬ UnitExists 8 8 ∧ ¬ UnitExists 0 0) ∧
    (1 ≠ (threshold 2 false).1) ∧ (1 = (threshold 5 true).1) ∧ (1 = (threshold 9 false).1) ∧
    (State.bank State.reset (bankAt 0 3).1 (bankAt 0 3).2).mode = 1 ∧ (State.bank State.reset (bankAt 0 0).1 (bankAt 0 0).2).mode = 4 ∧
    regionOf 0x1000 = .hbm ∧ (tagRead State.reset (0x1000 / 128)).1 = 0 ∧ paired.tandemUp = true ∧ State.reset.tandemUp = false ∧
    (State.hostDown { State.reset with hostDown := true }) = true := by
  refine ⟨?_, by decide +kernel⟩
  unfold UnitExists; omega

/-- A finished stamp and a waiting one; a marker; a ring that asks for stamps, one that does not; a sample that WIN suppresses and
one that it does not. -/
theorem witness_PlatformSteps_profiler :
    let t : TStamp := ⟨0, 0, 0, 0, false, 0, 0, 0, 0, some 0, false⟩
    (((core0 fun k => { k with stamps := [.tile t] }).core 0).stamps = [.tile t] ∧ t.t5 = some 0 ∧ ({ t with t5 := none } : TStamp).t5 = none) ∧
      ((core0 fun k => { k with stamps := [.words 0 0 0 0] }).core 0).stamps = [.words 0 0 0 0] ∧
      ((0xC000_0000_0000_0000 : Word).getLsbD 63 = true ∧ (0xC000_0000_0000_0000 : Word).getLsbD 62 = true ∧
        (0xC000_0000_0000_0000 : Word).getLsbD 60 = false) ∧
      (let s := core0 fun k => { k with stampBase := 0xB000_0000_0000_0000 }
       (s.core 0).stampBase.getLsbD 61 = true ∧ s.tick % 2 ^ (10 + wfld (s.core 0).stampBase 59 56) = 0 ∧
         (s.core 0).sampleAt ≠ some s.tick ∧ (s.core 0).stampBase.getLsbD 60 = true ∧ s.openCount = 0 ∧
         ({ s with openCount := 1 } : State).openCount ≠ 0 ∧ (s.core 0).stampBase.getLsbD 63 = true ∧ (s.core 0).stamps = []) := by
  decide +kernel

/-- A command to core 0's control context. -/
def aCmd (op fam num : Nat) (addr : Word) : DbgCmd :=
  BitVec.ofNat 256 (op * 2 ^ 248 + 15 * 2 ^ 231 + fam * 2 ^ 228 + num * 2 ^ 222 + 2 ^ 220 + addr.toNat * 2 ^ 128 + 7 * 2 ^ 64)
def stopped : State := { ctl [] with dbg := { Dbg.reset with stopped := true } }

/-- A stop exactly 1,024 ticks ahead, and one tick less; one requested in a pair for one box; one of a pair that is not. -/
theorem witness_DebuggerSteps_stop :
    CleanCmd (aCmd 1 0 0 1024) 1 ∧ (aCmd 1 0 0 1024).pair = (ctl []).tandemUp ∧ (ctl []).tick + 1024 ≤ (aCmd 1 0 0 1024).addr.toNat ∧
      (ctl []).dbg.stopReq = none ∧ (aCmd 1 0 0 1023).addr.toNat < (ctl []).tick + 1024 ∧ paired.tandemUp = true ∧
      (aCmd 1 0 0 1024).pair = false ∧ DbgCmd.pair (aCmd 1 0 0 1024 ||| BitVec.ofNat 256 (2 ^ 221)) = true ∧
      (State.dbg { ctl [] with dbg := { Dbg.reset with stopReq := some 0 } }).stopReq = some 0 ∧ stopped.dbg.stopped = true ∧
      DbgCmd.rsv (aCmd 3 0 0 0 ||| 1) ≠ 0 := by
  unfold CleanCmd; decide +kernel

/-- Registers of every family, at their last number, and a tile. -/
theorem witness_DebuggerSteps_registers :
    (∀ x ∈ [(0, 47), (1, 7), (2, 15), (3, 15), (4, 15), (5, 1)], NamesRegister stopped (aCmd 5 x.1 x.2 0)) ∧
      stopped.dbg.stopped = true ∧ debugUe stopped (aCmd 5 0 47 0) = none ∧ stopped.enabled 0 = true ∧ tileUe (stopped.core 0) 0 = none ∧
      (vget (State.core (withTiles stopped [(15, tileOf 0 0 [])]) 0).tiles 15 none).isSome = true := by
  refine ⟨?_, ?_⟩
  · unfold NamesRegister; decide +kernel
  · decide +kernel

/-- Physical memory up to its last word; writes due and writes ahead; a breakpoint at the PC. -/
theorem witness_DebuggerSteps_memory :
    ((aCmd 7 0 0 0x47_B7FF_FFF8).addr.toNat % 8 = 0 ∧ (aCmd 7 0 0 0x47_B7FF_FFF8).addr.toNat < 0x47_B800_0000) ∧
      (okVal (physLoad { stopped with ready := 0x0000_FFFF_0000_0000 } 0x47_B7FF_FFF8 8)).isSome = true ∧ (ctl []).dbg.tickSet = none ∧
      (ctl []).tick + 1024 ≤ (1024 : Word).toNat ∧
      (let s : State := { ctl [] with dbg := { Dbg.reset with writes := [(0, .phys 0, [1])] } }
       s.dbg.stopped = false ∧ s.dbg.writes = [(0, .phys 0, [1])] ∧ 0 ≤ s.tick) ∧
      (let s := (ctl []).setCore 0 { (ctl []).core 0 with bps := Vector.replicate 4 (some (0, 0x1000)) }
       atBreak s 0 15 = true ∧ s.dbg.atBp.contains (0, 15) = false ∧ s.dbg.stopReq = none) := by decide +kernel

/-- A control context that waits in MRECV, and one whose load waits on a queue, at their words in inline code. -/
def unretired (w : W32) (x : Ctx) : State := State.reset.setCtx 0 0 { x with pc := 0xFFFF_FFFF_FFFF_FF00, code := [w] }

theorem witness_DebuggerSteps_open :
    (let s := unretired 33555380 { ctxWith [] with st := .waiting, wait := .mrecv 3 }
     (s.ctx 0 0).stall = none ∧ (s.ctx 0 0).st = .waiting ∧ (s.ctx 0 0).wait = .mrecv 3 ∧
       words (fetchWord s 0 0 (s.ctx 0 0).pc) = some [33555380]) ∧
    (let s := unretired 33621320 { ctxWith [] with stall := some 3 }
     (s.ctx 0 0).stall ≠ none ∧ words (fetchWord s 0 0 (s.ctx 0 0).pc) = some [33621320] ∧
       words (fetchWords s 0 0 (s.ctx 0 0).pc (lenOf 33621320)) = some [33621320] ∧
       decodeIn queueRows (0 != 15) 33621320 = .ok (.ldl64 2 0 4 5) 1) ∧
    ((ctl []).ctx 0 15).stall = none ∧ ((ctl []).ctx 0 15).st ≠ .waiting := by decide +kernel

/-- What holds a latch open: TCWAIT and JOIN that wait, an MRECV that does not; a read of the metadata region and of a hole. -/
theorem witness_DebuggerSteps_latches :
    (let s := unretired 0x0000_40B0 { ctxWith [] with st := .waiting, wait := .tcwait 0 1 }
     (s.ctx 0 0).stall = none ∧ words (fetchWord s 0 0 (s.ctx 0 0).pc) = some [0x0000_40B0] ∧ 0x0000_40B0 / 2 ^ 2 % 2 ^ 6 = 0x2C ∧
       0x0000_40B0 / 2 ^ 26 % 2 ^ 6 = 0 ∧ 0x0000_40B0 / 2 ^ 14 % 2 ^ 6 = 1) ∧
    (let s := unretired 0x0800_40B4 { ctxWith [] with wait := .joined 0x1000 }
     (s.ctx 0 0).stall = none ∧ words (fetchWord s 0 0 (s.ctx 0 0).pc) = some [0x0800_40B4] ∧ 0x0800_40B4 / 2 ^ 2 % 2 ^ 6 = 0x2D ∧
       0x0800_40B4 / 2 ^ 26 % 2 ^ 6 = 2) ∧
    (let s := unretired 33555380 { ctxWith [] with wait := .mrecv 3, given := some 5 }
     (s.ctx 0 0).wait = .mrecv 3 ∧ (s.ctx 0 0).given = some 5 ∧ 33555380 / 2 ^ 2 % 2 ^ 6 = 0x2D ∧ 33555380 / 2 ^ 26 % 2 ^ 6 = 0) ∧
    (33621320 / 2 ^ 14 % 2 ^ 6 ≠ 0x30 ∧ 33621320 / 2 ^ 14 % 2 ^ 6 ≠ 0x31) ∧
    (regionOf 0x47_B800_0000 = .metadata ∧ (aCmd 7 0 0 0x47_B800_0000).addr.toNat % 8 = 0 ∧
      DbgCmd.phys (aCmd 7 0 0 0x47_B800_0000) = true) := by decide +kernel

/-- SHAKE256, 512 bits, of the three bytes "abc": the published example of FIPS 202 (48 33 66 60 … e7 51 e4), byte 0 in bits 7:0. -/
theorem test_shake256 : shake256 [0x61, 0x62, 0x63]
    = 0xe451e70188bd06eb4f2aa162e426879faa1f7e52c04457c786536a18ef5ba1d539578be737ea944feee1f1f83045b48d4d11c40c0863681c77a8601360663348 := by
  decide +kernel

end Sys2Proof.Tests
end

/-! PROOFS. Integer instructions of two sources (R195 to R197): what each of the model's result functions gives, then the one shape in
which all of them retire. -/

namespace Sys2Proof.Claims

open Sys2Proof.Machine

/-! ### Shift amounts and fields -/

theorem amount_eq (y : Word) : amount y = y.toNat % 64 := by
  simp [amount, wfld, fld]

theorem fieldPos_eq (y : Word) : fieldPos y = y.toNat % 64 := by
  simp [fieldPos, wfld, fld]

theorem fieldLen_eq (y : Word) : fieldLen y = lenOfField y := by
  simp [fieldLen, lenOfField, wfld, fld]

theorem fieldOf_eq (x y : Word) : fieldOf x y = fieldIn x y := by
  simp only [fieldOf, fieldIn, fieldPos_eq, fieldLen_eq]

theorem lenOfField_le (y : Word) : lenOfField y ≤ 64 := Nat.min_le_right ..

theorem fieldIn_lt (x y : Word) : fieldIn x y < 2 ^ lenOfField y := Nat.mod_lt _ (Nat.two_pow_pos _)

/-! ### Differences and logic -/

theorem toNat_sub_add (x y : Word) : ((x - y).toNat + y.toNat) % 2 ^ 64 = x.toNat := by
  rw [← BitVec.toNat_add, BitVec.sub_add_cancel]

theorem getLsbD_and_not (x y : Word) (i : Nat) (hi : i < 64) : (x &&& ~~~y).getLsbD i = (x.getLsbD i && !y.getLsbD i) := by
  simp [hi]

/-! ### Results of shifts, products, extrema and fields -/

theorem toNat_shiftLeft_amount (x y : Word) : (x <<< amount y).toNat = x.toNat * 2 ^ (y.toNat % 64) % 2 ^ 64 := by
  rw [BitVec.toNat_shiftLeft, Nat.shiftLeft_eq, amount_eq]

theorem toNat_ushiftRight_amount (x y : Word) : (x >>> amount y).toNat = x.toNat / 2 ^ (y.toNat % 64) := by
  rw [BitVec.toNat_ushiftRight, Nat.shiftRight_eq_div_pow, amount_eq]

theorem toInt_sshiftRight_amount (x y : Word) : (x.sshiftRight (amount y)).toInt = x.toInt / 2 ^ (y.toNat % 64) := by
  rw [BitVec.toInt_sshiftRight, Int.shiftRight_eq_div_pow, amount_eq]; rfl

/-- A rotation to the right takes bit i from bit i + n, counted around. -/
theorem getLsbD_rotateRight_amount (x y : Word) (i : Nat) (hi : i < 64) :
    (x.rotateRight (amount y)).getLsbD i = x.getLsbD ((i + y.toNat % 64) % 64) := by
  have hn : y.toNat % 64 < 64 := Nat.mod_lt _ (by decide)
  rw [amount_eq, BitVec.getLsbD_rotateRight, Nat.mod_mod]
  generalize y.toNat % 64 = n at hn ⊢
  by_cases h : i < 64 - n
  · rw [decide_eq_true h, cond_true, Nat.mod_eq_of_lt (by omega), Nat.add_comm]
  · have e : (i + n) % 64 = i - (64 - n) := by omega
    simp [h, e, hi]

/-- The product of two signed words lies within 2^126 of zero, so its upper half is a signed word. -/
theorem toInt_mulhS (x y : Word) : (mulhS x y).toInt = x.toInt * y.toInt / 2 ^ 64 := by
  have lo : -2 ^ 126 ≤ x.toInt * y.toInt := by simpa using BitVec.le_toInt_mul_toInt (x := x) (y := y)
  have hi : x.toInt * y.toInt ≤ 2 ^ 126 := BitVec.toInt_mul_toInt_le
  rw [mulhS, BitVec.toInt_ofInt_eq_self] <;> omega

theorem toNat_mulhU (x y : Word) : (mulhU x y).toNat = x.toNat * y.toNat / 2 ^ 64 := by
  have h : x.toNat * y.toNat < 2 ^ 64 * 2 ^ 64 := Nat.mul_lt_mul'' x.isLt y.isLt
  rw [mulhU, BitVec.toNat_ofNat, Nat.mod_eq_of_lt (Nat.div_lt_of_lt_mul h)]

theorem toInt_min (x y : Word) : (if y.slt x then y else x).toInt = min x.toInt y.toInt := by
  simp only [BitVec.slt_eq_decide, decide_eq_true_eq]
  split <;> omega

theorem toNat_min (x y : Word) : (if y.ult x then y else x).toNat = min x.toNat y.toNat := by
  simp only [BitVec.ult_eq_decide, decide_eq_true_eq]
  split <;> omega

theorem toInt_max (x y : Word) : (if x.slt y then y else x).toInt = max x.toInt y.toInt := by
  simp only [BitVec.slt_eq_decide, decide_eq_true_eq]
  split <;> omega

theorem toNat_max (x y : Word) : (if x.ult y then y else x).toNat = max x.toNat y.toNat := by
  simp only [BitVec.ult_eq_decide, decide_eq_true_eq]
  split <;> omega

theorem toNat_extU (x y : Word) : (extU x y).toNat = fieldIn x y := by
  have h : fieldIn x y < 2 ^ 64 := Nat.lt_of_lt_of_le (fieldIn_lt x y) (Nat.pow_le_pow_right (by decide) (lenOfField_le y))
  rw [extU, fieldOf_eq, BitVec.toNat_ofNat, Nat.mod_eq_of_lt h]

/-- The two's-complement reading of a code of `w` bits. -/
theorem intOf_signed (w c : Nat) (h : c < 2 ^ w) : intOf true w c = if 2 ^ (w - 1) ≤ c then (c : Int) - 2 ^ w else c := by
  simp [intOf, Nat.mod_eq_of_lt h]

/-- The signed reading of a field of 1 to 64 bits is a signed word: its sign bit is worth at most 2^63. -/
theorem toInt_ofInt_intOf (w c : Nat) (h0 : w ≠ 0) (h64 : w ≤ 64) (h : c < 2 ^ w) :
    (BitVec.ofInt 64 (intOf true w c)).toInt = intOf true w c := by
  obtain ⟨n, rfl⟩ := Nat.exists_eq_succ_of_ne_zero h0
  have hn : 2 ^ n ≤ 2 ^ 63 := Nat.pow_le_pow_right (by decide) (by omega)
  have hw : (2 : Int) ^ (n + 1) = 2 * (2 ^ n : Nat) := by rw [Int.pow_succ, Int.mul_comm, Int.natCast_pow]; rfl
  rw [intOf_signed _ _ h, Nat.succ_eq_add_one, hw, Nat.add_sub_cancel]
  rw [Nat.succ_eq_add_one, Nat.pow_succ] at h
  apply BitVec.toInt_ofInt_eq_self (by decide) <;> split <;> omega

theorem toInt_extS (x y : Word) : (extS x y).toInt =
    if lenOfField y ≠ 0 ∧ 2 ^ (lenOfField y - 1) ≤ fieldIn x y then (fieldIn x y : Int) - 2 ^ lenOfField y else fieldIn x y := by
  have hf := fieldIn_lt x y
  rw [extS, fieldLen_eq, fieldOf_eq]
  by_cases h0 : lenOfField y = 0
  · have hz : fieldIn x y = 0 := by simpa [h0] using hf
    simp [h0, hz]
  · rw [if_neg h0, toInt_ofInt_intOf _ _ h0 (lenOfField_le y) hf, intOf_signed _ _ hf]
    simp only [ne_eq, h0, not_false_eq_true, true_and]

/-! ### Carry-less products (R197) -/

/-- Whether bit `j` of `y` and bit `i - j` of `x`, whose positions add up to `i`, are both one. -/
def onePair (x y : Word) (i j : Nat) : Bool := decide (j ≤ i) && y.getLsbD j && x.getLsbD (i - j)

theorem oddPairs_eq (x y : Word) (i : Nat) : oddPairs x y i = (((List.range 64).filter (onePair x y i)).length % 2 == 1) := rfl

/-- One more element flips the parity of a filtered list's length exactly where it is kept. -/
theorem odd_length_filter_cons (f : Nat → Bool) (j : Nat) (js : List Nat) :
    (((j :: js).filter f).length % 2 == 1) = (f j ^^ ((js.filter f).length % 2 == 1)) := by
  cases hj : f j
  · simp [hj]
  · rcases Nat.mod_two_eq_zero_or_one (js.filter f).length with h | h <;> simp [hj, Nat.add_mod, h]

/-- Adding `x`, shifted left by `j`, where bit `j` of `y` is one, flips the bits `i` that the two make a pair for. -/
theorem getLsbD_clmul_add (x y : Word) (i j : Nat) (hi : i < 128) (p : BitVec 128) :
    (if y.getLsbD j then p ^^^ ((x.setWidth 128) <<< j) else p).getLsbD i = (p.getLsbD i ^^ onePair x y i j) := by
  cases hj : y.getLsbD j
  · simp [onePair, hj]
  · by_cases h : j ≤ i
    · simp [onePair, hj, hi, h, Nat.not_lt.mpr h]
    · simp [onePair, hj, h, Nat.lt_of_not_le h]

/-- So the sum of the shifted copies has a one at bit `i` where the number of pairs is odd. -/
theorem getLsbD_foldl_clmul (x y : Word) (i : Nat) (hi : i < 128) (js : List Nat) (p : BitVec 128) :
    (js.foldl (fun p j => if y.getLsbD j then p ^^^ ((x.setWidth 128) <<< j) else p) p).getLsbD i =
      (p.getLsbD i ^^ ((js.filter (onePair x y i)).length % 2 == 1)) := by
  induction js generalizing p with
  | nil => simp
  | cons j js ih => rw [List.foldl_cons, ih, getLsbD_clmul_add x y i j hi, odd_length_filter_cons, Bool.xor_assoc]

theorem getLsbD_clmulFull (x y : Word) (i : Nat) (hi : i < 128) : (clmulFull x y).getLsbD i = oddPairs x y i := by
  rw [clmulFull, getLsbD_foldl_clmul x y i hi, oddPairs_eq]
  simp

theorem getLsbD_clmulLow (x y : Word) (i : Nat) (hi : i < 64) : ((clmulFull x y).setWidth 64).getLsbD i = oddPairs x y i := by
  rw [BitVec.getLsbD_setWidth, getLsbD_clmulFull x y i (by omega), decide_eq_true hi, Bool.true_and]

theorem getLsbD_clmulHigh (x y : Word) (i : Nat) (hi : i < 64) :
    ((clmulFull x y >>> 64).setWidth 64).getLsbD i = oddPairs x y (64 + i) := by
  rw [BitVec.getLsbD_setWidth, BitVec.getLsbD_ushiftRight, getLsbD_clmulFull x y _ (by omega), decide_eq_true hi, Bool.true_and]

/-! ### The shape of an instruction -/

/-- What the obligation says of one row of the table. -/
def TwoSource.Completes (e : TwoSource) : Prop :=
  ∀ (d a b : Nat) (s : State), Stands s → Admits s e.since →
    ∃ t r, exec (e.ins d a b) s = .next t ∧ e.rel (operand s.cur a) (operand s.cur b) r ∧
      WritesScalar s t 1 d r (some a) (some b)

/-- An instruction whose class check passes retires with its function's value in d. -/
theorem binOp_writesScalar (f : Word → Word → Word) (k : Cls) (d a b : Nat) (s : State) (h : Stands s) (hk : k.trap s = none) :
    ∃ t, binOp f k d a b s = .next t ∧ WritesScalar s t 1 d (f (operand s.cur a) (operand s.cur b)) (some a) (some b) :=
  ⟨_, issue_ok hk rfl, by rw [← operand_eq, ← operand_eq]; exact writesScalar_of s 1 d _ _ _ h⟩

/-- A row holds where its instruction is a `binOp` whose class admits it and whose function gives the row's result. -/
theorem TwoSource.Completes.of_binOp {e : TwoSource} (f : Word → Word → Word) (k : Cls)
    (hexec : ∀ d a b s, exec (e.ins d a b) s = binOp f k d a b s) (hk : ∀ s, Admits s e.since → k.trap s = none)
    (hrel : ∀ x y, e.rel x y (f x y)) : e.Completes := by
  intro d a b s hs ha
  obtain ⟨t, ht, hw⟩ := binOp_writesScalar f k d a b s hs (hk s ha)
  exact ⟨t, _, (hexec d a b s).trans ht, hrel _ _, hw⟩

/-- A row of the base version. -/
theorem TwoSource.Completes.of_base {e : TwoSource} (f : Word → Word → Word)
    (hexec : ∀ d a b s, exec (e.ins d a b) s = binOp f .base d a b s) (hrel : ∀ x y, e.rel x y (f x y)) : e.Completes :=
  .of_binOp f .base hexec (fun s _ => Cls.base_trap s) hrel

/-- A row of a later minor version (R185). -/
theorem TwoSource.Completes.of_since {e : TwoSource} (f : Word → Word → Word) (n : Nat) (hn : n ≤ e.since)
    (hexec : ∀ d a b s, exec (e.ins d a b) s = binOp f (.since3 n) d a b s) (hrel : ∀ x y, e.rel x y (f x y)) : e.Completes :=
  .of_binOp f (.since3 n) hexec (fun s h => Cls.since3_trap s n (Nat.le_trans hn h)) hrel

/-- Settles O7: every row's instruction is a `binOp`, and the result its function gives is the row's. -/
theorem integerTwoSourceResults : Obligations.IntegerTwoSourceResults := by
  show ∀ e ∈ twoSource, e.Completes
  simp only [twoSource, List.forall_mem_cons]
  refine ⟨?add, ?sub, ?and, ?or, ?xor, ?andn, ?sll, ?srl, ?sra, ?ror, ?mul, ?mulhI64, ?mulhN64, ?minI64, ?minN64, ?maxI64,
    ?maxN64, ?clmul, ?clmulh, ?extN64, ?extI64, List.forall_mem_nil _⟩
  case add => exact .of_base (fun x y => x + y) (fun _ _ _ _ => rfl) BitVec.toNat_add
  case sub => exact .of_base (fun x y => x - y) (fun _ _ _ _ => rfl) toNat_sub_add
  case and => exact .of_base (fun x y => x &&& y) (fun _ _ _ _ => rfl) fun _ _ _ _ => BitVec.getLsbD_and
  case or => exact .of_base (fun x y => x ||| y) (fun _ _ _ _ => rfl) fun _ _ _ _ => BitVec.getLsbD_or
  case xor => exact .of_base (fun x y => x ^^^ y) (fun _ _ _ _ => rfl) fun _ _ _ _ => BitVec.getLsbD_xor
  case andn => exact .of_base (fun x y => x &&& ~~~y) (fun _ _ _ _ => rfl) getLsbD_and_not
  case sll => exact .of_base (fun x y => x <<< amount y) (fun _ _ _ _ => rfl) toNat_shiftLeft_amount
  case srl => exact .of_base (fun x y => x >>> amount y) (fun _ _ _ _ => rfl) toNat_ushiftRight_amount
  case sra => exact .of_base (fun x y => x.sshiftRight (amount y)) (fun _ _ _ _ => rfl) toInt_sshiftRight_amount
  case ror => exact .of_base (fun x y => x.rotateRight (amount y)) (fun _ _ _ _ => rfl) getLsbD_rotateRight_amount
  case mul => exact .of_base (fun x y => x * y) (fun _ _ _ _ => rfl) BitVec.toNat_mul
  case mulhI64 => exact .of_base mulhS (fun _ _ _ _ => rfl) toInt_mulhS
  case mulhN64 => exact .of_base mulhU (fun _ _ _ _ => rfl) toNat_mulhU
  case minI64 => exact .of_base (fun x y => if y.slt x then y else x) (fun _ _ _ _ => rfl) toInt_min
  case minN64 => exact .of_base (fun x y => if y.ult x then y else x) (fun _ _ _ _ => rfl) toNat_min
  case maxI64 => exact .of_base (fun x y => if x.slt y then y else x) (fun _ _ _ _ => rfl) toInt_max
  case maxN64 => exact .of_base (fun x y => if x.ult y then y else x) (fun _ _ _ _ => rfl) toNat_max
  case clmul =>
    exact .of_since (fun x y => (clmulFull x y).setWidth 64) 1 (Nat.le_refl 1) (fun _ _ _ _ => rfl) getLsbD_clmulLow
  case clmulh =>
    exact .of_since (fun x y => (clmulFull x y >>> 64).setWidth 64) 1 (Nat.le_refl 1) (fun _ _ _ _ => rfl) getLsbD_clmulHigh
  case extN64 => exact .of_base extU (fun _ _ _ _ => rfl) toNat_extU
  case extI64 => exact .of_base extS (fun _ _ _ _ => rfl) toInt_extS

end Sys2Proof.Claims

/-! PROOFS. Run lists by their elements (R104, R227 to R233), the shape of an instruction with a mask result, and the conversions of
masks (R248 to R250). -/

namespace Sys2Proof.Machine

/-! ### Lengths and elements of run lists (R227) -/

@[simp] theorem runsLen_nil {α : Type} : runsLen ([] : Runs α) = 0 := rfl

@[simp] theorem runsLen_cons {α : Type} (x : α × Nat) (r : Runs α) : runsLen (x :: r) = x.2 + runsLen r := by
  simp [runsLen]

@[simp] theorem runsLen_append {α : Type} (r t : Runs α) : runsLen (r ++ t) = runsLen r + runsLen t := by
  simp [runsLen]

@[simp] theorem runElem_nil {α : Type} (e : Nat) : runElem e ([] : Runs α) = none := rfl

@[simp] theorem runElem_cons {α : Type} (e : Nat) (x : α × Nat) (r : Runs α) :
    runElem e (x :: r) = if e < x.2 then some x.1 else runElem (e - x.2) r := rfl

theorem runElem_append {α : Type} (r t : Runs α) (e : Nat) :
    runElem e (r ++ t) = if e < runsLen r then runElem e r else runElem (e - runsLen r) t := by
  induction r generalizing e with
  | nil => simp
  | cons x r ih =>
    rw [List.cons_append, runElem_cons, runElem_cons, runsLen_cons, ih]
    by_cases h : e < x.2
    · simp [h, Nat.lt_add_right _ h]
    · simp only [if_neg h, Nat.sub_add_eq, Nat.sub_lt_iff_lt_add' (Nat.le_of_not_lt h)]

/-- Runs that all have one value. -/
theorem runElem_of_forall_fst_eq {α : Type} (v : α) (r : Runs α) (h : ∀ x ∈ r, x.1 = v) (e : Nat) :
    runElem e r = if e < runsLen r then some v else none := by
  induction r generalizing e with
  | nil => simp
  | cons x r ih =>
    obtain ⟨hx, hr⟩ := List.forall_mem_cons.mp h
    rw [runElem_cons, runsLen_cons, hx, ih hr]
    by_cases h : e < x.2
    · simp [h, Nat.lt_add_right _ h]
    · simp only [if_neg h, Nat.sub_lt_iff_lt_add' (Nat.le_of_not_lt h)]

/-- Runs of one element each. -/
theorem runElem_map_one {α β : Type} (f : β → α) (l : List β) (e : Nat) :
    runElem e (l.map fun i => (f i, 1)) = l[e]?.map f := by
  induction l generalizing e with
  | nil => rfl
  | cons i l ih => cases e <;> simp [ih]

theorem runsLen_map_one {α β : Type} (f : β → α) (l : List β) : runsLen (l.map fun i => (f i, 1)) = l.length := by
  induction l with
  | nil => rfl
  | cons i l ih => rw [List.map_cons, runsLen_cons, ih, List.length_cons, Nat.add_comm]

theorem runsLen_replicate {α : Type} {k n : Nat} {x : α} : runsLen (List.replicate k (x, n)) = k * n := by
  rw [runsLen, List.map_replicate, List.sum_replicate_nat]

theorem length_le_runsLen {α : Type} (r : Runs α) (h : ∀ x ∈ r, x.2 ≠ 0) : r.length ≤ runsLen r := by
  induction r with
  | nil => simp
  | cons x r ih =>
    obtain ⟨hx, hr⟩ := List.forall_mem_cons.mp h
    have := ih hr
    rw [List.length_cons, runsLen_cons]
    omega

/-! ### The canonical form (R104) -/

theorem mem_chunks {α : Type} {x : α} {n : Nat} {y : α × Nat} (h : y ∈ chunks x n) : y.1 = x ∧ 1 ≤ y.2 ∧ y.2 ≤ 65536 := by
  rcases List.mem_append.mp h with h | h
  · rw [List.eq_of_mem_replicate h]
    exact ⟨rfl, Nat.succ_le_succ (Nat.zero_le _), Nat.le_refl _⟩
  · split at h
    · exact absurd h List.not_mem_nil
    · rw [List.mem_singleton.mp h]
      exact ⟨rfl, by omega, by omega⟩

@[simp] theorem runsLen_chunks {α : Type} (x : α) (n : Nat) : runsLen (chunks x n) = n := by
  have hd := Nat.div_add_mod' n 65536
  rw [chunks, runsLen_append, runsLen_replicate]
  by_cases h : n % 65536 = 0
  · rw [if_pos h, runsLen_nil, ← h, hd]
  · rw [if_neg h, runsLen_cons, runsLen_nil, Nat.add_zero, hd]

theorem runElem_chunks {α : Type} (x : α) (n e : Nat) : runElem e (chunks x n) = if e < n then some x else none := by
  rw [runElem_of_forall_fst_eq x _ (fun _ h => (mem_chunks h).1), runsLen_chunks]

/-- The two ways a run joins the merged runs after it: it grows the first of them, of its own value, or it stands before them. -/
theorem mergeRuns_cons {α : Type} [DecidableEq α] (x : α × Nat) (r : Runs α) :
    (∃ n t, mergeRuns r = (x.1, n) :: t ∧ mergeRuns (x :: r) = (x.1, x.2 + n) :: t) ∨
      (mergeRuns (x :: r) = x :: mergeRuns r ∧ ∀ y ∈ (mergeRuns r).head?, x.1 ≠ y.1) := by
  obtain ⟨v, m⟩ := x
  rw [mergeRuns]
  cases mergeRuns r with
  | nil => exact .inr ⟨rfl, by simp⟩
  | cons y t =>
    obtain ⟨u, n⟩ := y
    by_cases h : v = u
    · subst h
      exact .inl ⟨n, t, rfl, if_pos rfl⟩
    · exact .inr ⟨if_neg h, by simpa using h⟩

theorem runsLen_mergeRuns {α : Type} [DecidableEq α] (r : Runs α) : runsLen (mergeRuns r) = runsLen r := by
  induction r with
  | nil => rfl
  | cons x r ih =>
    rcases mergeRuns_cons x r with ⟨n, t, hr, hm⟩ | ⟨hm, -⟩
    · rw [hr] at ih
      rw [hm, runsLen_cons, runsLen_cons, ← ih, runsLen_cons, Nat.add_assoc]
    · rw [hm, runsLen_cons, runsLen_cons, ih]

theorem runElem_mergeRuns {α : Type} [DecidableEq α] (r : Runs α) (e : Nat) : runElem e (mergeRuns r) = runElem e r := by
  induction r generalizing e with
  | nil => rfl
  | cons x r ih =>
    rcases mergeRuns_cons x r with ⟨n, t, hr, hm⟩ | ⟨hm, -⟩
    · rw [hm, runElem_cons, runElem_cons, ← ih, hr, runElem_cons]
      by_cases h : e < x.2
      · simp [h, Nat.lt_add_right _ h]
      · simp only [if_neg h, Nat.sub_add_eq, Nat.sub_lt_iff_lt_add' (Nat.le_of_not_lt h)]
    · rw [hm, runElem_cons, runElem_cons, ih]

theorem mergeRuns_ne_zero {α : Type} [DecidableEq α] (r : Runs α) (h : ∀ x ∈ r, x.2 ≠ 0) : ∀ x ∈ mergeRuns r, x.2 ≠ 0 := by
  induction r with
  | nil => exact h
  | cons x r ih =>
    obtain ⟨hx, hr⟩ := List.forall_mem_cons.mp h
    have ih := ih hr
    rcases mergeRuns_cons x r with ⟨n, t, ht, hm⟩ | ⟨hm, -⟩
    · rw [ht] at ih
      rw [hm]
      exact List.forall_mem_cons.mpr ⟨by simp [hx], (List.forall_mem_cons.mp ih).2⟩
    · rw [hm]
      exact List.forall_mem_cons.mpr ⟨hx, ih⟩

/-- Every element of a list stands in relation `R` to the one after it. -/
def Linked {α : Type} (R : α → α → Prop) : List α → Prop
  | [] => True
  | x :: l => (∀ y ∈ l.head?, R x y) ∧ Linked R l

theorem linked_append {α : Type} {R : α → α → Prop} {l m : List α} (hl : Linked R l) (hm : Linked R m)
    (h : ∀ x ∈ l, ∀ y ∈ m.head?, R x y) : Linked R (l ++ m) := by
  induction l with
  | nil => exact hm
  | cons x l ih =>
    obtain ⟨hx, hl⟩ := hl
    obtain ⟨hxm, hlm⟩ := List.forall_mem_cons.mp h
    refine ⟨?_, ih hl hlm⟩
    cases l with
    | nil => exact hxm
    | cons z l => exact hx

theorem Linked.rel {α : Type} {R : α → α → Prop} {l m : List α} {x y : α} (h : Linked R (l ++ x :: y :: m)) : R x y := by
  induction l with
  | nil => exact h.1 y rfl
  | cons z l ih => exact ih h.2

/-- Merged runs that stand together differ. -/
theorem linked_mergeRuns {α : Type} [DecidableEq α] (r : Runs α) : Linked (fun x y => x.1 ≠ y.1) (mergeRuns r) := by
  induction r with
  | nil => exact trivial
  | cons x r ih =>
    rcases mergeRuns_cons x r with ⟨n, t, ht, hm⟩ | ⟨hm, hne⟩
    · rw [ht] at ih
      rw [hm]
      exact ih
    · rw [hm]
      exact ⟨hne, ih⟩

@[simp] theorem runsLen_canon {α : Type} [DecidableEq α] (r : Runs α) : runsLen (canon r) = runsLen r := by
  have h (l : Runs α) : runsLen (l.flatMap fun x => chunks x.1 x.2) = runsLen l := by
    induction l with
    | nil => rfl
    | cons x l ih => rw [List.flatMap_cons, runsLen_append, runsLen_chunks, runsLen_cons, ih]
  rw [canon, h, runsLen_mergeRuns]

@[simp] theorem runElem_canon {α : Type} [DecidableEq α] (r : Runs α) (e : Nat) : runElem e (canon r) = runElem e r := by
  have h (l : Runs α) (e : Nat) : runElem e (l.flatMap fun x => chunks x.1 x.2) = runElem e l := by
    induction l generalizing e with
    | nil => rfl
    | cons x l ih =>
      rw [List.flatMap_cons, runElem_append, runsLen_chunks, runElem_chunks, runElem_cons, ih]
      by_cases h : e < x.2
      · rw [if_pos h, if_pos h, if_pos h]
      · rw [if_neg h, if_neg h]
  rw [canon, h, runElem_mergeRuns]

theorem canon_len {α : Type} [DecidableEq α] (r : Runs α) : ∀ x ∈ canon r, 1 ≤ x.2 ∧ x.2 ≤ 65536 := by
  intro x hx
  obtain ⟨y, -, hy⟩ := List.mem_flatMap.mp hx
  exact (mem_chunks hy).2

/-- The canonical form has no more runs than elements. -/
theorem length_canon_le {α : Type} [DecidableEq α] (r : Runs α) : (canon r).length ≤ runsLen r := by
  rw [← runsLen_canon]
  exact length_le_runsLen _ fun x hx => Nat.one_le_iff_ne_zero.mp (canon_len r x hx).1

/-- Between runs of one value in canonical form, the earlier is full. -/
def FullBefore {α : Type} (x y : α × Nat) : Prop := x.1 = y.1 → x.2 = 65536

theorem linked_replicate {α : Type} (x : α) (k : Nat) : Linked FullBefore (List.replicate k (x, 65536)) := by
  induction k with
  | zero => exact trivial
  | succ k ih => exact ⟨fun _ _ _ => rfl, ih⟩

theorem linked_chunks {α : Type} (x : α) (n : Nat) : Linked FullBefore (chunks x n) := by
  refine linked_append (linked_replicate x _) ?_ fun y hy _ _ _ => by rw [List.eq_of_mem_replicate hy]
  by_cases h : n % 65536 = 0
  · rw [if_pos h]
    exact trivial
  · rw [if_neg h]
    exact ⟨fun _ hy => (nomatch hy), trivial⟩

/-- The chunks of a run list begin with the value of its first run. -/
theorem fst_head?_flatMap_chunks {α : Type} (y : α × Nat) (r : Runs α) (h : y.2 ≠ 0) :
    ∀ w ∈ ((y :: r).flatMap fun x => chunks x.1 x.2).head?, w.1 = y.1 := by
  intro w hw
  rw [List.flatMap_cons, List.head?_append] at hw
  cases hc : chunks y.1 y.2 with
  | nil => exact absurd (runsLen_chunks y.1 y.2) (by rw [hc]; exact Ne.symm h)
  | cons z l =>
    rw [hc, List.head?_cons, Option.some_or] at hw
    rw [← Option.some.inj hw]
    exact (mem_chunks (hc ▸ List.mem_cons_self)).1

/-- Where runs that stand together differ, so do the chunks of two of them that meet. -/
theorem linked_flatMap_chunks {α : Type} (r : Runs α) (hr : ∀ x ∈ r, x.2 ≠ 0) (h : Linked (fun x y => x.1 ≠ y.1) r) :
    Linked FullBefore (r.flatMap fun x => chunks x.1 x.2) := by
  induction r with
  | nil => exact trivial
  | cons x r ih =>
    obtain ⟨-, hr⟩ := List.forall_mem_cons.mp hr
    obtain ⟨hx, h⟩ := h
    refine linked_append (linked_chunks x.1 x.2) (ih hr h) fun u hu w hw huw => ?_
    cases r with
    | nil => exact nomatch hw
    | cons y r =>
      have hwy := fst_head?_flatMap_chunks y r (hr y List.mem_cons_self) w hw
      exact absurd ((mem_chunks hu).1.symm.trans (huw.trans hwy)) (hx y rfl)

theorem linked_canon {α : Type} [DecidableEq α] (r : Runs α) (h : ∀ x ∈ r, x.2 ≠ 0) : Linked FullBefore (canon r) :=
  linked_flatMap_chunks _ (mergeRuns_ne_zero r h) (linked_mergeRuns r)

/-! ### One check before an effect -/

theorem Out.first_trapIf (s : State) (b : Bool) (t : Trap) (f : Out) :
    Out.first s [trapIf b t] f = if b then .trap t s else f := by
  cases b <;> rfl

/-! ### Mask registers after a write (R228) -/

theorem Ctx.vget_k_setK (c : Ctx) (n i : Nat) (r : List KRun) (h : i < 8) :
    vget (c.setK n r).k i [] = if i = n ∧ n ≠ 0 then r else vget c.k i [] := by
  unfold Ctx.setK
  by_cases h0 : n = 0
  · simp [h0]
  · simp only [if_neg h0, vget_set]
    by_cases hi : n = i
    · simp [hi, h, hi ▸ h0]
    · simp [hi, Ne.symm hi]

theorem Ctx.vget_kw_setK (c : Ctx) (n i : Nat) (r : List KRun) (h : i < 8) :
    vget (c.setK n r).kw i 0 = if i = n ∧ n ≠ 0 then c.now else vget c.kw i 0 := by
  unfold Ctx.setK
  by_cases h0 : n = 0
  · simp [h0]
  · simp only [if_neg h0, vget_set]
    by_cases hi : n = i
    · simp [hi, h, hi ▸ h0]
    · simp [hi, Ne.symm hi]

/-! ### Mask results (R228, R232, R233) -/

theorem maskResult_eq (r : Runs Bool) : maskResult r =
    if 128 < (canon r).length then .error (runOvf (canon r).length) else .ok ((canon r).map fun x => ⟨x.1, x.2⟩) := rfl

theorem map_of_maskResult {r : Runs Bool} {x : List KRun} (h : maskResult r = .ok x) :
    (x.map fun k => (k.val, k.len)) = canon r := by
  rw [maskResult_eq] at h
  split at h
  · cases h
  · cases h
    simp [Function.comp_def]

theorem maskResult_error {r : Runs Bool} {t : Trap} (h : maskResult r = .error t) :
    128 < (canon r).length ∧ t = Trap.plain 0x04 (min (canon r).length 511) := by
  rw [maskResult_eq] at h
  split at h
  next hlt => cases h; exact ⟨hlt, rfl⟩
  next => cases h

theorem exists_maskResult {r : Runs Bool} (h : (canon r).length ≤ 128) : ∃ x, maskResult r = .ok x :=
  ⟨_, if_neg (Nat.not_lt.mpr h)⟩

/-! ### True elements, counted -/

/-- The number of true elements before position `m`. -/
def truesBelow (r : Runs Bool) (m : Nat) : Nat := (List.range m).countP fun e => (runElem e r).getD false

@[simp] theorem truesBelow_zero (r : Runs Bool) : truesBelow r 0 = 0 := rfl

theorem truesBelow_cons (x : Bool × Nat) (r : Runs Bool) (m : Nat) :
    truesBelow (x :: r) m = (if x.1 then min m x.2 else 0) + truesBelow r (m - x.2) := by
  have hfirst (k : Nat) (hk : k ≤ x.2) : truesBelow (x :: r) k = if x.1 then k else 0 := by
    have hel : ∀ e ∈ List.range k, (runElem e (x :: r)).getD false = x.1 := fun e he => by
      rw [runElem_cons, if_pos (Nat.lt_of_lt_of_le (List.mem_range.mp he) hk), Option.getD_some]
    by_cases hx : x.1 = true
    · rw [if_pos hx, truesBelow, List.countP_eq_length.mpr fun e he => (hel e he).trans hx, List.length_range]
    · rw [if_neg hx, truesBelow, List.countP_eq_zero.mpr fun e he => by rwa [hel e he]]
  by_cases h : m ≤ x.2
  · rw [hfirst m h, Nat.min_eq_left h, Nat.sub_eq_zero_of_le h, truesBelow_zero, Nat.add_zero]
  · obtain ⟨k, rfl⟩ := Nat.exists_eq_add_of_le (Nat.le_of_not_le h)
    have hshift (e : Nat) : runElem (x.2 + e) (x :: r) = runElem e r := by
      rw [runElem_cons, if_neg (Nat.not_lt.mpr (Nat.le_add_right ..)), Nat.add_sub_cancel_left]
    have hsplit : truesBelow (x :: r) (x.2 + k) = truesBelow (x :: r) x.2 + truesBelow r k := by
      simp only [truesBelow, List.range_add, List.countP_append, List.countP_map, Function.comp_def, hshift]
    rw [hsplit, hfirst _ (Nat.le_refl _), Nat.min_eq_right (Nat.le_add_right ..), Nat.add_sub_cancel_left]

theorem trueCount_eq (r : Runs Bool) : trueCount r = truesBelow r (runsLen r) := by
  induction r with
  | nil => rfl
  | cons x r ih =>
    rw [truesBelow_cons, runsLen_cons, Nat.min_eq_right (Nat.le_add_right ..), Nat.add_sub_cancel_left, ← ih, trueCount,
      List.map_cons, List.sum_cons]
    rfl

/-! ### The running parity (R249) -/

@[simp] theorem runsLen_parityRuns (par : Bool) (r : Runs Bool) : runsLen (parityRuns par r) = runsLen r := by
  fun_induction parityRuns par r with
  | case1 => rfl
  | case2 par n r ih => simp [ih]
  | case3 par n r ih => simp [runsLen_map_one, ih]

theorem parityRuns_ne_zero (par : Bool) (r : Runs Bool) (h : ∀ x ∈ r, x.2 ≠ 0) : ∀ x ∈ parityRuns par r, x.2 ≠ 0 := by
  fun_induction parityRuns par r with
  | case1 => exact h
  | case2 par n r ih =>
    obtain ⟨hn, hr⟩ := List.forall_mem_cons.mp h
    exact List.forall_mem_cons.mpr ⟨hn, ih hr⟩
  | case3 par n r ih =>
    refine List.forall_mem_append.mpr ⟨fun x hx => ?_, ih (List.forall_mem_cons.mp h).2⟩
    obtain ⟨i, -, rfl⟩ := List.mem_map.mp hx
    exact Nat.one_ne_zero

/-- Each element of the running parity is the carry bit, flipped where the true elements up to and with it are odd in number. -/
theorem runElem_parityRuns (par : Bool) (r : Runs Bool) (e : Nat) (h : e < runsLen r) :
    runElem e (parityRuns par r) = some (par != decide (truesBelow r (e + 1) % 2 = 1)) := by
  fun_induction parityRuns par r generalizing e with
  | case1 => exact absurd h (Nat.not_lt_zero e)
  | case2 par n r ih =>
    rw [runElem_cons, truesBelow_cons]
    by_cases hn : e < n
    · simp [hn, Nat.sub_eq_zero_of_le (Nat.succ_le_of_lt hn)]
    · have hlt : e - n < runsLen r := by simp at h; omega
      simp [hn, ih _ hlt, Nat.sub_add_comm (Nat.le_of_not_lt hn)]
  | case3 par n r ih =>
    rw [runElem_append, runsLen_map_one, List.length_range, runElem_map_one, truesBelow_cons]
    by_cases hn : e < n
    · have hodd : (e % 2 == 0) = decide ((e + 1) % 2 = 1) := by
        rw [Bool.eq_iff_iff]
        simp
        omega
      simp [hn, Nat.succ_le_of_lt hn, Nat.sub_eq_zero_of_le (Nat.succ_le_of_lt hn), hodd]
    · have hlt : e - n < runsLen r := by simp at h; omega
      have hle : n ≤ e + 1 := by omega
      have hodd (k : Nat) : decide ((n + k) % 2 = 1) = ((n % 2 == 1) != decide (k % 2 = 1)) := by
        rcases Nat.mod_two_eq_zero_or_one n with p | p <;> rcases Nat.mod_two_eq_zero_or_one k with q | q <;>
          simp [Nat.add_mod, p, q]
      simp [hn, ih _ hlt, Nat.sub_add_comm (Nat.le_of_not_lt hn), Nat.min_eq_right hle, hodd]

/-! ### Bits gathered into a word (R250) -/

/-- The number whose bits below `n` are those of `f`. -/
def sumBits (f : Nat → Bool) (n : Nat) : Nat := ((List.range n).map fun j => if f j then 2 ^ j else 0).sum

theorem sumBits_succ (f : Nat → Bool) (n : Nat) : sumBits f (n + 1) = 2 ^ n * (f n).toNat + sumBits f n := by
  rw [sumBits, List.range_succ, List.map_append, List.sum_append, List.map_singleton, List.sum_singleton, Nat.add_comm]
  cases f n <;> simp [sumBits]

theorem sumBits_lt (f : Nat → Bool) (n : Nat) : sumBits f n < 2 ^ n := by
  induction n with
  | zero => exact Nat.one_pos
  | succ n ih =>
    have hbit : 2 ^ n * (f n).toNat ≤ 2 ^ n * 1 := Nat.mul_le_mul_left _ (Bool.toNat_le _)
    rw [sumBits_succ, Nat.pow_succ]
    omega

theorem testBit_sumBits (f : Nat → Bool) (n i : Nat) : (sumBits f n).testBit i = (decide (i < n) && f i) := by
  induction n with
  | zero => simp [sumBits]
  | succ n ih =>
    rw [sumBits_succ, Nat.two_pow_add_eq_or_of_lt (sumBits_lt f n), Nat.testBit_or, ih, Nat.testBit_two_pow_mul,
      Nat.testBit_bool_toNat]
    rcases Nat.lt_trichotomy i n with h | rfl | h
    · simp [h, Nat.not_le.mpr h, Nat.lt_succ_of_lt h]
    · simp
    · have h1 : i - n ≠ 0 := by omega
      simp [h1, Nat.not_lt.mpr (Nat.le_of_lt h), Nat.not_lt.mpr (Nat.succ_le_of_lt h)]

theorem getLsbD_ofNat_sumBits (f : Nat → Bool) (j : Nat) (h : j < 64) : (BitVec.ofNat 64 (sumBits f 64)).getLsbD j = f j := by
  rw [BitVec.getLsbD_ofNat, testBit_sumBits, decide_eq_true h, Bool.true_and, Bool.true_and]

end Sys2Proof.Machine

namespace Sys2Proof.Claims

open Sys2Proof.Machine

/-! ### Masks by their elements (R228) -/

theorem lenK_eq (x : List KRun) : lenK x = runsLen (x.map fun k => (k.val, k.len)) := by
  simp [lenK, runsLen, Function.comp_def]

theorem elK_eq (x : List KRun) (e : Nat) : elK x e = (runElem e (x.map fun k => (k.val, k.len))).getD false := by
  induction x generalizing e with
  | nil => rfl
  | cons k x ih =>
    rw [elK, List.map_cons, runElem_cons, ih]
    split <;> rfl

/-- The length of k0 (R228). -/
theorem runsLen_k0 : runsLen (List.replicate 64 (true, 65536)) = 2 ^ 22 := runsLen_replicate

theorem maskLen_eq (c : Ctx) (a : Nat) : maskLen c a = runsLen (c.kruns a) := by
  unfold maskLen Ctx.kruns
  split
  · exact runsLen_k0.symm
  · exact lenK_eq _

theorem maskEl_eq (c : Ctx) (a e : Nat) : maskEl c a e = (runElem e (c.kruns a)).getD false := by
  unfold maskEl Ctx.kruns
  split
  · rw [runElem_of_forall_fst_eq true _ fun x hx => by rw [List.eq_of_mem_replicate hx]]
    rw [runsLen_k0]
    by_cases h : e < 2 ^ 22
    · simp only [h, decide_true, if_true, Option.getD_some]
    · simp only [h, decide_false, if_false, Option.getD_none]
  · exact elK_eq _ _

theorem length_filter_maskEl (c : Ctx) (a m : Nat) : ((List.range m).filter (maskEl c a)).length = truesBelow (c.kruns a) m := by
  rw [← List.countP_eq_length_filter, truesBelow]
  exact congrArg (fun q => List.countP q (List.range m)) (funext fun e => maskEl_eq c a e)

theorem trueCount_kruns (c : Ctx) (a : Nat) : trueCount (c.kruns a) = ((List.range (maskLen c a)).filter (maskEl c a)).length := by
  rw [trueCount_eq, length_filter_maskEl, maskLen_eq]

theorem kruns_ne_zero {c : Ctx} (h : Solid c) (a : Nat) (ha : a < 8) : ∀ x ∈ c.kruns a, x.2 ≠ 0 := by
  intro x hx
  unfold Ctx.kruns at hx
  split at hx
  · rw [List.eq_of_mem_replicate hx]
    exact Nat.succ_ne_zero _
  · obtain ⟨k, hk, rfl⟩ := List.mem_map.mp hx
    exact h.2 a ha k hk

/-! ### The canonical form of a result (R104, R232) -/

theorem canonicalRuns_canon {α : Type} [DecidableEq α] (r : Runs α) (h : ∀ x ∈ r, x.2 ≠ 0) : CanonicalRuns (canon r) :=
  ⟨canon_len r, fun _ _ _ _ hxy => (hxy ▸ linked_canon r h).rel⟩

/-- A mask result has the length and the elements of the runs it is made from, in canonical form where none of these is empty. -/
theorem maskResult_holds {c : Ctx} {r : Runs Bool} {x : List KRun} (h : maskResult r = .ok x) (hr : Solid c → ∀ y ∈ r, y.2 ≠ 0) :
    lenK x = runsLen r ∧ CanonicalK c x ∧ ∀ e, elK x e = (runElem e r).getD false := by
  have hx := map_of_maskResult h
  refine ⟨by rw [lenK_eq, hx, runsLen_canon], fun hs => ?_, fun e => by rw [elK_eq, hx, runElem_canon]⟩
  rw [hx]
  exact canonicalRuns_canon r (hr hs)

/-! ### The shape of an instruction with a mask result (R228, R233) -/

theorem writesMask_of (s : State) (words d : Nat) (r : List KRun) (x y : Option Nat) (h : Stands s) (P : List KRun → Prop) (hP : P r) :
    WritesMask s ((s.setCur ((s.cur.latched x y).setK d r)).retire words) words d P x y := by
  have q := cur_retire_setCur s ((s.cur.latched x y).setK d r) words h
  have hp : ((s.cur.latched x y).setK d r).pend = s.cur.pend := by simp
  refine ⟨?_, ⟨?_, ?_⟩, ?_, ?_, ?_, ?_, ?_, r, hP, ?_⟩
  · rw [← hp]
    refine retired_of s _ words h noOwn ?_ (fun r _ => by simp [noOwn, Ctx.latched]) (fun r _ => by simp [noOwn, Ctx.latched])
    unfold Ctx.setK
    split <;> rfl
  · rw [q, Ctx.retire_fields]; simp [latched_la]
  · rw [q, Ctx.retire_fields]; simp [latched_lb]
  · intro r hr
    rw [q, retire_sreg_eq _ _ _ hr, hp]
    simp [Ctx.sreg]
  · intro r hr
    rw [q, retire_vreg_eq _ _ _ hr, hp]
    simp [Ctx.vreg]
  · apply guardsSame_of _ _ _ h <;> simp
  · rw [q, Ctx.retire_fields]; simp
  · intro i hi
    rw [q, Ctx.retire_fields]
    exact Ctx.vget_kw_setK _ _ _ _ hi
  · intro i hi
    rw [q, Ctx.retire_fields]
    exact Ctx.vget_k_setK _ _ _ _ hi

/-- An instruction whose class check passes and whose mask result is within its limit retires with it in mask d. -/
theorem issue_setMask_ok {s : State} {k : Cls} {words d : Nat} {x y : Option Nat} {body : State → Out} {res : Except Trap (List KRun)}
    {r : List KRun} {P : List KRun → Prop} (h : Stands s) (hk : k.trap s = none)
    (hb : body s = setMask s (·.latched x y) d res) (hres : res = .ok r) (hP : P r) :
    ∃ t, issue s k words body = .next t ∧ WritesMask s t words d P x y :=
  ⟨_, issue_ok hk (by rw [hb, hres]; rfl), writesMask_of s words d r x y h P hP⟩

/-- One whose mask result is over its limit faults with FLT_RUNOVF (R233, R433). -/
theorem overflows_of_setMask {s : State} {i : Instr} {k : Cls} {words d : Nat} {x y : Option Nat} {body : State → Out} {r : Runs Bool}
    (hexec : exec i s = issue s k words body) (hk : k.trap s = none) (hb : body s = setMask s (·.latched x y) d (maskResult r)) :
    Overflows s 128 i (maskResult r) := by
  intro t ht
  obtain ⟨hlt, rfl⟩ := maskResult_error ht
  exact ⟨hexec.trans (issue_fault hk (by rw [hb, ht]; rfl)), _, hlt, rfl⟩

/-! ### The conversions (R248 to R250) -/

/-- An instruction whose class check passes and whose effect is a word in a scalar register retires with that word. -/
theorem exec_writesScalar {s : State} {i : Instr} {k : Cls} {words d : Nat} {x y : Option Nat} (w : State → Word) (h : Stands s)
    (hk : k.trap s = none)
    (hexec : exec i s = issue s k words fun s => .ok (s.setCur ((s.cur.latched x y).setS d (w s)))) :
    ∃ t, exec i s = .next t ∧ WritesScalar s t words d (w s) x y :=
  ⟨_, hexec.trans (issue_ok hk rfl), writesScalar_of s words d (w s) x y h⟩

theorem kpopc_writesScalar (d a : Nat) (p : Pfx) (s : State) (h : Stands s) :
    ∃ t, exec (.kpopc d a p) s = .next t ∧
      WritesScalar s t (prefixWords p) d (BitVec.ofNat 64 ((List.range (maskLen s.cur a)).filter (maskEl s.cur a)).length) none none := by
  rw [← trueCount_kruns]
  exact exec_writesScalar (fun s => BitVec.ofNat 64 (trueCount (s.cur.kruns a))) h (Cls.base_trap s) rfl

theorem klen_writesScalar (d a : Nat) (p : Pfx) (s : State) (h : Stands s) :
    ∃ t, exec (.klen d a p) s = .next t ∧ WritesScalar s t (prefixWords p) d (BitVec.ofNat 64 (maskLen s.cur a)) none none := by
  rw [maskLen_eq]
  exact exec_writesScalar (fun s => BitVec.ofNat 64 (runsLen (s.cur.kruns a))) h (Cls.base_trap s) rfl

/-- The word that KTOS gathers: 64 elements of mask `a` from element s[b] on. -/
def ktosWord (a b : Nat) (s : State) : Word :=
  BitVec.ofNat 64 (sumBits (fun j => (runElem ((s.cur.src b).toNat + j) (s.cur.kruns a)).getD false) 64)

theorem getLsbD_ktosWord (a b : Nat) (s : State) (j : Nat) (hj : j < 64) :
    (ktosWord a b s).getLsbD j = maskEl s.cur a ((operand s.cur b).toNat + j) := by
  rw [ktosWord, getLsbD_ofNat_sumBits _ j hj, maskEl_eq, operand_eq]

theorem ktos_writesScalar (d a b : Nat) (p : Pfx) (s : State) (h : Stands s) (hv : Admits s 1) :
    ∃ t w, exec (.ktos d a b p) s = .next t ∧ WritesScalar s t (prefixWords p) d w none (some b) ∧
      ∀ j, j < 64 → w.getLsbD j = maskEl s.cur a ((operand s.cur b).toNat + j) := by
  obtain ⟨t, ht, hw⟩ : ∃ t, exec (.ktos d a b p) s = .next t ∧ WritesScalar s t (prefixWords p) d (ktosWord a b s) none (some b) :=
    exec_writesScalar (ktosWord a b) h (Cls.since3_trap s 1 hv) rfl
  exact ⟨t, _, ht, hw, getLsbD_ktosWord a b s⟩

/-- What KPXOR does once its class check passes (R249). -/
def kpxorBody (d a b : Nat) (s : State) : Out :=
  Out.first s [trapIf (decide (511 < trueCount (s.cur.kruns a))) (runOvf 512)]
    (setMask s (·.latched none (some b)) d (maskResult (parityRuns (wbit (s.cur.src b) 0) (s.cur.kruns a))))

theorem exec_kpxor (d a b : Nat) (p : Pfx) (s : State) :
    exec (.kpxor d a b p) s = issue s (.since3 1) (prefixWords p) (kpxorBody d a b) := rfl

theorem kpxorBody_of_gt {a : Nat} {s : State} (h : 511 < trueCount (s.cur.kruns a)) (d b : Nat) :
    kpxorBody d a b s = .trap (Trap.plain 0x04 511) s := by
  rw [kpxorBody, Out.first_trapIf, if_pos (decide_eq_true h)]
  rfl

theorem kpxorBody_of_le {a : Nat} {s : State} (h : trueCount (s.cur.kruns a) ≤ 511) (d b : Nat) :
    kpxorBody d a b s = setMask s (·.latched none (some b)) d
      (maskResult (parityRuns ((operand s.cur b).getLsbD 0) (s.cur.kruns a))) := by
  simp only [kpxorBody, Out.first_trapIf, wbit, operand_eq, Nat.not_lt.mpr h, decide_false, Bool.false_eq_true, if_false]

/-- The running parity of mask `a` as a mask result (R249). -/
theorem parity_holds {c : Ctx} {a : Nat} {par : Bool} {x : List KRun} (ha : a < 8)
    (h : maskResult (parityRuns par (c.kruns a)) = .ok x) :
    lenK x = maskLen c a ∧ CanonicalK c x ∧
      ∀ e, e < maskLen c a → elK x e = (par != decide (((List.range (e + 1)).filter (maskEl c a)).length % 2 = 1)) := by
  obtain ⟨hlen, hcanon, hel⟩ := maskResult_holds h fun hs => parityRuns_ne_zero par _ (kruns_ne_zero hs a ha)
  rw [runsLen_parityRuns, ← maskLen_eq] at hlen
  refine ⟨hlen, hcanon, fun e he => ?_⟩
  rw [hel, runElem_parityRuns par _ e (by rwa [← maskLen_eq]), length_filter_maskEl]
  rfl

/-- What STOK does once its class check passes (R250, R438). -/
def stokBody (d q b : Nat) (p : Pfx) (s : State) : Out :=
  Out.first s [trapIf (decide (64 < (s.cur.src b).toNat)) (baseRegTrap p)]
    (setMask s (·.latched (some q) (some b)) d
      (maskResult ((List.range (s.cur.src b).toNat).map fun j => (wbit (s.cur.src q) j, 1))))

theorem exec_stok (d q b : Nat) (p : Pfx) (s : State) :
    exec (.stok d q b p) s = issue s (.since3 1) (prefixWords p) (stokBody d q b p) := rfl

theorem baseRegTrap_eq (p : Pfx) : baseRegTrap p = Trap.plain 0x02 (fieldB p) := by
  unfold baseRegTrap fieldB
  split <;> rfl

theorem stokBody_of_gt {b : Nat} {s : State} (h : 64 < (operand s.cur b).toNat) (d q : Nat) (p : Pfx) :
    stokBody d q b p s = .trap (Trap.plain 0x02 (fieldB p)) s := by
  rw [stokBody, Out.first_trapIf, operand_eq, if_pos (decide_eq_true h), baseRegTrap_eq]

/-- The low `n` bits of a word as runs of one element each. -/
def bitRuns (w : Word) (n : Nat) : Runs Bool := (List.range n).map fun j => (w.getLsbD j, 1)

theorem stokBody_of_le {b : Nat} {s : State} (h : (operand s.cur b).toNat ≤ 64) (d q : Nat) (p : Pfx) :
    stokBody d q b p s = setMask s (·.latched (some q) (some b)) d
      (maskResult (bitRuns (operand s.cur q) (operand s.cur b).toNat)) := by
  simp only [stokBody, Out.first_trapIf, wbit, operand_eq, bitRuns, Nat.not_lt.mpr h, decide_false, Bool.false_eq_true, if_false]

theorem runsLen_bitRuns (w : Word) (n : Nat) : runsLen (bitRuns w n) = n := by
  rw [bitRuns, runsLen_map_one, List.length_range]

theorem runElem_bitRuns {w : Word} {n e : Nat} (h : e < n) : runElem e (bitRuns w n) = some (w.getLsbD e) := by
  rw [bitRuns, runElem_map_one, List.getElem?_range h]
  rfl

/-- At most 64 bits always fit a mask (R232, R250). -/
theorem exists_maskResult_bitRuns (w : Word) {n : Nat} (h : n ≤ 64) : ∃ x, maskResult (bitRuns w n) = .ok x := by
  have hle := length_canon_le (bitRuns w n)
  rw [runsLen_bitRuns] at hle
  exact exists_maskResult (by omega)

theorem bits_hold {c : Ctx} {w : Word} {n : Nat} {x : List KRun} (h : maskResult (bitRuns w n) = .ok x) :
    lenK x = n ∧ CanonicalK c x ∧ ∀ e, e < n → elK x e = w.getLsbD e := by
  have hne : ∀ y ∈ bitRuns w n, y.2 ≠ 0 := by simp [bitRuns]
  obtain ⟨hlen, hcanon, hel⟩ := maskResult_holds h fun _ => hne
  exact ⟨hlen.trans (runsLen_bitRuns w n), hcanon, fun e he => by rw [hel, runElem_bitRuns he]; rfl⟩

/-- Settles O29: each instruction retires with the result that the mask's runs give, read element by element. -/
theorem maskConversions : Obligations.MaskConversions := by
  intro d a b p s hs ha
  refine ⟨kpopc_writesScalar d a p s hs, klen_writesScalar d a p s hs, ktos_writesScalar d a b p s hs, ?kpxor, ?stok⟩
  case kpxor =>
    intro hv _
    have hk := Cls.since3_trap s 1 hv
    exact ⟨fun hgt => issue_fault hk (kpxorBody_of_gt hgt d b), fun hle =>
      ⟨overflows_of_setMask (exec_kpxor d a b p s) hk (kpxorBody_of_le hle d b), fun _ hres =>
        issue_setMask_ok hs hk (kpxorBody_of_le hle d b) hres (parity_holds ha hres)⟩⟩
  case stok =>
    intro q hv _
    have hk := Cls.since3_trap s 1 hv
    refine ⟨fun hgt => issue_fault hk (stokBody_of_gt hgt d q p), fun hle => ?_⟩
    obtain ⟨x, hx⟩ := exists_maskResult_bitRuns (operand s.cur q) hle
    exact issue_setMask_ok hs hk (stokBody_of_le hle d q p) hx (bits_hold hx)

end Sys2Proof.Claims

/-! PROOFS. Guarded instructions whose guard is false (R71, R219, R282, R432): each is issued through one of two shared operations,
which discard it before any operand is read. -/

namespace Sys2Proof.Machine

/-! ### Updates that put back what stands there -/

@[simp] theorem setIfInBounds_vget {α : Type} {n : Nat} (v : Vector α n) (i : Nat) (d : α) : v.setIfInBounds i (vget v i d) = v := by
  ext j hj
  rw [Vector.getElem_setIfInBounds]
  split
  next e => subst e; simp [vget, hj]
  next => rfl

@[simp] theorem Core.setCtx_ctx (k : Core) (slot : Nat) : k.setCtx slot (k.ctx slot) = k := by
  unfold Core.setCtx Core.ctx
  split
  · rfl
  · rw [setIfInBounds_vget]

@[simp] theorem State.setMe_me (s : State) : s.setMe s.me = s := by
  simp [State.setMe, State.setCore, State.me, State.core]

@[simp] theorem State.setCur_cur (s : State) : s.setCur s.cur = s := by
  simp [State.setCur, State.cur]

/-! ### The moving core after a retirement -/

/-- The moving core after its control context retired an instruction. -/
theorem State.me_retire_control (s : State) (words : Nat) (h : s.curCore < 96) (h' : s.curSlot = 15) :
    (s.retire words).me = { s.me with ctl := s.cur.retire words,
                                      ev := s.me.ev.setIfInBounds 0 (min (vget s.me.ev 0 0 + 1) 0xFFFFFFFF) } := by
  rw [State.retire_eq s words h, State.me_setMe _ _ h, h', Core.setCtx, if_pos rfl]

/-! ### Instructions discarded at issue (R71, R282, R432) -/

theorem Cls.ctl_trap (s : State) (h : s.curSlot = 15) : Cls.ctl.trap s = none := by
  simp [Cls.ctl, Cls.trap, State.helper, h]

theorem guardFalse_iff {s : State} {x : Ext} : guardFalse s x = true ↔ x.g = true ∧ s.cur.guard x.gslot = x.ginv := by
  simp [guardFalse]

theorem issueG_of_guardFalse {s : State} {k : Cls} {words : Nat} {x : Ext} {body : State → Out} (hg : guardFalse s x = true)
    (hk : k.trap s = none) : issueG s k words x body = .next (s.retire words) :=
  issue_ok hk (if_pos hg)

theorem issueT_of_guardFalse {s : State} {o : Op} {words : Nat} {x : Ext} {srcs : List TSrc} {pre : State → State}
    {regs addr : State → Option Trap} {ev busy : Nat} {body : State → Out} (hg : guardFalse s x = true) (hs : s.curSlot = 15) :
    issueT s o words x srcs pre regs addr ev busy body = .next ((addStamp s (stampOf s o true x [])).retire words) :=
  issue_ok (Cls.ctl_trap s hs) (if_pos hg)

/-- The state with more stamps to be written by the moving core. -/
def State.withStamps (s : State) (l : List RingRec) : State := s.setMe { s.me with stamps := s.me.stamps ++ l }

/-- A stamp joins the records of a core that keeps them, and of no other (R393, R396). -/
theorem addStamp_eq_withStamps (s : State) (t : TStamp) :
    ∃ l, addStamp s t = s.withStamps l ∧ l.length = if s.stamping then 1 else 0 := by
  unfold addStamp
  split
  · exact ⟨[_], rfl, rfl⟩
  · refine ⟨[], ?_, rfl⟩
    rw [State.withStamps, List.append_nil]
    exact (State.setMe_me s).symm

theorem State.me_withStamps (s : State) (l : List RingRec) (h : s.curCore < 96) :
    (s.withStamps l).me = { s.me with stamps := s.me.stamps ++ l } :=
  State.me_setMe _ _ h

theorem State.cur_withStamps (s : State) (l : List RingRec) (h : s.curCore < 96) : (s.withStamps l).cur = s.cur := by
  unfold State.cur
  rw [State.me_withStamps s l h]
  rfl

end Sys2Proof.Machine

namespace Sys2Proof.Claims

open Sys2Proof.Machine

theorem offWords_eq (o : Off) : offWords o = extWords o := by
  cases o <;> rfl

theorem clenWords_eq (c : Ctx) (len : CLen) : clenWords len = (copyLen c len).2 := by
  cases len <;> rfl

/-! ### Instructions outside the tile engine -/

theorem writesNothing_retire (s : State) (words : Nat) (h : Stands s) : WritesNothing s (s.retire words) words none none := by
  have hw := writesNothing_of s words none none h
  rwa [show s.cur.latched none none = s.cur from rfl, State.setCur_cur] at hw

/-- An instruction of `words` words is issued, in this state, under the guard of its word 2. -/
def Guarded (s : State) (x : Ext) (k : Cls) (words : Nat) (i : Instr) : Prop := ∃ body, exec i s = issueG s k words x body

/-- Under a false guard, what its effect would be is never asked. -/
theorem Guarded.writesNothing {s : State} {x : Ext} {k : Cls} {words : Nat} {i : Instr} (hi : Guarded s x k words i)
    (hg : guardFalse s x = true) (hk : k.trap s = none) (h : Stands s) :
    ∃ t, exec i s = .next t ∧ WritesNothing s t words none none := by
  obtain ⟨body, hexec⟩ := hi
  exact ⟨_, hexec.trans (issueG_of_guardFalse hg hk), writesNothing_retire s words h⟩

/-- The same of every instruction of a list. -/
theorem forall_writesNothing_of_guarded {s : State} {x : Ext} {k : Cls} {words : Nat} {l : List Instr}
    (hl : ∀ i ∈ l, Guarded s x k words i) (hg : guardFalse s x = true) (hk : k.trap s = none) (h : Stands s) :
    ∀ i ∈ l, ∃ t, exec i s = .next t ∧ WritesNothing s t words none none :=
  fun i hi => (hl i hi).writesNothing hg hk h

/-! ### Tile instructions (R282) -/

/-- What a discarded tile instruction leaves: it retires with no register and no tile written, and a stamp where the core keeps them. -/
def LeavesStamp (s t : State) (words : Nat) : Prop :=
  TileRetired s t words noOwn ∧ t.me.tiles = s.me.tiles ∧ Latches s t none none ∧
    ∀ r, r < 16 → t.cur.vreg r = thenV s.cur.pend r (s.cur.vreg r)

theorem leavesStamp_retire (s : State) (l : List RingRec) (words : Nat) (h : Control s)
    (hl : l.length = if s.stamping then 1 else 0) : LeavesStamp s ((s.withStamps l).retire words) words := by
  obtain ⟨hcore, hslot⟩ := h
  have hcur : (s.withStamps l).cur = s.cur := State.cur_withStamps s l hcore
  have hme := State.me_retire_control (s.withStamps l) words hcore hslot
  rw [State.me_withStamps s l hcore, hcur] at hme
  obtain ⟨⟨-, hctx, hwritten⟩, ⟨hvreg, ⟨hk, hkw⟩, ⟨hguard, hgres, hgw⟩, hb⟩, hlatches, hsreg⟩ :=
    writesNothing_retire (s.withStamps l) words ⟨hcore, .inr hslot⟩
  rw [hk, hkw, hguard, hgres, hgw, hb, hcur] at hctx
  rw [hcur] at hvreg hsreg
  refine ⟨⟨rfl, ?cores, ?me, ?counters, ⟨l, ?stamps, hl⟩, hctx, ?written, hsreg⟩, ?tiles, ?latches, hvreg⟩
  case cores =>
    intro c hc
    rw [State.core_retire (s.withStamps l) words c hcore hc, State.withStamps, State.core_setMe _ _ _ hcore, if_neg (Ne.symm hc)]
  case me => rw [hme]
  case counters =>
    intro i hi
    rw [hme]
    exact vget_set_other _ _ _ _ _ (by omega)
  case stamps => rw [hme]
  case written => rwa [Written, hcur] at hwritten
  case tiles => rw [hme]
  case latches => rwa [Latches, hcur] at hlatches

/-- An instruction of `words` words is issued, in this state, as a tile instruction under the guard of its word 2. -/
def GuardedTile (s : State) (x : Ext) (words : Nat) (i : Instr) : Prop :=
  ∃ o srcs pre regs addr ev busy body, exec i s = issueT s o words x srcs pre regs addr ev busy body

/-- Under a false guard, neither its checks nor its effect are ever asked, of any instruction of a list. -/
theorem forall_leavesStamp_of_guardedTile {s : State} {x : Ext} {words : Nat} {l : List Instr}
    (hl : ∀ i ∈ l, GuardedTile s x words i) (hg : guardFalse s x = true) (h : Control s) :
    ∀ i ∈ l, ∃ t, exec i s = .next t ∧ LeavesStamp s t words := by
  intro i hi
  obtain ⟨o, _, _, _, _, _, _, _, hexec⟩ := hl i hi
  obtain ⟨r, hr, hlen⟩ := addStamp_eq_withStamps s (stampOf s o true x [])
  exact ⟨_, hexec.trans (issueT_of_guardFalse hg h.2), hr ▸ leavesStamp_retire s r words h hlen⟩

/-! ### The instructions that have a guard (R178, R260) -/

section Forms

variable (s : State) (x : Ext) (d a b : Nat) (f : Nat → Nat) (q : Nat → Bool) (m : Addr)

/-- Loads, stores and atomics of the base version, scalar and vector. -/
theorem guarded_of_memory :
    ∀ i ∈ [Instr.memxLdI8 d a b (f 0) m x, .memxLdN8 d a b (f 0) m x, .memxLdI16 d a b (f 0) m x, .memxLdN16 d a b (f 0) m x,
        .memxLdI32 d a b (f 0) m x, .memxLdN32 d a b (f 0) m x, .memxLdI64 d a b (f 0) m x, .memxStI8 a b m x, .memxStI16 a b m x,
        .memxStI32 a b m x, .memxStI64 a b m x, .aswp d a b (q 0) m x, .acas d a b (q 0) (f 0) m x, .aadd d a b (q 0) m x,
        .aand d a b (q 0) m x, .aor d a b (q 0) m x, .axor d a b (q 0) m x, .aminI d a b (q 0) m x, .aminN d a b (q 0) m x,
        .amaxI d a b (q 0) m x, .amaxN d a b (q 0) m x, .vld d a b (f 0) (f 1) (q 0) m x, .vst d a (f 0) (f 1) m x, .vldr d a b m x,
        .vstr d a m x, .vgath d a b (f 0) (f 1) (q 0) (f 2) m x, .vscat d a b (f 0) (f 1) (f 2) m x],
      Guarded s x .base (extWords m.off) i := by
  rw [← offWords_eq]
  simp only [List.forall_mem_cons]
  refine ⟨?memxLdI8, ?memxLdN8, ?memxLdI16, ?memxLdN16, ?memxLdI32, ?memxLdN32, ?memxLdI64, ?memxStI8, ?memxStI16, ?memxStI32,
    ?memxStI64, ?aswp, ?acas, ?aadd, ?aand, ?aor, ?axor, ?aminI, ?aminN, ?amaxI, ?amaxN, ?vld, ?vst, ?vldr, ?vstr, ?vgath, ?vscat,
    List.forall_mem_nil _⟩
  case memxLdI8 | memxLdN8 | memxLdI16 | memxLdN16 | memxLdI32 | memxLdN32 | memxLdI64 =>
    dsimp only [Guarded, exec, execMemxLdI8, execMemxLdN8, execMemxLdI16, execMemxLdN16, execMemxLdI32, execMemxLdN32,
      execMemxLdI64, loadX]
    exact ⟨_, rfl⟩
  case memxStI8 | memxStI16 | memxStI32 | memxStI64 =>
    dsimp only [Guarded, exec, execMemxStI8, execMemxStI16, execMemxStI32, execMemxStI64, storeX]
    exact ⟨_, rfl⟩
  case aswp | acas | aadd | aand | aor | axor | aminI | aminN | amaxI | amaxN =>
    dsimp only [Guarded, exec, execAswp, execAcas, execAadd, execAand, execAor, execAxor, execAminI, execAminN, execAmaxI,
      execAmaxN, atomOp]
    exact ⟨_, rfl⟩
  case vld | vst | vldr | vstr | vgath | vscat =>
    dsimp only [Guarded, exec, execVld, execVst, execVldr, execVstr, execVgath, execVscat]
    exact ⟨_, rfl⟩

/-- The atomic of minor version 2 (R185, R220). -/
theorem guarded_of_afadd : Guarded s x (.since3 2) (extWords m.off) (.afaddF32 d a b m x) := by
  rw [← offWords_eq]
  dsimp only [Guarded, exec, execAfaddF32, atomOp]
  exact ⟨_, rfl⟩

/-- Copies (R285). -/
theorem guarded_of_copies (len : CLen) :
    ∀ i ∈ [Instr.cpy len a b (f 0) (f 1) (f 2) (f 3) (f 4) (q 0) (f 5) (f 6) x,
        .cpyw len a b (f 0) (f 1) (f 2) (f 3) (f 4) (q 0) (f 5) (f 6) (f 7) (f 8) (f 9) x],
      Guarded s x .base (copyLen s.cur len).2 i := by
  rw [← clenWords_eq]
  simp only [List.forall_mem_cons]
  refine ⟨?cpy, ?cpyw, List.forall_mem_nil _⟩
  all_goals
    dsimp only [Guarded, exec, execCpy, execCpyw, copyOp]
    exact ⟨_, rfl⟩

/-- The other commands, messages and forks (R292, R294, R301, R314, R315). -/
theorem guarded_of_sent :
    ∀ i ∈ [Instr.xfm a b (f 0) (f 1) (f 2) (f 3) (f 4) (f 5) (q 0) (q 1) (f 6) x, .layv a (f 0) (f 1) x,
        .coll d a b (f 0) (f 1) (f 2) (q 0) (f 3) (q 1) (f 4) (f 5) (f 6) (f 7) (f 8) x,
        .msend a b (f 0) (f 1) (f 2) (f 3) (f 4) (f 5) x, .fork a b (q 0) (f 0) (f 1) x],
      Guarded s x .base 3 i := by
  simp only [List.forall_mem_cons]
  refine ⟨?xfm, ?layv, ?coll, ?msend, ?fork, List.forall_mem_nil _⟩
  all_goals
    dsimp only [Guarded, exec, execXfm, execLayv, execColl, execMsend, execFork]
    exact ⟨_, rfl⟩

/-- START, which only a control context executes (R435). -/
theorem guarded_of_start : Guarded s x .ctl 3 (.start a b (f 0) x) := by
  dsimp only [Guarded, exec, execStart]
  exact ⟨_, rfl⟩

/-- Tile instructions without memory (R266 to R280). -/
theorem guardedTile_of_tiles :
    ∀ i ∈ [Instr.tzero d (f 0) (f 1) (q 0) x, .tmov d a x, .mma d a b (f 0) (f 1) (q 0) (f 2) (f 3) (f 4) x,
        .mmf d a b (f 0) (q 0) (f 1) (f 2) (f 3) x, .scac d a b (q 0) (f 0) (f 1) (f 2) (f 3) x, .scal d a b x,
        .tadd d a b (f 0) (f 1) (q 0) x, .tsub d a b (f 0) (f 1) (q 0) x, .temul d a b (f 0) (f 1) (q 0) x,
        .tmax d a b (f 0) (f 1) (q 0) x, .tmin d a b (f 0) (f 1) (q 0) x, .tact d a (f 0) (f 1) (f 2) x,
        .tcvt d a (f 0) (f 1) (f 2) (q 0) (f 3) x, .ttrn d a (f 0) (f 1) x, .tplane d a (f 0) (f 1) x,
        .tred d a (f 0) (q 0) (f 1) x, .tbcast d a (f 0) (f 1) (q 0) x],
      GuardedTile s x 3 i := by
  simp only [List.forall_mem_cons]
  refine ⟨?tzero, ?tmov, ?mma, ?mmf, ?scac, ?scal, ?tadd, ?tsub, ?temul, ?tmax, ?tmin, ?tact, ?tcvt, ?ttrn, ?tplane, ?tred, ?tbcast,
    List.forall_mem_nil _⟩
  case tadd | tsub | temul | tmax | tmin =>
    dsimp only [GuardedTile, exec, execTadd, execTsub, execTemul, execTmax, execTmin, tileElem, tileOp]
    exact ⟨_, _, _, _, _, _, _, _, rfl⟩
  all_goals
    dsimp only [GuardedTile, exec, execTzero, execTmov, execMma, execMmf, execScac, execScal, execTact, execTcvt, execTtrn,
      execTplane, execTred, execTbcast, tileOp]
    exact ⟨_, _, _, _, _, _, _, _, rfl⟩

/-- TLD and TST (R263 to R265). -/
theorem guardedTile_of_windows :
    ∀ i ∈ [Instr.tld d a b (f 0) (f 1) (q 0) m x, .tst d a b m x], GuardedTile s x (extWords m.off) i := by
  rw [← offWords_eq]
  simp only [List.forall_mem_cons]
  refine ⟨?tld, ?tst, List.forall_mem_nil _⟩
  all_goals
    dsimp only [GuardedTile, exec, execTld, execTst]
    exact ⟨_, _, _, _, _, _, _, _, rfl⟩

end Forms

/-- Settles O43: every instruction named is issued under its guard, so a false one leaves its retirement alone, and of a tile
instruction its stamp. -/
theorem falseGuardsDiscard : Obligations.FalseGuardsDiscard := by
  intro s x hset hfalse d a b f q m
  have hg : guardFalse s x = true := guardFalse_iff.mpr ⟨hset, hfalse⟩
  have hbase : Cls.base.trap s = none := Cls.base_trap s
  refine ⟨fun hs => ⟨?memory, fun hv => ?afadd, fun len => ?copies, ?sent, fun hctl => ?start⟩, fun hc => ⟨?tiles, ?windows⟩⟩
  case memory => exact forall_writesNothing_of_guarded (guarded_of_memory s x d a b f q m) hg hbase hs
  case afadd => exact (guarded_of_afadd s x d a b m).writesNothing hg (Cls.since3_trap s 2 hv) hs
  case copies => exact forall_writesNothing_of_guarded (guarded_of_copies s x a b f q len) hg hbase hs
  case sent => exact forall_writesNothing_of_guarded (guarded_of_sent s x d a b f q) hg hbase hs
  case start => exact (guarded_of_start s x a b f).writesNothing hg (Cls.ctl_trap s hctl) hs
  case tiles => exact forall_leavesStamp_of_guardedTile (guardedTile_of_tiles s x d a b f q) hg hc
  case windows => exact forall_leavesStamp_of_guardedTile (guardedTile_of_windows s x d a b f q m) hg hc

end Sys2Proof.Claims
